-- ==== Sys2Proof/Word.lean ====
section
/-! DEFINITION. The word types of the QX-4800: bytes, halfwords of the QAA stream (R84), 64-bit registers (R25, R49). -/
namespace Sys2Proof

/-- One byte of physical memory. -/
abbrev Byte := BitVec 8

/-- One halfword of the QAA instruction stream (R84). -/
abbrev HWord := BitVec 16

/-- One architected or control-space register (R25, R49). -/
abbrev Word := BitVec 64

/-- A physical line index, PA[51:7] (R11). -/
abbrev Line := Nat

end Sys2Proof
end

