-- ==== Sys2Proof/Syntax.lean ====
section
/-! DEFINITION. The commands of the module: one constructor of Instr per row of spec/opcode_table.json, and the operand
types they carry. Operands that stand for a choice the spec leaves to the outside (an error met, a pulse width, a way
picked) are log entry 8. -/
namespace Sys2Proof

/-- The QAA operations (R95, R96, R99, R101). -/
inductive QOp where
  | ld | st | ldx | stx | ldy | sty | leax | leay
  | xchg | add | adc | sub | sbb | and | or | xor
  | shl | shr | sar | rol | ror | tst | cmp | cmpu
  | mul | mulh | mulhu | div | divu | rem | remu
  | br | call | cflush | cinvr | fcmp
  | fadd | fsub | fmul | fdiv | fsqrt | fma | fmin | fmax
  | dad | dsb | dmul | drnd | dcmp | dval
  | dadExt | dsbExt | dmulExt | drndExt | dcmpExt | dvalExt
  | ret | reti | wait | trap | fence | pflush | pbar | punbar | rnda
  | mvax | mvxa | mvay | mvya | not | neg | xchgX | xchgY
  | fcvt | fcvti | icvtf | dcvb | dcvbExt | bcvd
  | ctOn | ctOff
  deriving DecidableEq, Repr

/-- The fields of one instruction, without its opcode: long form (R88), short form (R93), prefix group (R101). -/
inductive Form where
  | long (pred : BitVec 3) (size : BitVec 2) (am : BitVec 4) (operand : BitVec 15)
  | short (size : BitVec 2) (sam : BitVec 3) (soperand : BitVec 6)
  | grp (low : BitVec 8)
  deriving DecidableEq, Repr

/-- A unit without REP or LOCK: an optional PFX.P (bits [7:0] of its halfword, R101) and an instruction's fields. -/
structure QUnit where
  pfx  : Option (BitVec 8)
  form : Form
  deriving DecidableEq, Repr

/-- Who sends a control-space access (R22, R23, R399). -/
inductive Req where
  | ctx (c : Fin 32)
  | mgmt
  | jtag
  deriving DecidableEq, Repr

/-- The instance and innings that a request carries since its issue (R311); none stands for those of its requester now. -/
structure Issue where
  inst    : BitVec 8
  innings : BitVec 12
  deriving DecidableEq, Repr

/-- Access widths of R25. -/
inductive Width where
  | w1 | w2 | w4 | w8
  deriving DecidableEq, Repr

/-- The queue classes of R17. -/
inductive QClass where
  | lineRequest | lineFill | writeback | l3Request | l3Data | memRequest | memData | engineMem | pcieInbound
  | controlAccess | controlReturn | engineJob | event | eventDelivery | faultCard | timeRead | mailbox
  deriving DecidableEq, Repr

/-- Who reads time through the time-read class (R342). -/
inductive TimeReader where
  | channel | zip (n : Fin 4) | cipher (k : Fin 2)
  deriving DecidableEq, Repr

/-- What the ECC check of a queue entry finds (R19). -/
inductive Ecc where
  | good | corrected | uncorrectable
  deriving DecidableEq, Repr

/-- A fault as a block sends it (R234): severity is fixed by the kind (R235). bound names the context of a
context-bound card (R238). -/
structure FaultRec where
  source   : Fin 512
  kind     : BitVec 6
  inst     : BitVec 8
  copyLane : BitVec 6
  address  : BitVec 52
  bound    : Option (Fin 32)
  deriving DecidableEq, Repr

/-- What a queue entry carries to its consumer (R12). lineReq: a read or read-for-ownership, whose response is the eight
sectors of its line, or an uncached request, whose response is one sector (R14, R17). other: a unit whose effect is the
command of its own row (LINE_FILL, MEMORY_REQUEST, PCIE_INBOUND_REQUEST, ...); the entry moves the credits and no more. -/
inductive Payload where
  | event (source : Fin 1024) (inst : BitVec 8) (innings : BitVec 12)
  | card (f : FaultRec)
  | ctlWrite (r : Req) (off : BitVec 40) (w : Width) (v : Word)
  | ctlRead (r : Req) (off : BitVec 40) (w : Width)
  | time (who : TimeReader)
  | lineReq (uncached : Bool)
  | other
  deriving DecidableEq, Repr

/-- One queue: its class, producer and consumer numbers (R17). -/
structure QueueId where
  cls      : QClass
  producer : Nat
  consumer : Nat
  deriving DecidableEq, Repr

/-- Errors that a cache access or the cache scrub meets (R176). -/
inductive CacheErr where
  | l1 (p : Fin 18) (copy slot : Bool) (line : Line)
  | l2Correctable (p : Fin 18) (copy : Bool) (line : Line)
  | l2Clean (p : Fin 18) (copy slot : Bool) (line : Line)
  | l2Dirty (p : Fin 18) (copy slot : Bool) (line : Line)
  | l2Both (p : Fin 18) (line : Line)
  | l3Correctable (s : Fin 16) (line : Line)
  | l3Clean (s : Fin 16) (line : Line)
  | l3Dirty (s : Fin 16) (line : Line)
  deriving DecidableEq, Repr

/-- Errors that a memory access meets on a channel (R182). alsoBad: another line of the stripe is uncorrectable too. -/
inductive MemErr where
  | none
  | correctable
  | uncorrectable (alsoBad : Bool)
  | linkRetryOk
  | linkFailed
  deriving DecidableEq, Repr

/-- What a request asks of the memory controller (R180, R181). Writes carry their bytes. -/
inductive MemOp where
  | read
  | write (data : List Byte)
  | fullStripe (data : List Byte)
  deriving DecidableEq, Repr

/-- What happens next in a running MEM_CHANNEL_REBUILD (R184). -/
inductive RebuildEv where
  | trained
  | trainingFailed
  | advance (mib : Nat) (corrected : Nat)
  | linkFailed
  | unreconstructable (rebuilt other : Line)
  | finished
  deriving DecidableEq, Repr

/-- Why a pair lets (R190, R196, R210). miscompareLine: a line leaving the L2 whose copies differ (R195); bothPass: both
copies' lines pass their code. -/
inductive LetCause where
  | miscompareWrite | miscompareStore | miscompareRequest
  | miscompareLine (line : Line) (bothPass : Bool)
  | parity | stagger | cacheError
  deriving DecidableEq, Repr

/-- A cache that drains (R172). -/
inductive DrainId where
  | l2 (p : Fin 18)
  | l3
  deriving DecidableEq, Repr

/-- The blocks of CRP_BRST (R372). -/
inductive Blk where
  | ert | chan | zip (n : Fin 4) | ciph | time | sp
  deriving DecidableEq, Repr

/-- Header of a fabric message (R259); its MTYPE is the command. -/
structure MsgHdr where
  cls    : BitVec 2
  seq    : BitVec 48
  dstMod : BitVec 14
  srcMod : BitVec 14
  dstSub : BitVec 16
  srcSub : BitVec 16
  opid   : BitVec 64
  length : BitVec 17
  crc    : BitVec 32
  deriving DecidableEq, Repr

/-- NAK reasons (R259). -/
inductive NakReason where
  | rnr | refused | badCrc
  deriving DecidableEq, Repr

/-- What a CONTROL flit asks of the other end: traffic of a lane moves to the spare, or the link goes to half width (R266);
on port M, that counts of applied records come back at once up to a count that a DUPX_SYNC read waits for (R324, R330). -/
inductive LinkNote where
  | spare (lane : Fin 9)
  | half
  | countAsk (upTo : Nat)
  deriving DecidableEq, Repr

/-- A flit (R264); good: its CRC check passed and its type is not reserved. link: what a CONTROL flit asks of the link;
what else one carries is the command of its own row (HEARTBEAT, RELINQUISH, ...). -/
structure Flit where
  ftype    : BitVec 4
  lseq     : BitVec 12
  cls      : BitVec 2
  seg      : BitVec 2
  link     : Option LinkNote
  ackLseq  : BitVec 12
  ackValid : Bool
  nak      : Bool
  credits  : BitVec 16
  good     : Bool
  deriving DecidableEq, Repr

/-- An inbound PCIe request (R271, R272). -/
inductive PcieReq where
  | read (addr : BitVec 64) (len : Nat)
  | write (addr : BitVec 64) (data : List Byte)
  deriving DecidableEq, Repr

/-- What the partner's DUPLEX_BIND brings (R332): the module it names, its heartbeat period, its zone table as pairs of
DUPX_ZBASEz and DUPX_ZSIZEz, and its DUPX_CKPTBASE. -/
structure BindInfo where
  partner  : BitVec 14
  period   : Nat
  zones    : List (BitVec 64 × BitVec 64)
  ckptBase : BitVec 64
  deriving DecidableEq, Repr

/-- Root-port link events (R236, R272). -/
inductive RootEv where
  | linkUp | linkDown | correctable | nonFatal | fatal
  deriving DecidableEq, Repr

/-- What an alarm comparator sees (R371): a rail in µV, a temperature sensor (0 for sensor 6) in m°C, the REFCLK period in
ps. -/
inductive AlarmKind where
  | voltage (rail : Fin 6) (uV : BitVec 32)
  | temperature (sensor : Fin 24) (mC : BitVec 32)
  | glitch (ps : BitVec 32)
  deriving DecidableEq, Repr

/-- Upset of the two count copies in a TOD cycle (R348): the bits that flip in copy 0 or copy 1. -/
inductive TodUpset where
  | none
  | flip (copy1 : Bool) (bits : BitVec 160)
  deriving DecidableEq, Repr

/-- Instructions of the JTAG port (R388, R399). -/
inductive JtagIr where
  | bypass | idcode | sample | extest | clamp | highz | csacc
  deriving DecidableEq, Repr

/-- Where a boot finds its images (R393): the slot whose checks pass, or none. -/
inductive BootImage where
  | slot (n : Fin 2)
  | none
  deriving DecidableEq, Repr

/-- The commands, one per row of the table. An operand with a default stands last: what some commands of the row carry
besides (raw: the bits that the entropy source has given). -/
inductive Instr where
  -- QAA instructions of a context (03 to 07)
  | ld (c : Fin 32) (u : QUnit)
  | st (c : Fin 32) (u : QUnit)
  | ldx (c : Fin 32) (u : QUnit)
  | stx (c : Fin 32) (u : QUnit)
  | ldy (c : Fin 32) (u : QUnit)
  | sty (c : Fin 32) (u : QUnit)
  | leax (c : Fin 32) (u : QUnit)
  | leay (c : Fin 32) (u : QUnit)
  | xchg (c : Fin 32) (u : QUnit)
  | add (c : Fin 32) (u : QUnit)
  | adc (c : Fin 32) (u : QUnit)
  | sub (c : Fin 32) (u : QUnit)
  | sbb (c : Fin 32) (u : QUnit)
  | and (c : Fin 32) (u : QUnit)
  | or (c : Fin 32) (u : QUnit)
  | xor (c : Fin 32) (u : QUnit)
  | shl (c : Fin 32) (u : QUnit)
  | shr (c : Fin 32) (u : QUnit)
  | sar (c : Fin 32) (u : QUnit)
  | rol (c : Fin 32) (u : QUnit)
  | ror (c : Fin 32) (u : QUnit)
  | tst (c : Fin 32) (u : QUnit)
  | cmp (c : Fin 32) (u : QUnit)
  | cmpu (c : Fin 32) (u : QUnit)
  | mul (c : Fin 32) (u : QUnit)
  | mulh (c : Fin 32) (u : QUnit)
  | mulhu (c : Fin 32) (u : QUnit)
  | div (c : Fin 32) (u : QUnit)
  | divu (c : Fin 32) (u : QUnit)
  | rem (c : Fin 32) (u : QUnit)
  | remu (c : Fin 32) (u : QUnit)
  | br (c : Fin 32) (u : QUnit)
  | call (c : Fin 32) (u : QUnit)
  | cflush (c : Fin 32) (u : QUnit)
  | cinvr (c : Fin 32) (u : QUnit)
  | fcmp (c : Fin 32) (u : QUnit)
  | fadd (c : Fin 32) (u : QUnit)
  | fsub (c : Fin 32) (u : QUnit)
  | fmul (c : Fin 32) (u : QUnit)
  | fdiv (c : Fin 32) (u : QUnit)
  | fsqrt (c : Fin 32) (u : QUnit)
  | fma (c : Fin 32) (u : QUnit)
  | fmin (c : Fin 32) (u : QUnit)
  | fmax (c : Fin 32) (u : QUnit)
  | dad (c : Fin 32) (u : QUnit)
  | dsb (c : Fin 32) (u : QUnit)
  | dmul (c : Fin 32) (u : QUnit)
  | drnd (c : Fin 32) (u : QUnit)
  | dcmp (c : Fin 32) (u : QUnit)
  | dval (c : Fin 32) (u : QUnit)
  | dadExt (c : Fin 32) (u : QUnit)
  | dsbExt (c : Fin 32) (u : QUnit)
  | dmulExt (c : Fin 32) (u : QUnit)
  | drndExt (c : Fin 32) (u : QUnit)
  | dcmpExt (c : Fin 32) (u : QUnit)
  | dvalExt (c : Fin 32) (u : QUnit)
  | ret (c : Fin 32) (u : QUnit)
  | reti (c : Fin 32) (u : QUnit)
  | wait (c : Fin 32) (u : QUnit)
  | trap (c : Fin 32) (u : QUnit)
  | fence (c : Fin 32) (u : QUnit)
  | pflush (c : Fin 32) (u : QUnit)
  | pbar (c : Fin 32) (u : QUnit)
  | punbar (c : Fin 32) (u : QUnit)
  | rnda (c : Fin 32) (u : QUnit)
  | mvax (c : Fin 32) (u : QUnit)
  | mvxa (c : Fin 32) (u : QUnit)
  | mvay (c : Fin 32) (u : QUnit)
  | mvya (c : Fin 32) (u : QUnit)
  | not (c : Fin 32) (u : QUnit)
  | neg (c : Fin 32) (u : QUnit)
  | xchgX (c : Fin 32) (u : QUnit)
  | xchgY (c : Fin 32) (u : QUnit)
  | fcvt (c : Fin 32) (u : QUnit)
  | fcvti (c : Fin 32) (u : QUnit)
  | icvtf (c : Fin 32) (u : QUnit)
  | dcvb (c : Fin 32) (u : QUnit)
  | dcvbExt (c : Fin 32) (u : QUnit)
  | bcvd (c : Fin 32) (u : QUnit)
  | ctOn (c : Fin 32) (u : QUnit)
  | ctOff (c : Fin 32) (u : QUnit)
  | repIteration (c : Fin 32) (op : QOp) (low : BitVec 8) (f : Form)
  | lock (c : Fin 32) (op : QOp) (low : BitVec 8) (f : Form)
  -- entries and what a context's core does by itself
  | interruptEntry (c : Fin 32)
  | entryTakeover (c : Fin 32) (source : Fin 1024) (cycle : Fin 15)
  | mctEntry (c : Fin 32)
  | resetEntry (c : Fin 32)
  | mispredictResolve (c : Fin 32) (branch target : Word) (indirect : Bool) (wrong : List (Bool × Word) := [])
  | operandEntryAgeOut (c : Fin 32) (slot : Word)
  | ctxTlbinvWrite (c : Fin 32) (v : Word)
  | ctxTtbWrite (c : Fin 32) (v : Word)
  -- caches and memory (08)
  | lineFill (c : Fin 32) (line : Line) (way : Fin 16) (sector : Fin 8) (ecc : Ecc) (code : Bool := false)
  | snoop (p : Fin 18) (line : Line) (invalidate : Bool)
  | cachePctlWrite (r : Req) (p : Fin 18) (v : Word)
  | cacheL3ctlWrite (r : Req) (v : Word)
  | cacheDrainComplete (d : DrainId)
  | cacheScrub (errs : List CacheErr)
  | memoryRequest (op : MemOp) (line : Line) (err : MemErr) (mispredicted : Bool := false)
  | patrolScrub (errs : List (Line × MemErr))
  -- queues and control space (01)
  | queueEntry (q : QueueId) (ecc : Ecc) (pl : Payload)
  | creditReturn (q : QueueId)
  | controlWrite (r : Req) (off : BitVec 40) (w : Width) (v : Word)
  | mgmtBar0Request (write : Bool) (off : BitVec 40) (len : Nat) (v : Word)
  -- checked execution (09)
  | letRollback (p : Fin 18) (cause : LetCause) (copy slot async : Bool)
  | umpireCodeError (p : Fin 18) (slot : Bool := false)
  | benchSelfTestDone (b : Fin 18) (pass : Bool)
  | substitutionResume (p : Fin 18) (pauseNs : Nat)
  | handoverComplete (p : Fin 18)
  | slotWindowWrite (r : Req) (p : Fin 18) (slot : Bool) (off : BitVec 14) (v : Word)
  -- event router (10)
  | eventArrival (source : Fin 1024) (inst : BitVec 8) (innings : BitVec 12)
  | evtBallChange (n : Fin 64) (level : Bool) (held : Nat) (sampled : Bool)
  | msixWrite (port : Bool) (data : BitVec 32)
  | ertSelection
  | deliveryArrival (c : Fin 32)
  | deliveryWithdrawal (c : Fin 32)
  | ertMasksetWrite (r : Req) (k : Fin 16) (v : Word)
  | ertMaskclrWrite (r : Req) (k : Fin 16) (v : Word)
  | ertPendWrite (r : Req) (k : Fin 16) (v : Word)
  | ertSwraise (r : Req) (v : Word)
  | ertSrcWrite (r : Req) (n : Fin 1024) (v : Word)
  | ertEoi (c : Fin 32)
  | ertEoic (r : Req) (c : Fin 32)
  -- fault collection (11)
  | faultCard (f : FaultRec)
  | fcrClose (r : Req) (v : Word)
  | fcrPinWrite (r : Req) (v : Word)
  | nerrPulseEnd
  -- mailboxes and the service processor (02)
  | mbGoStart (r : Req) (mb : Fin 64)
  | mbGoContinue (r : Req) (mb : Fin 64)
  | mbGoAbort (r : Req) (mb : Fin 64)
  | commandCheck (mb : Fin 64)
  | commandDispatch
  | substitute (mb : Fin 64)
  | splitPair (mb : Fin 64)
  | joinPair (mb : Fin 64)
  | wayDelete (mb : Fin 64)
  | memChannelOffline (mb : Fin 64)
  | memChannelRebuild (mb : Fin 64) (ev : RebuildEv)
  | keyLoad (mb : Fin 64)
  | keyErase (mb : Fin 64)
  | formatLoad (mb : Fin 64)
  | instanceCreate (mb : Fin 64)
  | instanceReset (mb : Fin 64)
  | instanceDrainComplete (i : Fin 4)
  | todSet (mb : Fin 64)
  | todSetNoPps (mb : Fin 64)
  | todSteer (mb : Fin 64)
  | sensorCalibrate (mb : Fin 64)
  | fwStage (mb : Fin 64)
  | fwActivate (mb : Fin 64)
  | fwDrainLimitExpiry
  | fwImageSwitchDone (ok : Bool)
  | sequencerUpdateStep
  | attest (mb : Fin 64)
  | faultLogRead (mb : Fin 64)
  | warmReset (mb : Fin 64)
  | warmResetWaitExpiry
  | duplexBind (mb : Fin 64)
  | duplexBindTimeout
  | duplexSyncComplete
  | duplexTakeover (mb : Fin 64)
  | lkWrite (mb : Fin 64)
  -- channel subsystem and fabric ports (12)
  | chanDoorbell (r : Req) (s : BitVec 16) (v : Word) (issued : Option Issue := none)
  | chanBindFresh (r : Req) (s : BitVec 16)
  | chanBindSync (r : Req) (s : BitVec 16)
  | chanUnbind (r : Req) (s : BitVec 16)
  | unbindComplete (s : BitVec 16)
  | chanJtailWrite (r : Req) (i : Fin 256) (v : Word)
  | sendSchedule (port : Fin 4)
  | dataMessage (port : Fin 4) (h : MsgHdr) (payload : List Byte)
  | ackMessage (h : MsgHdr)
  | nakMessage (h : MsgHdr) (reason : NakReason)
  | syncReq (port : Fin 4) (h : MsgHdr)
  | syncRsp (h : MsgHdr) (rxExpect : BitVec 48) (rxMap : BitVec 64) (opids : List Word)
  | syncSkip (h : MsgHdr)
  | e2eTimeout (s : BitVec 16) (seq : BitVec 48)
  | rnrRetryTimer (s : BitVec 16) (seq : BitVec 48)
  | nopathTimeout (s : BitVec 16) (seq : BitVec 48)
  | syncTimeout (s : BitVec 16)
  | flitWindow (port : Fin 5)
  | flitReceived (port : Fin 5) (f : Flit)
  | linkReplayTimeout (port : Fin 5)
  | laneFailure (port : Fin 5) (lane : Fin 9)
  | linkSilenceTimeout (port : Fin 5)
  | trainingComplete (port : Fin 5) (ok : Bool)
  | retrainTimer (port : Fin 5)
  | pcieInboundRequest (port : Bool) (req : PcieReq)
  | rootPortLinkEvent (port : Bool) (ev : RootEv) (requester : BitVec 16)
  | mgperst (asserted : Bool)
  -- duplex pair (16)
  | mirrorWrite (line : Line) (mask : BitVec 8) (data : List Byte) (rtype : BitVec 4 := 1)
  | mirrorJhead (inst : BitVec 8) (head : BitVec 24)
  | mirrorCkptCommit (buf : Bool) (c : Fin 32)
  | appliedCount (n : BitVec 64)
  | dupxSyncRead (r : Req)
  | heartbeatSend
  | heartbeat (role : Bool) (modid : BitVec 14) (st : BitVec 3) (bind : Option BindInfo := none)
  | partnerLoss
  | fenceFlit
  | relinquish
  | takeoverComplete
  | checkpoint (c : Fin 32) (boundary : Bool)
  -- engines (13, 14)
  | zipSubmit (r : Req) (n : Fin 4) (v : Word) (issued : Option Issue := none)
  | zipChunk (n : Fin 4) (internalError : Bool)
  | ciphSubmit (r : Req) (k : Fin 2) (v : Word) (issued : Option Issue := none)
  | cipherUnit (k : Fin 2) (laneError : Option (Fin 24))
  | tamperAlarm (j : Fin 4) (level : Bool) (cycles : Nat)
  | sensorAlarm (a : AlarmKind)
  | keyErasureComplete
  | ciphAlarmClear (r : Req) (v : Word)
  -- instances (15)
  | instCtxownWrite (r : Req) (c : Fin 32) (v : Word)
  | bucketRefill
  -- time and entropy (17)
  | todTick (u : TodUpset)
  | deadlineReached (k : Fin 64)
  | timeDlarmWrite (r : Req) (v : Word)
  | timeNowfRead (r : Req) (lag : Fin 3)
  | timeRead (who : TimeReader)
  | ppsEdge (rising : Bool) (sub : Fin 10)
  | holdoverEntry
  | holdoverCorrection
  | ppsOutPulseEnd
  | entropyStartTest (raw : BitVec 4096)
  | healthTestFailure (raw : List Bool)
  | entropyRestart
  | drbgReseed (raw : BitVec 1024 := 0)
  | drbgSeedTimeout
  -- clocks, resets, power, sensors, debug, management (18, 19, 20)
  | powerOn (img : BootImage)
  | nreset (lowCycles : Nat) (accepted : Bool)
  | thermalTripRelease
  | blockReset (b : Blk)
  | contextReset (c : Fin 32)
  | contextRelease (c : Fin 32)
  | contextWakeWrite (c : Fin 32)
  | napWake (c : Fin 32)
  | gateEntry (p : Fin 18) (wakeBeforeOff : Bool)
  | gateExit (p : Fin 18)
  | pllLockLoss (j : Fin 6)
  | railCheck (rail : Fin 6) (outside : Bool)
  | railFailure (rail : Fin 6)
  | vstbyLoss
  | sensorUpdate (s : Fin 32) (raw : BitVec 16) (selfCheck : Bool)
  | dbgCtlWrite (r : Req) (v : Word)
  | dbgHaltWrite (r : Req) (v : Word)
  | csacc (write : Bool) (off : BitVec 40) (data : Word)
  | jtagInstruction (ir : JtagIr)
  | i3cRead (off : BitVec 16)
  | i3cAddressAssign (addr : BitVec 7)
  | controlRead (r : Req) (off : BitVec 40) (w : Width)
  | undefinedEncoding (c : Fin 32) (h0 h1 h2 : HWord)
  | nresetRelease (img : BootImage)
  | relinquishTimeout
  | watchdogRestart
  | mgmtLinkError (uncorrectable : Bool)
  deriving DecidableEq, Repr

end Sys2Proof
end

