-- ==== Sys2Proof/Decode.lean ====
section
/-! DEFINITION. The command that a word spells by the bits of spec/opcode_table.json. The halfwords of QAA units (R84)
are decoded in Machine/Operands.lean, as the operands of the commands that carry them. -/
namespace Sys2Proof

/-- The table gives bits to none of its rows, so no word spells a command (log entry 22). -/
def decodeTableWord (_nbits _w : Nat) : Option Instr := none

end Sys2Proof
end

