-- ==== Sys2Proof/Config.lean ====
section
/-! DEFINITION. What the spec leaves open: free values (opaque, no body, so nothing can be proved of a value) and what
one implementation fixes. Notes: log entry 6. A numbered draw takes the counter State.free and advances it. -/
namespace Sys2Proof

/-- Free 64-bit value number n: a byte string or register content the spec leaves undefined. -/
opaque Config.freeWord : Nat → BitVec 64

/-- Free byte i of draw n: bytes lost at an M reset (R359), bytes beyond OUT_PRODUCED (R285, R304), context areas (R285). -/
opaque Config.freeByte : Nat → Nat → BitVec 8

/-- Byte that the channel, an engine or the duplex engine reads, at draw d, from an address that holds nothing (R407 says
what a context's access does there). -/
opaque Config.voidByte : Nat → Nat → BitVec 8

/-- Field k of the stream context that 512 bytes are (R285 gives its fields and no layout); field 0 is 0 where the check over
the context fails. Read only of bytes that this module has not saved. -/
opaque Config.ctxField : List (BitVec 8) → Nat → Nat

/-- Free truth value of draw n. -/
opaque Config.freeBool : Nat → Bool

/-- Whether a kept translation is still held when it is used next (R61, R155 give no retention). -/
opaque Config.tlbKept : Nat → Bool

/-- The 64 bits that a request takes from a generated block of the DRBG (R351, R352 name no bits of it). -/
opaque Config.drbgWord : BitVec 128 → BitVec 64

/-- The predictor's index and tag hash: table, branch address bits [20:1], history (R150). -/
opaque Config.predIndex : Nat → Nat → BitVec 160 → Nat

/-- The predictor's tag hash (R150). -/
opaque Config.predTag : Nat → Nat → BitVec 160 → Nat

/-- The direction counter that an update with an outcome leaves in a table (R149 names its width, not its rule). -/
opaque Config.predUpdate : Nat → Bool → BitVec 3 → BitVec 3

/-- The usefulness that an update with an outcome leaves in a table (R149 names its width, not its rule). -/
opaque Config.predUseful : Nat → Bool → BitVec 2 → BitVec 2

/-- Whether a direction counter predicts its branch taken (R149 names its width, not its meaning). -/
opaque Config.predTaken : BitVec 3 → Bool

/-- The direction table in which a retiring branch gains an entry, draw n (R149, R150 name no rule); 5 and more: none. -/
opaque Config.predGrow : Nat → Nat

/-- The device key in fuses, byte i of 32 (R297). -/
opaque Config.deviceKeyByte : Nat → BitVec 8

/-- The signature bytes of a report under the attestation key (R397). -/
opaque Config.signByte : List (BitVec 8) → Nat → BitVec 8

/-- Byte i of the SHA-384 digest of the boot ROM (R391, KIND 01h). -/
opaque Config.romDigestByte : Nat → BitVec 8

/-- Byte i of the SHA-384 digest of the Rusen image of a version (R391, KIND 02h to 04h). -/
opaque Config.imageDigestByte : BitVec 32 → Nat → BitVec 8

/-- Version of the Rusen image in a flash slot (R393). -/
opaque Config.imageVersion : Nat → BitVec 32

/-- Length of the host loader that boot copies (R358 step 5). -/
opaque Config.loaderLength : Nat

/-- Byte i of the host loader (R358 step 5). -/
opaque Config.loaderByte : Nat → BitVec 8

/-- Entry address of the host loader (R358 step 5). -/
opaque Config.loaderEntry : BitVec 64

/-- Whether the signature of a staged package verifies (R44; the package format is not given). -/
opaque Config.packageSigned : List (BitVec 8) → Bool

/-- Version that a firmware package carries (R44). -/
opaque Config.packageVersion : List (BitVec 8) → BitVec 32

/-- Minimum version that a firmware package names for the rollback counter (R394). -/
opaque Config.packageMinimum : List (BitVec 8) → BitVec 16

/-- Value a factory calibration curve gives for a sensor's raw code (R369). -/
opaque Config.factoryValue : Nat → BitVec 16 → BitVec 32

/-- What a read of an ECAM window returns, draw n (R271; the devices behind the root ports are not described). -/
opaque Config.ecamWord : Nat → Nat → BitVec 64

/-- Choice among the ways a line may be allocated in, draw n (R158, R166; the replacement order is not given). -/
opaque Config.victim : Nat → Nat

/-- The index hash of an L1 (R158 gives the sizes, not the index). -/
opaque Config.l1Hash : Nat → Nat

/-- The index hash of an L2. -/
opaque Config.l2Hash : Nat → Nat

/-- The index hash of an L3 slice. -/
opaque Config.l3Hash : Nat → Nat

/-- The trim that disciplining to the 1 PPS edges leaves, draw n (R346 gives no control law). -/
opaque Config.trimStep : Nat → BitVec 32

end Sys2Proof
end

