-- ==== Sys2Proof/Machine/State.lean ====
section
/-! DEFINITION. The state of the module, as plain data, and State.reset: every field at the value the spec gives for a
power-on reset, or at a value that notes/assumptions names. -/
namespace Sys2Proof.Machine

/-- A table from numbers to values, sorted by number; a number that is not listed has the table's default. -/
abbrev Tab (α : Type) := List (Nat × α)

/-- Why the machine stops without a next state. -/
inductive Fault where
  /-- An access to an address that holds nothing (R407). No command raises it: what a context, an engine, the channel or
  the duplex engine does there is an effect of its own (log entry 68). -/
  | addressHoldsNothing
  deriving DecidableEq, Repr

/-- Why a command is turned away. -/
inductive Refusal where
  /-- An instruction that has no meaning yet: raised by exec's refused arms only, safe. -/
  | notModelled (mnemonic : String)
  /-- A command that is no term of the spec's language (WellFormed says which): raised by the meanings, safe. -/
  | illFormed
  deriving DecidableEq, Repr

/-! ## Contexts (03, 07) -/

/-- RUN, NAP and STOPPED (R211). -/
inductive Run where
  | stopped | run | nap
  deriving DecidableEq, Repr

/-- A translation a context keeps (R61): virtual page base, log2 of the page size, and the leaf entry. -/
structure TlbEntry where
  va   : Nat
  bits : Nat
  leaf : Word
  deriving DecidableEq, Repr

/-- A renamed frame slot (R142): virtual and physical address of its 8 bytes, and their value. -/
structure OpEntry where
  va   : Nat
  pa   : Nat
  data : Word
  deriving DecidableEq, Repr

/-- One context (R49, R56, R149, R153, R364). PS.RP is not here: it is the top of the ERT stack (R226). PS.UC
is not here: it follows the state of the pair (R206). waitLen: bytes
from the WAIT of a context in NAP to the next unit. seen: the last count that TIME_NOWF returned (R343).
rep: the position in a REP unit (R189): an iteration has retired and others are left. -/
structure Ctx where
  a : Word
  x : Word
  y : Word
  su : Word
  ss : Word
  sh : Word
  pc : Word
  ps : Word
  fpsr : Word
  vbaseS : Word
  vbaseH : Word
  ttb : Word
  barrier : Nat
  tlb : List TlbEntry
  opfile : List OpEntry
  hist : BitVec 160
  histSpec : BitVec 160
  ras : List Word
  rasSpec : List Word
  run : Run
  waitLen : Nat
  entering : Bool
  fresh : Bool
  rep : Bool
  wakeLatch : Bool
  mct : Bool
  nows : Word
  seen : BitVec 128
  dbgHalted : Bool
  deriving DecidableEq, Repr

/-- A context after a P, M, W or C reset (R51 to R53, R56, R58, R153, R362, R363). -/
def Ctx.reset : Ctx :=
  { a := 0, x := 0, y := 0, su := 0, ss := 0, sh := 0, pc := 0, ps := 0x3000#64, fpsr := 0
    vbaseS := 0, vbaseH := 0, ttb := 0, barrier := 0, tlb := [], opfile := []
    hist := 0, histSpec := 0, ras := [], rasSpec := []
    run := .stopped, waitLen := 0, entering := false, fresh := true, rep := false, wakeLatch := false
    mct := false, nows := 0, seen := 0
    dbgHalted := false }

/-! ## Core pairs (09) -/

/-- PAIRn_STATE.STATE (R211). -/
inductive PairSt where
  | active | bench | substituting | fenced | split | handover
  deriving DecidableEq, Repr

/-- PAIRn_LASTLET (R210). -/
structure LastLet where
  reason : BitVec 3
  copy : Bool
  count : BitVec 2
  slot : Bool
  pc : BitVec 57
  deriving DecidableEq, Repr

/-- An access of a PAIR block held during substitution or hand-over (R29, R202): a slot-window access that waits for the
resumption, or a read behind one. off is the offset in the block, inst the instance that the access carries. -/
structure HeldAccess where
  req : Req
  inst : Nat
  write : Bool
  off : Nat
  w : Nat
  v : Word
  deriving DecidableEq, Repr

/-- A substitution in progress (R200): the bench pair tried, none while an earlier substitution is served first (R205),
whether its card has been sent, whether the self-test passed, the DCS mailbox, and its place in the order in which pairs
were held. -/
structure Subst where
  bench : Option Nat
  told : Bool
  passed : Bool
  mb : Option Nat
  turn : Nat
  deriving DecidableEq, Repr

/-- A split (true) or join (false) in progress (R206, R208) and its mailbox; none once the command has been ended from
outside. -/
structure Handover where
  toSplit : Bool
  mb : Option Nat
  deriving DecidableEq, Repr

/-- An entry of a direction table, the target buffer (table 5) or the indirect target table (table 6) (R149). Table 0 has no
usefulness. -/
structure PredEntry where
  table : Nat
  index : Nat
  tag : Nat
  counter : BitVec 3
  useful : BitVec 2
  target : Word
  deriving DecidableEq, Repr

/-- One core pair (R210, R211, R149, R191, R366). group, group1: lets on the group of slot 0 and of slot 1; pred: the
predictor that both copies hold, on a split pair that of copy L, and predT that of copy T (R206). -/
structure Pair where
  st : PairSt
  failed : Bool
  slot0 : Option Nat
  slot1 : Option Nat
  letcnt : BitVec 32
  divcnt : BitVec 32
  lastlet : LastLet
  group : Nat
  group1 : Nat
  subst : Option Subst
  handover : Option Handover
  held : List HeldAccess
  gated : Bool
  pred : List PredEntry
  predT : List PredEntry
  deriving DecidableEq, Repr

def LastLet.reset : LastLet := { reason := 0, copy := false, count := 0, slot := false, pc := 0 }

/-- A pair with no context, in a given state. -/
def Pair.empty (st : PairSt) : Pair :=
  { st := st, failed := false, slot0 := none, slot1 := none, letcnt := 0, divcnt := 0, lastlet := .reset, group := 0
    group1 := 0, subst := none, handover := none, held := [], gated := st != .active, pred := [], predT := [] }

/-! ## Caches and memory (08) -/

/-- The states of a cache (R170). -/
inductive CacheSt where
  | off | on | disablePending
  deriving DecidableEq, Repr

/-- CACHE_PCTLp (R178). -/
structure Pctl where
  l1i : CacheSt
  l1d : CacheSt
  l2 : CacheSt
  l1iInv : Bool
  l1dInv : Bool
  l2Inv : Bool
  deriving DecidableEq, Repr

def Pctl.reset : Pctl := { l1i := .off, l1d := .off, l2 := .off, l1iInv := false, l1dInv := false, l2Inv := false }

/-- A line held by an L2 or by the L3 (R159, R163). owner: the pair of an L2, with 18 added for the L2 of copy T on a
split pair (R206); the slice in the L3. filling: sectors still to come, 0 when valid. crit: the context whose access
missed and its critical sector, until that access restarts with it. -/
structure CLine where
  owner : Nat
  line : Line
  way : Nat
  dirty : Bool
  inst : BitVec 8
  filling : BitVec 8
  crit : Option (Nat × Nat)
  deriving DecidableEq, Repr

/-- A line held by an L1 (R158): instruction or data; pair as the owner of the L2 that it lies within. -/
structure L1Line where
  pair : Nat
  code : Bool
  line : Line
  way : Nat
  deriving DecidableEq, Repr

/-- A snoop held while its line is FILLING (R164). -/
structure HeldSnoop where
  pair : Nat
  line : Line
  invalidate : Bool
  deriving DecidableEq, Repr

/-- The CACHE block and the caches' contents (R158 to R178, R402). -/
structure Caches where
  pctl : Tab Pctl
  l3st : CacheSt
  l3inv : Bool
  ctxcls0 : Word
  ctxcls1 : Word
  l2mask : Tab (BitVec 16)
  l2lock : BitVec 16
  l3lock : BitVec 32
  l2del : Tab (BitVec 32)
  l3del : Tab (BitVec 32)
  l3mask : Tab (BitVec 32)
  l1 : List L1Line
  l2 : List CLine
  l3 : List CLine
  snoops : List HeldSnoop
  poison : List Line
  deriving DecidableEq, Repr

/-- MEMC_CHSTATE values (R185). -/
inductive ChSt where
  | online | offline | rebuilding
  deriving DecidableEq, Repr

/-- The memory controller (R179 to R185). sizeGiB: MEMC_SIZE, raw GiB per channel. -/
structure Memc where
  ch : Tab ChSt
  cfg : Word
  rebuildCh : BitVec 4
  ptr : Tab Nat
  skip : Tab Nat
  sizeGiB : BitVec 16
  err : Tab (BitVec 32)
  rebuilds : Tab (List Nat)
  linkFails : Tab Nat
  deriving DecidableEq, Repr

/-! ## Queues and the bus (01) -/

/-- A fault card as it is sent (R17, R234). bound names the context of a context-bound card (R238). win: the ADDRESS of a
card of source 480 is an offset in the context register window (R55). -/
structure CardIn where
  source : Nat
  kind : BitVec 6
  sev : BitVec 2
  inst : BitVec 8
  copyLane : BitVec 6
  address : BitVec 52
  bound : Option Nat
  forced : Bool
  win : Bool
  deriving DecidableEq, Repr

/-- One credit queue (R12): credits at the producer and units the consumer holds. reserved: space that outstanding
requests have reserved in this response queue (R14). dropping: responses still to come for requests of a requester that
has been reset since, which are dropped at its boundary (R20). -/
structure Queue where
  id : QueueId
  credits : Nat
  held : Nat
  reserved : Nat
  dropping : Nat
  deriving DecidableEq, Repr

/-- An event at its producer (R215): a source, with the instance and innings of the work that caused it where a rule
gives them. -/
structure EventMsg where
  source : Nat
  work : Option (BitVec 8 × BitVec 12)
  deriving DecidableEq, Repr

/-- A control-space access at its requester (R12, R29): w bytes at an offset, a write with its value or a read, with the
instance and innings that it carries since its issue (R310, R317). -/
structure CtlAcc where
  req : Req
  inst : Nat
  innings : BitVec 12
  write : Bool
  off : Nat
  w : Nat
  v : Word
  deriving DecidableEq, Repr

/-- The last completion a requester saw (R23, R25): read data, Unsupported Request, bytes of an inbound PCIe read (R272),
or a time read (R342). -/
inductive Cpl where
  | none | data (w : Word) | unsupported | bytes (l : List Byte) | time (t : BitVec 128) (dl : Word)
  deriving DecidableEq, Repr

/-- The queues between blocks (R12): a queue that is not listed is empty. waitCards, waitEvents, waitCtl: units whose
producers hold no credit, in the order in which they were made (R15). -/
structure Bus where
  queues : List Queue
  cpl : Cpl
  waitCards : List CardIn
  waitEvents : List EventMsg
  waitCtl : List CtlAcc
  deriving DecidableEq, Repr

def Bus.reset : Bus := { queues := [], cpl := .none, waitCards := [], waitEvents := [], waitCtl := [] }

/-! ## Mailboxes and service processor (02) -/

/-- MBn_STATUS.STATE (R34). -/
inductive MbSt where
  | idle | accepted | running | partialSt | done | failed | refused
  deriving DecidableEq, Repr

/-- The command area as captured (R36), who wrote MBn_GO, and the instance that the write carried (R310, R311). -/
structure Captured where
  words : List Word
  req : Req
  inst : Nat
  deriving DecidableEq, Repr

/-- A mailbox (R31 to R35) and the work of its command. chunk: a captured chunk has not been consumed.
start: the header of the START, which names the command. buf: bytes received (R46); out: words still to deliver; step:
the command's own step number; picked: the log entries that a FAULT_LOG_READ discards at its end (R246). -/
structure Mailbox where
  cmd : Tab Word
  res : Tab Word
  phase : Bool
  st : MbSt
  code : BitVec 8
  tag : BitVec 16
  progress : BitVec 32
  owner : BitVec 3
  evtEn : Bool
  goIgnored : Bool
  cap : Option Captured
  start : Word
  order : Nat
  checked : Bool
  chunk : Bool
  lastSeen : Bool
  buf : List Byte
  out : List Word
  step : Nat
  aux : Nat
  picked : List (BitVec 32)
  deriving DecidableEq, Repr

/-- Mailbox n after a P or M reset (R32, R33). -/
def Mailbox.reset (n : Nat) : Mailbox :=
  { cmd := [], res := [], phase := false, st := .idle, code := 0, tag := 0, progress := 0
    owner := if n < 16 then 1#3 else 0#3, evtEn := false, goIgnored := false, cap := none, start := 0, order := 0
    checked := false, chunk := false, lastSeen := false, buf := [], out := [], step := 0, aux := 0, picked := [] }

/-- Firmware phases of the service processor (R37, R47, R358). -/
inductive Fw where
  | stopped | running | switching
  deriving DecidableEq, Repr

/-- A verified firmware package in the staging slot (R44). -/
structure Package where
  bytes : List Byte
  version : BitVec 32
  minimum : BitVec 16
  deriving DecidableEq, Repr

/-- The service processor (R42, R47, R360). -/
structure Sp where
  fw : Fw
  nextOrder : Nat
  staged : Option Package
  running : BitVec 32
  old : BitVec 32
  lastActivated : Option (BitVec 32)
  activateMb : Option Nat
  retried : Nat
  seqDone : Nat
  warmMb : Option Nat
  waitingCards : Nat
  deriving DecidableEq, Repr

/-! ## Event router (10) -/

/-- A delivery in a context's slot (R219 to R224). age counts ERT cycles since selection, up to 25. -/
structure Delivery where
  source : Nat
  prio : BitVec 8
  vector : BitVec 8
  hyp : Bool
  age : Nat
  arrived : Bool
  lateMask : Bool
  deriving DecidableEq, Repr

/-- An entry of a context's priority stack (R226). -/
structure StackEntry where
  source : Nat
  prio : BitVec 8
  vector : BitVec 8
  hyp : Bool
  lateMask : Bool
  deriving DecidableEq, Repr

/-- The event router (R213 to R233). mask bit 1: masked. -/
structure Ert where
  en : Bool
  msidrop : BitVec 32
  pend : BitVec 1024
  mask : BitVec 1024
  src : Tab Word
  rot : Tab Nat
  ball : BitVec 64
  slots : Tab (Option Delivery)
  prioStacks : Tab (List StackEntry)
  underflow : BitVec 32
  deriving DecidableEq, Repr

/-! ## Fault collection (11) -/

/-- An open card (R234, R240) with what its reaction has performed. blocks: CRP_BRST bits reset, 16 + p for pair p. -/
structure OpenCard where
  source : Nat
  kind : BitVec 6
  sev : BitVec 2
  inst : BitVec 8
  copyLane : BitVec 6
  address : BitVec 52
  forced : Bool
  merged : BitVec 16
  tod : BitVec 128
  mlog : List (BitVec 16)
  ovf : Bool
  action : BitVec 3
  pinDone : Bool
  keyDone : Bool
  blocks : List Nat
  deriving DecidableEq, Repr

/-- One fault-log entry (R245). -/
structure LogEntry where
  seq : BitVec 32
  words : List Word
  deriving DecidableEq, Repr

/-- The FCR (R234 to R248). inbox: cards in its queue. ordering: the MODULE card whose entry waits for the end of the
reset (R247). -/
structure Fcr where
  inbox : List CardIn
  cards : Tab (Option OpenCard)
  hold : Bool
  pulse : Bool
  mcttgt : BitVec 32
  forcecfg : Word
  react : Tab Word
  cnt : Tab (BitVec 32)
  log : List LogEntry
  nextSeq : BitVec 32
  lost : BitVec 21
  last0 : Word
  last1 : Word
  ordering : Option OpenCard
  deriving DecidableEq, Repr

/-! ## Channel subsystem and ports (12, 16 R323) -/

/-- Where an accepted SEND stands (R254, R257, R261). -/
inductive SendSt where
  | queued | onWire | rnrWait | heldBack
  deriving DecidableEq, Repr

/-- An accepted SEND (R253, R256, R261). stay: the next attempt uses the port of the last. fin: final STATUS and, times
256, REASON; mirrorAt: the record count its final update must reach (R257); left: flits of the current attempt still to
leave (R268). rebuilt: a takeover made it from its journal entry (R262, R336). -/
structure SendOp where
  s : Nat
  opb : Nat
  opid : Word
  cls : BitVec 2
  seq : BitVec 48
  buffer : Nat
  length : Nat
  crc : BitVec 32
  jindex : Nat
  inst : BitVec 8
  innings : BitVec 12
  signal : Bool
  tod : BitVec 128
  dl : Word
  attempts : Nat
  counted : Nat
  rnr : Nat
  port : Option Nat
  delayed : BitVec 32
  demoted : Bool
  stay : Bool
  fin : Nat
  st : SendSt
  mirrorAt : Nat
  left : Nat
  rebuilt : Bool
  deriving DecidableEq, Repr

/-- A posted RECEIVE (R251, R260). -/
structure RecvOp where
  s : Nat
  opb : Nat
  opid : Word
  buffer : Nat
  capacity : Nat
  inst : BitVec 8
  innings : BitVec 12
  signal : Bool
  deriving DecidableEq, Repr

/-- A message journalled ahead of a gap, or delivered but waiting for its mirroring (R257, R260). -/
structure RxMsg where
  s : Nat
  h : MsgHdr
  payload : List Byte
  jindex : Nat
  late : Bool
  tod : BitVec 128
  dl : Word
  mirrorAt : Nat
  port : Nat
  deriving DecidableEq, Repr

/-- An UNJOURNALLED entry that a later SEND may match (R262, R263). -/
structure UnjEntry where
  s : Nat
  opid : Word
  seq : BitVec 48
  jindex : Nat
  deriving DecidableEq, Repr

/-- A mirror record (R324): sectors of a line in a class of R323, a journal head, a committed checkpoint slot. -/
inductive MirRec where
  | write (cls : BitVec 2) (line : Nat) (mask : BitVec 8) (data : List Byte)
  | jhead (inst : BitVec 8) (head : BitVec 24)
  | commit (buf : Bool) (ctx : Nat)
  deriving DecidableEq, Repr

/-- Messages a port sends besides those of SENDs (R259, R262, R324, R325, R334, R338), and what it tells its link (R266). -/
inductive OutMsg where
  | ack (h : MsgHdr)
  | nak (h : MsgHdr) (r : NakReason)
  | syncReq (s : Nat)
  | syncRsp (h : MsgHdr) (rxExpect : BitVec 48) (rxMap : Word) (opids : List Word)
  | syncSkip (s : Nat) (seq : BitVec 48)
  | claim (modid : BitVec 14)
  | heartbeat (role : Bool) (modid : BitVec 14) (st : BitVec 3)
  | fenceFlit
  | relinquish
  | applied (n : Nat)
  | spareLane (lane : Nat)
  | halfWidth
  | countAsk (upTo : Nat)
  deriving DecidableEq, Repr

/-- CHAN_PORTn.STATE (R273). -/
inductive PortSt where
  | down | training | up | upHalf
  deriving DecidableEq, Repr

/-- A flit kept until it is acknowledged (R265): its header, and what a CONTROL flit carries. -/
structure ReplayEntry where
  ftype : BitVec 4
  lseq : BitVec 12
  cls : BitVec 2
  seg : BitVec 2
  ctl : Option OutMsg
  deriving DecidableEq, Repr

/-- A fabric port, or port M (R264 to R266, R323). rest: flits of the message in hand still to send.
chosen: the SEND chosen for the next window (R268). mir: mirror records still to leave, mirPart the bytes of the first one
that have left (R324). trained: training is complete, 64 good flits are awaited. last: the last flit sent. -/
structure Port where
  st : PortSt
  en : Bool
  laneFailed : BitVec 9
  spare : Bool
  txSeq : BitVec 12
  rxSeq : BitVec 12
  ackOwed : Bool
  nakOwed : Bool
  credits : List Nat
  freed : List Nat
  replay : List ReplayEntry
  replaying : List ReplayEntry
  good : Nat
  trained : Bool
  out : List OutMsg
  ctl : List OutMsg
  rest : Nat
  cur : Option OutMsg
  chosen : Option (Nat × BitVec 48)
  mir : List MirRec
  mirPart : Nat
  last : Option Flit
  replays : BitVec 32
  laneFails : BitVec 16
  losses : BitVec 16
  deriving DecidableEq, Repr

def Port.reset : Port :=
  { st := .down, en := false, laneFailed := 0, spare := false, txSeq := 0, rxSeq := 0, ackOwed := false
    nakOwed := false, credits := [0, 0, 0, 0], freed := [0, 0, 0, 0], replay := [], replaying := [], good := 0
    trained := false, out := [], ctl := [], rest := 0, cur := none, chosen := none, mir := [], mirPart := 0
    last := none, replays := 0, laneFails := 0, losses := 0 }

/-- The journal registers of an instance (R273) and its latches (R258). -/
structure Journal where
  base : Word
  cfg : Word
  head : BitVec 24
  tail : BitVec 24
  fullSeen : Bool
  deriving DecidableEq, Repr

def Journal.reset : Journal := { base := 0, cfg := 0, head := 0, tail := 0, fullSeen := false }

/-- The channel subsystem (R249 to R273). unsent: synchronisation messages that wait for a port of their subchannel to be
UP (R262). -/
structure Chan where
  en : Bool
  modid : BitVec 14
  sdtbase : Word
  cfg : Word
  clswt : Word
  seqstat : BitVec 8
  bindSub : BitVec 16
  jour : Tab Journal
  cgcnt : Tab (BitVec 32)
  sends : List SendOp
  recvs : List RecvOp
  early : List RxMsg
  rxHeld : List RxMsg
  unbinding : List Nat
  unjournalled : List UnjEntry
  unsent : List OutMsg
  vt : Tab Nat
  quiesce : Bool
  rootUp0 : Bool
  rootUp1 : Bool
  mgmtUp : Bool
  deriving DecidableEq, Repr

/-! ## Compression engines (13) -/

/-- A loaded format table (R274) with its CRC-32C. -/
structure FmtTable where
  bytes : List Byte
  crc : BitVec 32
  deriving DecidableEq, Repr

/-- What a stream context holds (R285). rec1, rec2: addresses of the last two records of the block, which recs says it has.
bits: output bits not yet forming a byte; bitOff: bit offset in the next input byte. -/
structure ZStream where
  compress : Bool
  openBlock : Bool
  table : Nat
  tableCrc : BitVec 32
  inLen : Nat
  crc : BitVec 32
  bits : List Bool
  bitOff : Nat
  rec1 : Nat
  rec2 : Nat
  recs : Nat
  partAddr : Nat
  partLen : Nat
  padTo : Nat
  deriving DecidableEq, Repr

def ZStream.fresh (compress : Bool) (table : Nat) : ZStream :=
  { compress := compress, openBlock := false, table := table, tableCrc := 0, inLen := 0, crc := 0xFFFFFFFF#32
    bits := [], bitOff := 0, rec1 := 0, rec2 := 0, recs := 0, partAddr := 0, partLen := 0, padTo := 0 }

/-- A saved context: the 512 bytes written and what they hold (log entry 16). -/
structure SavedCtx where
  bytes : List Byte
  stream : ZStream
  deriving DecidableEq, Repr

/-- A compression job (R282) and its progress. good*: progress at the last block that passed its check (R288). -/
structure ZJob where
  desc : Nat
  inst : BitVec 8
  innings : BitVec 12
  started : Bool
  compress : Bool
  flush : Bool
  signal : Bool
  table : Nat
  src : Nat
  srcLen : Nat
  dst : Nat
  dstLen : Nat
  ctxAddr : Nat
  inPos : Nat
  outPos : Nat
  goodIn : Nat
  goodOut : Nat
  earlier : Nat
  stream : ZStream
  deriving DecidableEq, Repr

/-- A compression engine (R290). queue: jobs in order of submission, over all instances. -/
structure Zip where
  en : Bool
  running : Option (BitVec 8)
  ended : BitVec 32
  tables : Tab (Option FmtTable)
  checkFail : BitVec 16
  restarts : BitVec 16
  formatErr : BitVec 16
  queue : List ZJob
  vt : Tab Nat
  deriving DecidableEq, Repr

def Zip.reset : Zip :=
  { en := false, running := none, ended := 0, tables := [], checkFail := 0, restarts := 0, formatErr := 0
    queue := [], vt := [] }

/-! ## Cipher engines and key store (14) -/

/-- A loaded key slot (R296). key: 16, 32, 32 or 64 bytes by type. -/
structure KeySlot where
  ktype : BitVec 4
  key : List Byte
  counter : Word
  kcv : BitVec 24
  deriving DecidableEq, Repr

/-- A cipher job (R301) and its progress. acc: GHASH or CMAC chaining value. -/
structure CJob where
  desc : Nat
  inst : BitVec 8
  innings : BitVec 12
  started : Bool
  mode : Nat
  signal : Bool
  ivgen : Bool
  taglen : Nat
  slot : Nat
  dublk : Nat
  src : Nat
  srcLen : Nat
  aadLen : Nat
  dst : Nat
  dunum : Nat
  ivtag : Nat
  iv : List Byte
  pos : Nat
  acc : BitVec 128
  key : KeySlot
  deriving DecidableEq, Repr

/-- The cipher engines and the key store (R291 to R308). -/
structure Ciph where
  en : BitVec 2
  ratio : BitVec 4
  alarm : BitVec 8
  alarmen : BitVec 7
  active : BitVec 8
  lanefail : BitVec 48
  laneErr : BitVec 16
  tagFail : BitVec 16
  keyInvalid : BitVec 16
  range : Tab Word
  slots : Tab (Option KeySlot)
  erasing : Bool
  queue : Tab (List CJob)
  vt : Tab Nat
  deriving DecidableEq, Repr

/-! ## Instances (15) -/

/-- INST_STATEi.PHASE (R322). -/
inductive InstPhase where
  | idle | resetting | draining | squashing
  deriving DecidableEq, Repr

/-- One instance (R309, R313, R314, R317, R322). tokens: 0 channel, 1 to 4 the engines Z0 to Z3, 5 and 6 K0 and K1. -/
structure Inst where
  present : Bool
  innings : BitVec 12
  phase : InstPhase
  weight : Word
  bktch : Word
  bktz : Word
  bktk : Word
  thrch : BitVec 32
  thrz : BitVec 32
  thrk : BitVec 32
  tokens : Tab Int
  drained : Nat
  drainMb : Option Nat
  deriving DecidableEq, Repr

/-- Instance i after a P or M reset (R322). -/
def Inst.reset (i : Nat) : Inst :=
  let priv := decide (i < 4)
  { present := priv, innings := 0, phase := .idle
    weight := if priv then 0x404040#64 else 0
    bktch := if priv then 0x10000#64 else 0
    bktz := if priv then 0xFFFFFFFF00010000#64 else 0
    bktk := if priv then 0xFFFFFFFF00010000#64 else 0
    thrch := 0, thrz := 0, thrk := 0
    tokens := if priv then [(0, 67108864), (1, 67108864), (2, 67108864), (3, 67108864), (4, 67108864), (5, 67108864),
      (6, 67108864)] else []
    drained := 0, drainMb := none }

/-- The instance manager (R309 to R322). -/
structure Insts where
  tab : Tab Inst
  ctxown : Tab (BitVec 8)
  dbgrant : Tab Word
  cggrant : Tab Word
  deriving DecidableEq, Repr

/-! ## Duplex engine (16) -/

/-- DUPX_STATE.STATE (R331). -/
inductive DupSt where
  | unbound | syncing | primary | backup | partnerLost | takingOver | solo | fenced
  deriving DecidableEq, Repr

/-- A checkpoint slot committed at the partner's word (R324, R334): context, buffer. -/
structure Commit where
  ctx : Nat
  buf : Bool
  deriving DecidableEq, Repr

/-- The duplex engine (R323 to R340). fromSolo: the bind in progress left SOLO. fromBackup: TAKING_OVER or SOLO came
from BACKUP since the last bind (R39). bindMb, takeMb: mailboxes served. sentBase: records sent before the last bind;
partnerApplied counts on from it. copied: zone lines copied by the synchronisation in progress (R332). askUpTo:
the count up to which the partner has asked for every count at once (R324). lost: a BACKUP has declared its partner lost
(R338). syncWaiters: reads of DUPX_SYNC that wait, each for a count of records. -/
structure Dup where
  st : DupSt
  role : Bool
  partner : BitVec 14
  ckptMs : BitVec 16
  onLoss : Bool
  autoTakeover : Bool
  sent : Nat
  sentBase : Nat
  partnerApplied : Nat
  appliedHere : Nat
  resolved : BitVec 32
  ckptBase : Word
  ckptMask : BitVec 32
  skipped : BitVec 16
  leftStopped : BitVec 16
  dropped : BitVec 16
  zbase : Tab Word
  zsize : Tab Word
  period : Nat
  ckptSeq : Tab Nat
  commits : List Commit
  jheads : Tab (BitVec 24)
  syncWaiters : List (Req × Nat)
  copied : Nat
  askUpTo : Nat
  lost : Bool
  fromSolo : Bool
  fromBackup : Bool
  relinquishing : Bool
  relAsked : Bool
  bindMb : Option Nat
  takeMb : Option Nat
  deriving DecidableEq, Repr

/-! ## Time and entropy (17) -/

/-- Start phases of the entropy source (R350). -/
inductive EntSt where
  | starting | ok | waitRestart | failedForGood
  deriving DecidableEq, Repr

/-- Where the health tests stand (R350): the last raw bit and the length of its run; in the adaptive window its first bit,
its bits so far, and how many of them equal the first. -/
structure Health where
  last : Bool
  run : Nat
  first : Bool
  pos : Nat
  count : Nat
  deriving DecidableEq, Repr

def Health.reset : Health := { last := false, run := 0, first := false, pos := 0, count := 0 }

/-- The working state of the DRBG (R351): Key, 32 bytes, and V, 16 bytes. -/
structure Drbg where
  key : List Byte
  v : List Byte
  deriving DecidableEq, Repr

def Drbg.reset : Drbg := { key := List.replicate 32 0#8, v := List.replicate 16 0#8 }

/-- The time-of-day unit, the entropy source and the DRBG (R341 to R353, R401). count holds the 128-bit count and the
32-bit extension below it; copy1 is its second copy, par0 and par1 the parity that each was written with (R348). prev1,
prev2: the visible count one and two TOD cycles ago, since the last step (R342). arming: writes of TIME_DLARM that take
effect at the end of the TOD cycle (R349). discLeft: ns of an accepted edge's error still to be slewed out, discFrac TOD
cycles towards the next of them (R346). seedUs: the microsecond of the last seed. slewFrac: TOD cycles towards the next ns of a slew. sinceEdge: TOD cycles since the last
accepted edge. setAtPps, steerMb: the mailbox of a TOD_SET that waits for an edge, and of a running TOD_STEER. -/
structure Time where
  count : BitVec 160
  copy1 : BitVec 160
  par0 : Bool
  par1 : Bool
  prev1 : BitVec 128
  prev2 : BitVec 128
  trim : BitVec 32
  set : Bool
  locked : Bool
  holdover : Bool
  clkfault : Bool
  ppsRej : BitVec 16
  steps : BitVec 16
  ppsWin : BitVec 8
  ppsEdge : Bool
  ppsoutEn : Bool
  disc : Bool
  capF : Word
  capS : Word
  dlbits : Word
  arming : List (Nat × BitVec 128)
  armed : Tab (Option (BitVec 128))
  dls : Tab Word
  dlf : Tab Word
  steer : BitVec 32
  steerOff : Int
  steerDone : BitVec 32
  slewing : Bool
  slewFrac : Nat
  discLeft : Int
  discFrac : Nat
  sinceEdge : Option Nat
  goodEdges : Nat
  ppsOut : Bool
  setAtPps : Option Nat
  steerMb : Option Nat
  srcOk : Bool
  drbgOk : Bool
  rct : BitVec 8
  apt : BitVec 8
  ent : EntSt
  entFails : List Nat
  health : Health
  drbg : Drbg
  seedUs : Nat
  seeded : Bool
  drbgFail : Bool
  requests : Nat
  mgmtNows : Word
  deriving DecidableEq, Repr

/-! ## Clocks, resets, power and sensors (18, 19) -/

/-- I3C_STATE[2:0] (R387). -/
inductive Boot where
  | aonOnly | waitRails | pllLock | fwStart | running | mReset
  deriving DecidableEq, Repr

/-- One sensor's value register (R373). outside: the value does not lie in its range, which it has to enter before it can
leave it (R371). -/
structure Sens where
  value : BitVec 32
  raw : BitVec 16
  valid : Bool
  thr : Word
  outside : Bool
  deriving DecidableEq, Repr

def Sens.reset : Sens := { value := 0, raw := 0, valid := false, thr := 0x800000007FFFFFFF#64, outside := true }

/-- Fuses and non-volatile records, kept through every reset (R363). -/
structure Kept where
  sealFuse : Bool
  rollback : BitVec 16
  serial : BitVec 32
  revision : BitVec 8
  vcore : BitVec 6
  fenced : List Nat
  failedPairs : List Nat
  l2del : Tab (BitVec 32)
  l3del : Tab (BitVec 32)
  curves : Tab (Option (List (BitVec 16 × BitVec 32)))
  flashSlot : Nat
  deriving DecidableEq, Repr

/-- Clock and reset generation, power management, sensors, I3C target (R354 to R373, R387). us: microseconds passed. -/
structure Crp where
  boot : Boot
  vstby : Bool
  railsLow : BitVec 6
  nresetLow : Bool
  thermTrip : Bool
  pll : BitVec 6
  cause : BitVec 3
  resets : BitVec 32
  brstat : BitVec 9
  auto : BitVec 18
  delay : BitVec 16
  notify : Bool
  sens : Tab Sens
  sensTrip : BitVec 32
  i3cAddr : Option (BitVec 7)
  i3cIbi : Option (BitVec 8)
  us : Nat
  kept : Kept
  deriving DecidableEq, Repr

/-! ## Audit and debug (20) -/

/-- One measurement-log entry, 64 bytes (R390). -/
structure MeasEntry where
  bytes : List Byte
  deriving DecidableEq, Repr

/-- A breakpoint (R400). -/
structure Bp where
  addr : Word
  ctl : Word
  deriving DecidableEq, Repr

/-- The audit unit, the debug registers and the JTAG port (R388 to R400). -/
structure Aud where
  mr : Tab (List Byte)
  log : List MeasEntry
  nextSeq : BitVec 32
  dropped : BitVec 32
  sealed : Bool
  overflow : Bool
  debugUsed : Bool
  dbgEnSeen : Bool
  dbgEn : Bool
  halt : BitVec 32
  bps : Tab Bp
  ir : JtagIr
  csData : Word
  csDone : Bool
  csaccSeen : Bool
  deriving DecidableEq, Repr

/-! ## The whole module -/

/-- The state of the module. mem: bytes of physical memory in canonical form (addresses strictly rising, no zero byte
listed). free: free values drawn so far. pending: commands waiting, first in first out. -/
structure State where
  ctxs : Tab Ctx
  pairs : Tab Pair
  caches : Caches
  memc : Memc
  mem : List Host.Cell
  bus : Bus
  mbs : Tab Mailbox
  sp : Sp
  ert : Ert
  fcr : Fcr
  chan : Chan
  ports : Tab Port
  zips : Tab Zip
  zctx : List SavedCtx
  ciph : Ciph
  insts : Insts
  dup : Dup
  time : Time
  crp : Crp
  aud : Aud
  free : Nat
  pending : List Instr
  deriving DecidableEq, Repr

/-! ## Reset values -/

def Caches.reset : Caches :=
  { pctl := [], l3st := .off, l3inv := false, ctxcls0 := 0, ctxcls1 := 0, l2mask := [], l2lock := 0, l3lock := 0
    l2del := [], l3del := [], l3mask := [], l1 := [], l2 := [], l3 := [], snoops := [], poison := [] }

def Memc.reset : Memc :=
  { ch := [], cfg := 0x41804#64, rebuildCh := 0, ptr := [], skip := [], sizeGiB := 64#16, err := [], rebuilds := []
    linkFails := [] }

def Sp.reset : Sp :=
  { fw := .stopped, nextOrder := 0, staged := none, running := 0, old := 0, lastActivated := none, activateMb := none
    retried := 0, seqDone := 0, warmMb := none, waitingCards := 0 }

def Ert.reset : Ert :=
  { en := false, msidrop := 0, pend := 0, mask := BitVec.allOnes 1024, src := [], rot := [], ball := 0, slots := []
    prioStacks := [], underflow := 0 }

def Fcr.reset : Fcr :=
  { inbox := [], cards := [], hold := false, pulse := false, mcttgt := 1#32, forcecfg := 0, react := [], cnt := [], log := []
    nextSeq := 0, lost := 0, last0 := 0, last1 := 0, ordering := none }

def Chan.reset : Chan :=
  { en := false, modid := 0, sdtbase := 0, cfg := 0x03E8640004000014#64, clswt := 0x01020408#64, seqstat := 0
    bindSub := 0, jour := [], cgcnt := [], sends := [], recvs := [], early := [], rxHeld := [], unbinding := []
    unjournalled := [], unsent := [], vt := [], quiesce := false, rootUp0 := false, rootUp1 := false, mgmtUp := true }

def Ciph.reset : Ciph :=
  { en := 0, ratio := 2#4, alarm := 0, alarmen := 0x7F#7, active := 0, lanefail := 0, laneErr := 0, tagFail := 0
    keyInvalid := 0, range := [], slots := [], erasing := false, queue := [], vt := [] }

def Insts.reset : Insts := { tab := [], ctxown := [], dbgrant := [], cggrant := [] }

def Dup.reset : Dup :=
  { st := .unbound, role := false, partner := 0, ckptMs := 10#16, onLoss := false, autoTakeover := false, sent := 0
    sentBase := 0, partnerApplied := 0, appliedHere := 0, resolved := 0, ckptBase := 0, ckptMask := 0, skipped := 0, leftStopped := 0
    dropped := 0, zbase := [], zsize := [], period := 1000, ckptSeq := [], commits := [], jheads := []
    syncWaiters := [], copied := 0, askUpTo := 0, lost := false, fromSolo := false, fromBackup := false, relinquishing := false, relAsked := false
    bindMb := none, takeMb := none }

def Time.reset : Time :=
  { count := 0, copy1 := 0, par0 := false, par1 := false, prev1 := 0, prev2 := 0, arming := [], discLeft := 0, discFrac := 0
    health := .reset, drbg := .reset, seedUs := 0, trim := 0, set := false, locked := false, holdover := false, clkfault := false, ppsRej := 0, steps := 0
    ppsWin := 0x0A#8, ppsEdge := false, ppsoutEn := false, disc := false, capF := 0, capS := 0, dlbits := 0, armed := []
    dls := [], dlf := [], steer := 0, steerOff := 0, steerDone := 0, slewing := false, slewFrac := 0, sinceEdge := none
    goodEdges := 0, ppsOut := false, setAtPps := none, steerMb := none, srcOk := false, drbgOk := false, rct := 0
    apt := 0, ent := .starting, entFails := [], seeded := false, drbgFail := false, requests := 0, mgmtNows := 0 }

def Kept.factory : Kept :=
  { sealFuse := false, rollback := 0, serial := 0, revision := 0, vcore := 0, fenced := [], failedPairs := []
    l2del := [], l3del := [], curves := [], flashSlot := 0 }

def Crp.reset : Crp :=
  { boot := .aonOnly, vstby := true, railsLow := 0, nresetLow := false, thermTrip := false, pll := 0, cause := 0
    resets := 0, brstat := 0, auto := 0, delay := 0x03E8#16, notify := false, sens := [], sensTrip := 0, i3cAddr := none
    i3cIbi := none, us := 0, kept := .factory }

def Aud.reset : Aud :=
  { mr := [], log := [], nextSeq := 0, dropped := 0, sealed := false, overflow := false, debugUsed := false
    dbgEnSeen := false, dbgEn := false, halt := 0, bps := [], ir := .idcode, csData := 0, csDone := false
    csaccSeen := false }

/-- Pair p on a module with no fenced pair (R203, R211): contexts 2p and 2p + 1 for p below 16, else on the bench. -/
def Pair.fresh (p : Nat) : Pair :=
  if p < 16 then { Pair.empty .active with slot0 := some (2 * p), slot1 := some (2 * p + 1) } else Pair.empty .bench

/-- The module right after a power-on reset: VSTBY valid, the AON domain running, every other domain held (R358 step 1).
Nothing has booted: POWER_ON runs the rest of the sequence (log entry 2). -/
def State.reset : State :=
  { ctxs := [], pairs := (List.range 18).map fun p => (p, Pair.fresh p)
    caches := .reset, memc := .reset, mem := [], bus := .reset, mbs := [], sp := .reset
    ert := .reset, fcr := .reset, chan := .reset, ports := [], zips := [], zctx := [], ciph := .reset
    insts := .reset, dup := .reset, time := .reset, crp := .reset, aud := .reset, free := 0, pending := [] }

end Sys2Proof.Machine
end

