-- ==== Sys2Proof/Machine/Ops.lean ====
section
/-! DEFINITION. Named operations over fields, tables, memory and registers, which every meaning uses. -/
namespace Sys2Proof.Machine

/-- The outcome of a command. -/
abbrev Res := Host.Outcome State Fault Refusal

/-! ## Bit fields -/

/-- Bits [hi:lo] of a register as a number. -/
def fld {n : Nat} (w : BitVec n) (hi lo : Nat) : Nat := (w.toNat >>> lo) % 2 ^ (hi + 1 - lo)

/-- Bit i of a register. -/
def bitOf {n : Nat} (w : BitVec n) (i : Nat) : Bool := w.getLsbD i

/-- A register with bits [hi:lo] replaced. -/
def setFld {n : Nat} (w : BitVec n) (hi lo v : Nat) : BitVec n :=
  let m := (2 ^ (hi + 1 - lo) - 1) <<< lo
  (w &&& ~~~(BitVec.ofNat n m)) ||| (BitVec.ofNat n (v <<< lo) &&& BitVec.ofNat n m)

/-- A register with bit i replaced. -/
def setBit {n : Nat} (w : BitVec n) (i : Nat) (b : Bool) : BitVec n :=
  if b then w ||| BitVec.ofNat n (2 ^ i) else w &&& ~~~(BitVec.ofNat n (2 ^ i))

/-- A truth value as a number. -/
def b2n (b : Bool) : Nat := if b then 1 else 0

/-- A number as a 64-bit register. -/
def w64 (n : Nat) : Word := BitVec.ofNat 64 n

/-- An increment that stays at the largest value. -/
def satInc {n : Nat} (w : BitVec n) : BitVec n := if w = BitVec.allOnes n then w else w + 1

/-- An addition that stays at the largest value. -/
def satAdd {n : Nat} (w : BitVec n) (k : Nat) : BitVec n :=
  if w.toNat + k < 2 ^ n then BitVec.ofNat n (w.toNat + k) else BitVec.allOnes n

/-- Two's-complement value of the low n bits of a number. -/
def signedOf (n v : Nat) : Int := if v % 2 ^ n < 2 ^ (n - 1) then (v % 2 ^ n : Nat) else (v % 2 ^ n : Nat) - (2 ^ n : Nat)

/-- The low n bits of an integer. -/
def lowBits (n : Nat) (i : Int) : Nat := (i % (2 ^ n : Nat)).toNat

/-- Addresses are modulo 2^64 (R62). -/
def wrap64 (n : Nat) : Nat := n % 2 ^ 64

/-! ## Tables -/

/-- The entry of a number, or the default. -/
def Tab.get {α : Type} (t : Tab α) (k : Nat) (d : α) : α :=
  match t with
  | [] => d
  | (j, v) :: r => if j = k then v else Tab.get r k d

/-- A table with one entry replaced. -/
def Tab.set {α : Type} (t : Tab α) (k : Nat) (v : α) : Tab α :=
  match t with
  | [] => [(k, v)]
  | (j, w) :: r => if j = k then (k, v) :: r else if k < j then (k, v) :: (j, w) :: r else (j, w) :: Tab.set r k v

/-! ## Physical memory -/

/-- What a byte that nothing has written reads as (log entry 1). -/
def Memory.blank : Byte := 0#8

/-- One byte of memory. -/
def Memory.read (m : List Host.Cell) (a : Nat) : Byte :=
  match m with
  | [] => Memory.blank
  | (j, v) :: r => if j = a then v else Memory.read r a

/-- Memory with one byte written, in canonical form. -/
def Memory.write (m : List Host.Cell) (a : Nat) (b : Byte) : List Host.Cell :=
  match m with
  | [] => if b = Memory.blank then [] else [(a, b)]
  | (j, v) :: r =>
    if j = a then (if b = Memory.blank then r else (a, b) :: r)
    else if a < j then (if b = Memory.blank then (j, v) :: r else (a, b) :: (j, v) :: r)
    else (j, v) :: Memory.write r a b

/-- The canonical form: addresses strictly rising, no blank byte listed. -/
abbrev Memory.wf (m : List Host.Cell) : Prop :=
  m.Pairwise (fun p q => p.1 < q.1) ∧ ∀ p ∈ m, p.2 ≠ Memory.blank

/-- Bytes from an address upwards. -/
def Memory.bytes (m : List Host.Cell) (a : Nat) : Nat → List Byte
  | 0 => []
  | n + 1 => Memory.read m a :: Memory.bytes m (a + 1) n

/-- Memory with bytes written from an address upwards. -/
def Memory.writes (m : List Host.Cell) (a : Nat) : List Byte → List Host.Cell
  | [] => m
  | b :: bs => Memory.writes (Memory.write m a b) (a + 1) bs

/-- A little-endian number from bytes. -/
def leNat : List Byte → Nat
  | [] => 0
  | b :: bs => b.toNat + 256 * leNat bs

/-- A big-endian number from bytes. -/
def beNat (l : List Byte) : Nat := l.foldl (fun a b => a * 256 + b.toNat) 0

/-- n little-endian bytes of a number. -/
def leBytes : Nat → Nat → List Byte
  | 0, _ => []
  | n + 1, v => BitVec.ofNat 8 v :: leBytes n (v / 256)

/-- n big-endian bytes of a number. -/
def beBytes (n v : Nat) : List Byte := (leBytes n v).reverse

/-- Bytes of 64-bit words, little-endian, in order. -/
def wordsBytes (l : List Word) : List Byte := l.flatMap fun w => leBytes 8 w.toNat

/-- 64-bit little-endian words from bytes (structural on fuel). -/
def bytesWords : Nat → List Byte → List Word
  | 0, _ => []
  | _, [] => []
  | f + 1, l => w64 (leNat (l.take 8)) :: bytesWords f (l.drop 8)

/-- A 64-bit word of memory. -/
def Memory.word (m : List Host.Cell) (a : Nat) : Word := w64 (leNat (Memory.bytes m a 8))

namespace State

/-- Bytes of usable memory: 11/12 of twelve channels (R179). -/
def usable (s : State) : Nat := s.memc.sizeGiB.toNat * 11 * 2 ^ 30

/-- The bytes a .. a + n - 1 lie in usable memory. -/
def inMemory (s : State) (a n : Nat) : Bool := decide (a + n ≤ s.usable)

/-- The module is out of reset and its domains run (R358, R378). -/
def live (s : State) : Bool := decide (s.crp.boot = .running)

/-! ## Access to parts -/

def ctx (s : State) (c : Nat) : Ctx := s.ctxs.get c .reset
def setCtx (s : State) (c : Nat) (x : Ctx) : State := { s with ctxs := s.ctxs.set c x }
def pair (s : State) (p : Nat) : Pair := s.pairs.get p (.empty .bench)
def setPair (s : State) (p : Nat) (x : Pair) : State := { s with pairs := s.pairs.set p x }
def mb (s : State) (n : Nat) : Mailbox := s.mbs.get n (.reset n)
def setMb (s : State) (n : Nat) (x : Mailbox) : State := { s with mbs := s.mbs.set n x }
def port (s : State) (n : Nat) : Port := s.ports.get n .reset
def setPort (s : State) (n : Nat) (x : Port) : State := { s with ports := s.ports.set n x }
def zip (s : State) (n : Nat) : Zip := s.zips.get n .reset
def setZip (s : State) (n : Nat) (x : Zip) : State := { s with zips := s.zips.set n x }
def inst (s : State) (i : Nat) : Inst := s.insts.tab.get i (.reset i)
def setInst (s : State) (i : Nat) (x : Inst) : State := { s with insts := { s.insts with tab := s.insts.tab.set i x } }
def jour (s : State) (i : Nat) : Journal := s.chan.jour.get i .reset
def setJour (s : State) (i : Nat) (x : Journal) : State := { s with chan := { s.chan with jour := s.chan.jour.set i x } }
def sens (s : State) (i : Nat) : Sens := s.crp.sens.get i .reset
def setSens (s : State) (i : Nat) (x : Sens) : State := { s with crp := { s.crp with sens := s.crp.sens.set i x } }
def pctl (s : State) (p : Nat) : Pctl := s.caches.pctl.get p .reset
def setPctl (s : State) (p : Nat) (x : Pctl) : State :=
  { s with caches := { s.caches with pctl := s.caches.pctl.set p x } }
def chst (s : State) (n : Nat) : ChSt := s.memc.ch.get n .online

/-- The instance that owns a context (R310). -/
def owner (s : State) (c : Nat) : Nat := (s.insts.ctxown.get c 0#8).toNat

/-- The current innings of an instance (R317). -/
def inningsOf (s : State) (i : Nat) : BitVec 12 := (s.inst i).innings

/-- New work of an instance is refused while its reset drains or squashes what it has (R321). -/
def refusesWork (s : State) (i : Nat) : Bool :=
  decide ((s.inst i).phase = .draining) || decide ((s.inst i).phase = .squashing)

/-- The visible 128-bit count (R341). -/
def tod (s : State) : BitVec 128 := s.time.count.extractLsb' 32 128

/-- The fraction of the count (R401). -/
def todF (s : State) : Word := s.tod.extractLsb' 0 64

/-- The seconds of the count (R401). -/
def todS (s : State) : Word := s.tod.extractLsb' 64 64

/-- The number of the next free value, and the state that has drawn it (log entry 6). -/
def drawn (s : State) : State := { s with free := s.free + 1 }

end State

/-- Fraction and seconds of a count (R401). -/
def todWords (t : BitVec 128) : List Word := [t.extractLsb' 0 64, t.extractLsb' 64 64]

/-! ## Requesters -/

/-- The instance a requester's access carries (R236, R311, R399). -/
def reqInst (s : State) (r : Req) : Nat :=
  match r with
  | .ctx c => s.owner c
  | .mgmt => 0
  | .jtag => 2

/-- Instances 0 to 3 and the management link (R27). -/
def reqPriv (s : State) (r : Req) : Bool :=
  match r with
  | .mgmt => true
  | .jtag => true
  | .ctx c => decide (s.owner c < 4)

/-! ## Fault cards -/

/-- Severity of each kind of each source (R235, R236); none for a source or kind that R236 does not list. -/
def severity (source kind : Nat) : Option Nat :=
  if source < 18 then
    (if kind = 5 ∨ kind = 6 then some 3 else if kind = 8 then some 2 else if 1 ≤ kind ∧ kind ≤ 7 then some 1 else none)
  else if source < 36 then (if kind = 1 then some 3 else none)
  else if source < 40 then none
  else if source < 58 then (if kind = 1 then some 1 else none)
  else if source < 64 then none
  else if source < 82 then
    [none, some 1, some 0, some 1, some 1, some 2, some 3].getD kind none
  else if source < 96 then none
  else if source < 112 then [none, none, some 0, some 1, none, some 2].getD kind none
  else if source < 128 then none
  else if source < 140 then [none, none, some 0, some 1, some 1, some 2, none, some 2, some 2].getD kind none
  else if source = 140 then [none, some 0, some 1].getD kind none
  else if source = 144 then [none, some 0, some 1, some 1].getD kind none
  else if 160 ≤ source ∧ source ≤ 164 then [none, some 0, some 1, some 2, some 2].getD kind none
  else if source = 165 ∨ source = 166 then [none, some 0, some 2, some 3].getD kind none
  else if source = 167 then [none, some 0, some 2].getD kind none
  else if source = 176 then [none, some 1, some 2, some 1, some 2].getD kind none
  else if 300 ≤ source ∧ source ≤ 303 then [none, some 2, some 1].getD kind none
  else if source = 304 ∨ source = 305 then [none, some 1, some 2].getD kind none
  else if source = 306 then [none, some 0, some 1, some 3].getD kind none
  else if source = 307 then [none, some 1].getD kind none
  else if source = 308 then [none, some 2, some 2].getD kind none
  else if source = 310 then [none, some 2, some 1, some 3].getD kind none
  else if source = 311 ∨ source = 312 then [none, some 2].getD kind none
  else if source = 320 then [none, some 2, some 0, some 2].getD kind none
  else if source = 321 then [none, some 2].getD kind none
  else if source = 330 then [none, some 3].getD kind none
  else if source = 331 ∨ source = 332 then [none, some 2].getD kind none
  else if source = 333 then [none, some 0, some 1].getD kind none
  else if source = 334 then [none, some 0, some 2].getD kind none
  else if source = 480 ∧ 0x0A ≤ kind ∧ kind ≤ 0x0E then some 1
  else none

/-- The row of R236 gives COPY_LANE a meaning. -/
def laneMeant (source : Nat) : Bool :=
  decide (source < 36) || (decide (64 ≤ source) && decide (source < 82)) || decide (source = 144) ||
    (decide (160 ≤ source) && decide (source ≤ 164)) || decide (source = 304) || decide (source = 305) ||
    (decide (330 ≤ source) && decide (source ≤ 332))

/-- The row of R236 gives ADDRESS a meaning. -/
def addrMeant (source kind : Nat) : Bool :=
  if source < 18 then decide (kind = 7) || decide (kind = 8)
  else if 128 ≤ source ∧ source < 140 then decide (kind ≠ 7) && decide (kind ≠ 8)
  else if source = 320 then decide (kind = 1)
  else
    decide (source < 36) || (decide (64 ≤ source) && decide (source < 82)) || (decide (96 ≤ source) && decide (source < 112)) ||
      [165, 166, 176, 300, 301, 302, 303, 304, 305, 306, 308, 334, 480].contains source

/-- A card as its block writes it (R234): every field that its row leaves undefined is 0. -/
def CardIn.listed (c : CardIn) : CardIn :=
  { c with copyLane := if laneMeant c.source then c.copyLane else 0
           address := if addrMeant c.source c.kind.toNat then c.address else 0 }

/-! ### Credits (01)

Blocks are numbered for their queues (log entry 19): 0 to 17 the pairs, then in order L3 and cache control, the memory
controller, the rings, the fabric ports, the duplex engine with port M, the root ports, the management link, the channel
subsystem, Z0 to Z3, the cipher engines, the instance manager, the time-of-day unit, the service processor, the audit
unit, clocks with resets and power, the event router, the FCR, the sensors, debug, and 40 for offsets of no block. -/

/-- The block of R24 that a control-space offset lies in. -/
def ctlBlock (off : Nat) : Nat :=
  let m := off / 0x100000
  let k := off / 0x10000 % 256
  if off < 0x10000 then 33
  else if m = 1 then 36
  else if m = 2 then 37
  else if off / 0x1000000 = 1 ∧ k < 18 then k
  else if off / 0x1000000 = 2 then 18
  else if off / 0x1000000 = 3 then 19
  else if off / 0x1000000 = 4 then 25
  else if off / 0x1000000 = 5 ∧ k < 4 then 26 + k
  else if off / 0x1000000 = 6 then 30
  else if off / 0x1000000 = 7 then 31
  else if off / 0x1000000 = 8 then 22
  else if off / 0x1000000 = 9 then 32
  else if off / 0x1000000 = 10 then 35
  else if off / 0x1000000 = 11 then 38
  else if off / 0x1000000 = 12 then 34
  else if off / 0x1000000 = 15 then 39
  else 40

/-- The block that sends a card (R236). -/
def CardIn.block (c : CardIn) : Nat :=
  let n := c.source
  if n < 18 then n
  else if n < 36 then n - 18
  else if n < 58 then n - 40
  else if n < 82 then n - 64
  else if n < 112 then 18
  else if n < 141 then 19
  else if n < 145 then 20
  else if n < 164 then 21
  else if n = 164 ∨ n = 308 then 22
  else if n < 167 then 23
  else if n < 168 then 24
  else if n < 300 then 25
  else if n < 304 then n - 274
  else if n < 307 then 30
  else if n < 308 then 31
  else if n < 313 then 32
  else if n < 321 then 33
  else if n < 322 then 34
  else if n < 332 then 35
  else if n < 333 then 38
  else if n < 334 then 36
  else if n < 480 then 37
  else if c.win then 40
  else ctlBlock c.address.toNat

/-- The block that sends an event (R213). -/
def eventBlock (n : Nat) : Nat :=
  if n < 128 then 33
  else if n < 261 then 32
  else if n < 268 then 37
  else if n < 272 then n - 242
  else if n < 275 then 30
  else if n < 276 then 31
  else if n < 280 then 22
  else if n < 284 then 21
  else if n < 285 then 22
  else if n < 287 then 23
  else if n < 288 then 19
  else if n < 306 then n - 288
  else if n < 307 then 38
  else if n < 308 then 35
  else if n < 309 then 34
  else if n < 512 then 25
  else if n < 768 then 23
  else 25

/-- The producer of a queue holds no credit (R12): a queue that is not listed is empty, and its producer's count full. -/
def noCredit (s : State) (cls : QClass) (producer consumer : Nat) : Bool :=
  s.bus.queues.any fun q => decide (q.id = { cls := cls, producer := producer, consumer := consumer }) && decide (q.credits = 0)

/-- A card waits at its block (R12, R15): no credit, or an older card of the block waits. -/
def cardWaits (s : State) (b : Nat) : Bool :=
  noCredit s .faultCard b 0 || s.bus.waitCards.any fun c => decide (c.block = b)

/-- Put a card in the fault-card queue (R12, R17); without a credit it waits at its block. -/
def sendCard (s : State) (c : CardIn) : State :=
  if cardWaits s c.block then { s with bus := { s.bus with waitCards := s.bus.waitCards ++ [c] } }
  else { s with fcr := { s.fcr with inbox := s.fcr.inbox ++ [c] } }

/-- Send a card of a source and kind of R236. -/
def card (s : State) (source kind inst lane addr : Nat) : State :=
  sendCard s { source := source, kind := BitVec.ofNat 6 kind, sev := BitVec.ofNat 2 ((severity source kind).getD 0)
               inst := BitVec.ofNat 8 inst, copyLane := BitVec.ofNat 6 lane, address := BitVec.ofNat 52 addr
               bound := none, forced := false, win := false }

/-- Send a context-bound card (R238). -/
def boundCard (s : State) (p c inst lane line : Nat) : State :=
  sendCard s { source := 64 + p, kind := 6, sev := 3, inst := BitVec.ofNat 8 inst, copyLane := BitVec.ofNat 6 lane
               address := BitVec.ofNat 52 (line * 128), bound := some c, forced := false, win := false }

/-! ## Pairs and contexts -/

/-- The pairs in order. -/
def pairNums : List Nat := List.range 18

/-- The contexts in order. -/
def ctxNums : List Nat := List.range 32

/-- The pair and slot (false = 0) that carry a context (R211). -/
def placeOf (s : State) (c : Nat) : Option (Nat × Bool) :=
  pairNums.findSome? fun p =>
    if (s.pair p).slot0 = some c then some (p, false) else if (s.pair p).slot1 = some c then some (p, true) else none

/-- The context in a slot of a pair. -/
def slotCtx (s : State) (p : Nat) (slot : Bool) : Option Nat := if slot then (s.pair p).slot1 else (s.pair p).slot0

/-- The contexts in the slots of a pair. -/
def pairCtxs (s : State) (p : Nat) : List Nat := (s.pair p).slot0.toList ++ (s.pair p).slot1.toList

/-- The number of the pair that carries a context; 18 for an unplaced context. -/
def pairOf (s : State) (c : Nat) : Nat := ((placeOf s c).map (·.1)).getD 18

/-- The slot number of a context, 0 when it is not placed. -/
def slotOf (s : State) (c : Nat) : Nat := ((placeOf s c).map fun q => b2n q.2).getD 0

/-- A context executes units: it is in RUN, placed, past its reset entry, not held, and its pair is not gated
(R211, R202, R206, R366, R398). -/
def runnable (s : State) (c : Nat) : Bool :=
  let x := s.ctx c
  match placeOf s c with
  | none => false
  | some (p, _) =>
    let q := s.pair p
    decide (x.run = .run) && !x.entering && !x.dbgHalted && !q.gated &&
      (decide (q.st = .active) || decide (q.st = .split))

/-- A context is ineligible for a delivery through a reset, STOPPED or a hand-over (R219, R223); a substitution holds
deliveries too but does not withdraw them. -/
def heldBack (s : State) (c : Nat) : Bool :=
  match placeOf s c with
  | none => true
  | some (p, _) => decide ((s.ctx c).run = .stopped) || (s.ctx c).entering || decide ((s.pair p).st = .handover)

/-- MODE of a context (R51): 0 user, 1 supervisor, 3 hypervisor. -/
def Ctx.mode (x : Ctx) : Nat := fld x.ps 13 12

/-- The bank S names (R50). -/
def Ctx.s (x : Ctx) : Word := if x.mode = 0 then x.su else if x.mode = 1 then x.ss else x.sh

/-- A context with the bank of its mode replaced (R50). -/
def Ctx.setS (x : Ctx) (v : Word) : Ctx :=
  if x.mode = 0 then { x with su := v } else if x.mode = 1 then { x with ss := v } else { x with sh := v }

/-- A wake source takes a context out of NAP and its WAIT completes with WK = 0 (R364); the latch that a write to
CRP_CTXWAKE has set is sampled by the WAIT that it completes (log entry 17). -/
def Ctx.wake (x : Ctx) : Ctx :=
  if x.run = .nap then
    { x with run := .run, pc := x.pc + w64 x.waitLen, ps := setBit x.ps 16 false, wakeLatch := false }
  else x

/-- Wake a context unless its pair is in GATE, which GATE_EXIT leaves first (R367). -/
def wakeCtx (s : State) (c : Nat) : State :=
  match placeOf s c with
  | some (p, _) => if (s.pair p).gated then s else s.setCtx c (s.ctx c).wake
  | none => s

/-! ## Mirror zones -/

/-- A line lies in an enabled mirror zone (R326). -/
def inZone (s : State) (line : Nat) : Bool :=
  (List.range 64).any fun z =>
    let b := s.dup.zbase.get z 0
    let base := fld b 51 16 * 2 ^ 16
    let size := fld (s.dup.zsize.get z 0) 51 16 * 2 ^ 16
    bitOf b 0 && decide (base ≤ line * 128) && decide (line * 128 < base + size)

/-- The module mirrors its zone writes (R326). -/
def mirroring (s : State) : Bool :=
  decide (s.dup.st = .primary) || decide (s.dup.st = .syncing) || decide (s.dup.st = .partnerLost)

/-- The lines that n bytes at an address touch. -/
def linesOf (a n : Nat) : List Nat :=
  if n = 0 then [] else (List.range ((a + n - 1) / 128 - a / 128 + 1)).map (· + a / 128)

/-- The sectors of a line that n bytes at an address touch. -/
def sectorMask (a n ln : Nat) : BitVec 8 :=
  (List.range 8).foldl (fun m j =>
    if a < ln * 128 + 16 * (j + 1) ∧ ln * 128 + 16 * j < a + n then setBit m j true else m) 0

/-- The bytes of the sectors of a mask, in ascending order (R324). -/
def sectorBytes (m : List Host.Cell) (ln : Nat) (mask : BitVec 8) : List Byte :=
  ((List.range 8).filter fun j => bitOf mask j).flatMap fun j => Memory.bytes m (ln * 128 + 16 * j) 16

/-- Records leave for port M in order and are counted (R324, R340). -/
def sendRecords (s : State) (l : List MirRec) : State :=
  if mirroring s && !l.isEmpty then
    { s.setPort 4 { s.port 4 with mir := (s.port 4).mir ++ l } with dup := { s.dup with sent := s.dup.sent + l.length } }
  else s

/-- The WRITE record of the sectors of a line that n bytes at an address touch. -/
def writeRecord (m : List Host.Cell) (cls : BitVec 2) (a n ln : Nat) : MirRec :=
  .write cls ln (sectorMask a n ln) (sectorBytes m ln (sectorMask a n ln))

/-- The WRITE records of a write to memory, one for each zone line (R324, R326). -/
def mirrorWrites (s : State) (cls : BitVec 2) (a n : Nat) : State :=
  sendRecords s (((linesOf a n).filter (inZone s)).map (writeRecord s.mem cls a n))

/-- Bytes written to memory, and mirrored in a class where a zone covers them (R323, R326). -/
def State.storeIn (s : State) (cls : BitVec 2) (a : Nat) (l : List Byte) : State :=
  mirrorWrites { s with mem := Memory.writes s.mem a l } cls a l.length

/-- Bytes written to memory, and mirrored as zone writes where a zone covers them (R326). -/
def State.store (s : State) (a : Nat) (l : List Byte) : State := s.storeIn 2 a l

/-- Lines that a write of l at a covers whole lose their poison (R402). -/
def unpoison (s : State) (a n : Nat) : State :=
  { s with caches := { s.caches with
      poison := s.caches.poison.filter fun ln => !(decide (a ≤ ln * 128) && decide (ln * 128 + 128 ≤ a + n)) } }

/-- Poison a line (R402). -/
def addPoison (s : State) (ln : Nat) : State :=
  if ln ∈ s.caches.poison then s else { s with caches := { s.caches with poison := ln :: s.caches.poison } }

/-- Some line of the bytes is poisoned. -/
def poisoned (s : State) (a n : Nat) : Bool := (linesOf a n).any fun ln => decide (ln ∈ s.caches.poison)

end Sys2Proof.Machine
end

