-- ==== Sys2Proof/Machine/AuditOps.lean ====
section
/-! DEFINITION. Measurement of events by the audit unit (R389 to R392) and entry into SEALED (R395). -/
namespace Sys2Proof.Machine

/-- Measurement register k, 48 bytes (R389). -/
def mrOf (s : State) (k : Nat) : List Byte := s.aud.mr.get k (List.replicate 48 0#8)

/-- The 64 bytes of a log entry (R390). -/
def measBytes (seq : BitVec 32) (detail kind mr : Nat) (secs : Word) (digest : List Byte) : List Byte :=
  leBytes 8 (seq.toNat * 2 ^ 32 + (detail % 65536) * 2 ^ 16 + kind * 256 + mr) ++ leBytes 8 secs.toNat ++ digest

/-- The audit unit measures an event (R389, R392). -/
def measure (s : State) (kind mr detail : Nat) (digest : List Byte) : State :=
  let e := measBytes s.aud.nextSeq detail kind mr s.todS digest
  let full := decide (2048 ≤ s.aud.log.length)
  { s with aud := { s.aud with
      mr := s.aud.mr.set mr (sha384 (mrOf s mr ++ e))
      log := if full then s.aud.log else s.aud.log ++ [{ bytes := e }]
      nextSeq := if full then s.aud.nextSeq else s.aud.nextSeq + 1
      dropped := if full then s.aud.dropped + 1 else s.aud.dropped
      overflow := s.aud.overflow || full } }

/-- SHA-384 of 48 zero bytes, the digest of kinds 0Bh to 0Dh (R391). -/
def zeroDigest : List Byte := sha384 (List.replicate 48 0#8)

/-- Bytes given by a numbered function. -/
def bytesOf (f : Nat → Byte) (n : Nat) : List Byte := (List.range n).map f

/-- A context halted by debug goes on at its PC (R398). -/
def Ctx.unhalt (x : Ctx) : Ctx := if x.dbgHalted then { x with run := .run, dbgHalted := false } else x

/-- Enter SEALED (R395): KIND 0Bh first, then every DBG register returns to its reset value and halted contexts go on. -/
def enterSealed (s : State) (byFuse : Bool) : State :=
  if s.aud.sealed then s else
  let s := measure s 0x0B 3 (b2n byFuse) zeroDigest
  let s := { s with aud := { s.aud with sealed := true, dbgEn := false, halt := 0, bps := [] } }
  { s with ctxs := s.ctxs.map fun p => (p.1, p.2.unhalt) }

end Sys2Proof.Machine
end

