-- ==== Sys2Proof/Machine/CacheOps.lean ====
section
/-! DEFINITION. What lines the caches hold and how lines move between them (08). The bytes themselves stand once, in
State.mem; a cache holds presence, way and dirtiness (log entry 12). -/
namespace Sys2Proof.Machine

/-- The home slice of a line (R11). -/
def homeSlice (line : Nat) : Nat :=
  let g := (List.range 11).foldl (fun a i => a ^^^ ((line >>> (4 * i)) % 16)) 0
  if line.testBit 44 then g ^^^ 1 else g

/-- Replace the cache block. -/
def setCaches (s : State) (c : Caches) : State := { s with caches := c }

/-- Some L2 or the L3 holds the line dirty. -/
def dirtyAnywhere (s : State) (line : Nat) : Bool :=
  s.caches.l2.any (fun l => decide (l.line = line) && l.dirty) || s.caches.l3.any fun l => decide (l.line = line) && l.dirty

/-- The set of an L1 that a line maps to (R158): 128 KiB in 8 ways have 128 sets. -/
def l1Set (line : Nat) : Nat := Config.l1Hash line % 128

/-- The set of an L2 that a line maps to (R158): 4 MiB in 16 ways have 2,048 sets. -/
def l2Set (line : Nat) : Nat := Config.l2Hash line % 2048

/-- The set of an L3 slice that a line maps to (R158): 64 MiB in 32 ways have 16,384 sets. -/
def l3Set (line : Nat) : Nat := Config.l3Hash line % 16384

/-- The L2 that serves a context: its pair's, or copy T's own on a split pair, whose number is 18 more (R206). -/
def cacheOf (s : State) (c : Nat) : Nat :=
  match placeOf s c with
  | none => 18
  | some (p, slot) => if slot && decide ((s.pair p).st = .split) then p + 18 else p

/-- The L2s of a pair. -/
def cachesOf (p : Nat) : List Nat := [p, p + 18]

/-- A line of an L2. -/
def l2Find (s : State) (o line : Nat) : Option CLine :=
  s.caches.l2.find? fun l => decide (l.owner = o) && decide (l.line = line)

/-- A line of the L3. -/
def l3Find (s : State) (line : Nat) : Option CLine := s.caches.l3.find? fun l => decide (l.line = line)

/-- Drop a line from the L1s within an L2. -/
def dropL1 (s : State) (o line : Nat) : State :=
  setCaches s { s.caches with l1 := s.caches.l1.filter fun l => !(decide (l.pair = o) && decide (l.line = line)) }

/-- Drop a line from an L2 and with it from its L1s (R158: the L2 includes both). -/
def dropL2 (s : State) (o line : Nat) : State :=
  let s := dropL1 s o line
  setCaches s { s.caches with l2 := s.caches.l2.filter fun l => !(decide (l.owner = o) && decide (l.line = line)) }

/-- Drop a line from the L3. -/
def dropL3 (s : State) (line : Nat) : State :=
  setCaches s { s.caches with l3 := s.caches.l3.filter fun l => decide (l.line ≠ line) }

/-- A snoop invalidation of a line in every L2 but one (R160): it is held where the line is FILLING (R164). -/
def dropOthers (s : State) (o line : Nat) : State :=
  let here (l : CLine) : Bool := decide (l.owner ≠ o) && decide (l.line = line)
  let late := (s.caches.l2.filter fun l => here l && decide (l.filling ≠ 0)).map (·.owner)
  setCaches s { s.caches with
    l1 := s.caches.l1.filter fun l => !(decide (l.pair ≠ o) && decide (l.line = line)) || late.contains l.pair
    l2 := s.caches.l2.filter fun l => !(here l && decide (l.filling = 0))
    snoops := s.caches.snoops ++ late.map fun q => { pair := q, line := line, invalidate := true } }

/-- Drop a line from every cache of the module. -/
def dropAll (s : State) (line : Nat) : State := dropL3 (dropOthers s 99 line) line

/-- Way numbers set in a mask. -/
def waysIn (n : Nat) (m : Nat) : List Nat := (List.range n).filter fun w => m.testBit w

/-- The L3 ways an allocation of an instance may use in a slice (R167, R169, R177). -/
def l3Ways (s : State) (inst slice : Nat) : List Nat :=
  (waysIn 32 (s.caches.l3mask.get inst 0xFFFFFFFF#32).toNat).filter fun w =>
    !bitOf s.caches.l3lock w && !bitOf (s.caches.l3del.get slice 0#32) w

/-- The requester class of a context (R165). -/
def ctxClass (s : State) (c : Nat) : Nat :=
  if c < 16 then fld s.caches.ctxcls0 (4 * c + 3) (4 * c) else fld s.caches.ctxcls1 (4 * (c - 16) + 3) (4 * (c - 16))

/-- A way deleted in a pair's L2, by either copy (R177, R178). -/
def l2Deleted (s : State) (p w : Nat) : Bool :=
  bitOf (s.caches.l2del.get p 0#32) w || bitOf (s.caches.l2del.get p 0#32) (w + 16)

/-- The L2 ways an allocation of a context may use on a pair (R166, R169, R177). -/
def l2Ways (s : State) (p c : Nat) : List Nat :=
  (waysIn 16 (s.caches.l2mask.get (ctxClass s c) 0xFFFF#16).toNat).filter fun w =>
    !bitOf s.caches.l2lock w && !l2Deleted s p w

/-- Put a line in the L3 for an instance (R161, R167): in a free choice of the permitted ways, replacing the line of the
same set there; to memory when the L3 is not ON or no way is left. -/
def l3Insert (s : State) (line : Nat) (inst : BitVec 8) (dirty : Bool) : State :=
  if s.caches.l3st ≠ .on then s else
  match l3Find s line with
  | some l =>
    setCaches s { s.caches with l3 := s.caches.l3.map fun k =>
      if k.line = line then { l with dirty := l.dirty || dirty } else k }
  | none =>
    let ways := l3Ways s inst.toNat (homeSlice line)
    if ways = [] then s else
    let w := ways.getD (Config.victim s.free % ways.length) 0
    let s := s.drawn
    let same (k : CLine) : Bool := decide (k.way = w) && decide (homeSlice k.line = homeSlice line) &&
      decide (l3Set k.line = l3Set line)
    setCaches s { s.caches with l3 := s.caches.l3.filter (fun k => !same k) ++
      [{ owner := homeSlice line, line := line, way := w, dirty := dirty, inst := inst, filling := 0, crit := none }] }

/-- A removal that is no eviction (R161): a dirty line goes to the L3, a clean one is discarded. -/
def writeBack (s : State) (l : CLine) : State := if l.dirty then l3Insert s l.line l.inst true else s

/-- Write back the dirty lines of a pair's L2s to the L3 or memory, leaving them clean (R161, R175). -/
def cleanL2 (s : State) (p : Nat) : State :=
  let s' := s.caches.l2.foldl (fun t l => if l.owner % 18 = p then writeBack t l else t) s
  setCaches s' { s'.caches with l2 := s'.caches.l2.map fun l => if l.owner % 18 = p then { l with dirty := false } else l }

/-- Empty a pair's L1s and L2s, discarding what is clean. -/
def emptyL2 (s : State) (p : Nat) : State :=
  setCaches s { s.caches with
    l1 := s.caches.l1.filter fun l => decide (l.pair % 18 ≠ p)
    l2 := s.caches.l2.filter fun l => decide (l.owner % 18 ≠ p)
    snoops := s.caches.snoops.filter fun h => decide (h.pair % 18 ≠ p) }

/-- Drain a pair's L2s: write back, then empty (R161). -/
def drainL2 (s : State) (p : Nat) : State := emptyL2 (cleanL2 s p) p

/-- The copies of a pair that splits hold the same lines (R159, R206): copy T keeps its own as clean (log entry 93). -/
def splitL2 (s : State) (p : Nat) : State :=
  setCaches s { s.caches with
    l1 := s.caches.l1 ++ (s.caches.l1.filter fun l => decide (l.pair = p)).map fun l => { l with pair := p + 18 }
    l2 := s.caches.l2 ++ (s.caches.l2.filter fun l => decide (l.owner = p)).map fun l =>
      { l with owner := p + 18, dirty := false }
    snoops := s.caches.snoops ++ (s.caches.snoops.filter fun h => decide (h.pair = p)).map fun h =>
      { h with pair := p + 18 } }

/-- Some line of a pair's L2s is dirty. -/
def l2Dirty (s : State) (p : Nat) : Bool := s.caches.l2.any fun l => decide (l.owner % 18 = p) && l.dirty

/-- Some line of the L3 is dirty. -/
def l3Dirty (s : State) : Bool := s.caches.l3.any (·.dirty)

/-- Evict from an L2 by replacement: into the L3, clean or dirty (R161). -/
def evictL2 (s : State) (o w line : Nat) : State :=
  let out := s.caches.l2.filter fun k =>
    decide (k.owner = o) && decide (k.way = w) && decide (k.line ≠ line) && decide (l2Set k.line = l2Set line)
  out.foldl (fun t k => l3Insert (dropL2 t o k.line) k.line k.inst k.dirty) s

/-- Allocate a line in a way of an L2. -/
def allocL2 (s : State) (o w line : Nat) (inst : BitVec 8) (filling : BitVec 8) (crit : Option (Nat × Nat)) : State :=
  let s := evictL2 s o w line
  setCaches s { s.caches with l2 := s.caches.l2.filter (fun k => !(decide (k.owner = o) && decide (k.line = line))) ++
    [{ owner := o, line := line, way := w, dirty := false, inst := inst, filling := filling, crit := crit }] }

/-- Note a line in an L1: in a free choice of its 8 ways, replacing the line of the same set there (R158). -/
def noteL1 (s : State) (o : Nat) (code : Bool) (line : Nat) : State :=
  let mine (l : L1Line) : Bool := decide (l.pair = o) && l.code == code
  if s.caches.l1.any fun l => mine l && decide (l.line = line) then s
  else
    let w := Config.victim s.free % 8
    let e : L1Line := { pair := o, code := code, line := line, way := w }
    let s := s.drawn
    setCaches s { s.caches with
      l1 := s.caches.l1.filter (fun l => !(mine l && decide (l.way = w) && decide (l1Set l.line = l1Set line))) ++ [e] }

/-- The sectors of a line that n bytes at an address do not touch. -/
def restSectors (a n line : Nat) : BitVec 8 := ~~~(sectorMask a n line)

/-- A line of an L2 with a field changed. -/
def mapL2 (s : State) (o line : Nat) (f : CLine → CLine) : State :=
  setCaches s { s.caches with l2 := s.caches.l2.map fun k => if k.owner = o ∧ k.line = line then f k else k }

/-- Whether a line is held by an L1 of an L2 that is ON. -/
def l1Wants (s : State) (o : Nat) (code : Bool) : Bool :=
  decide ((if code then (s.pctl (o % 18)).l1i else (s.pctl (o % 18)).l1d) = .on)

/-- A cacheable access of context c to n bytes at an address brings a line into the caches of its L2 (R160, R161, R163,
R166). A miss leaves the line FILLING with the sectors of the access delivered; where it can be allocated nowhere in the
L2 only the L1 is filled. A store takes the line alone, also from the L3 (log entry 94), waits in the access itself for
the rest of a line that is FILLING, and leaves the line dirty unless it lies in a mirror zone (R327). With the L2 not ON
the access bypasses it (R170). -/
def touchLine (s : State) (c : Nat) (code store : Bool) (a n line : Nat) : State :=
  let o := cacheOf s c
  let zone := inZone s line
  let s := if store then (if zone then dropOthers s o line else dropL3 (dropOthers s o line) line) else s
  if (s.pctl (o % 18)).l2 ≠ .on then s else
  let s :=
    match l2Find s o line with
    | some l =>
      mapL2 s o line fun k => { k with
        dirty := k.dirty || (store && !zone), filling := if store then 0 else k.filling
        crit := if l.crit.map (·.1) = some c then none else k.crit }
    | none =>
      let ways := l2Ways s (o % 18) c
      if ways = [] then s
      else
        let w := ways.getD (Config.victim s.free % ways.length) 0
        let t := allocL2 s.drawn o w line (BitVec.ofNat 8 (s.owner c)) (if store then 0 else restSectors a n line) none
        mapL2 t o line fun k => { k with dirty := store && !zone }
  if l1Wants s o code then noteL1 s o code line else s

/-- The lines of an access are brought in one after the other. -/
def touch (s : State) (c : Nat) (code store : Bool) (a n : Nat) : State :=
  (linesOf a n).foldl (fun t ln => touchLine t c code store a n ln) s

/-- A line is FILLING in an L2 and an access of context c to n bytes at an address waits for it (R163): every access but
the one that missed, once its critical sector has come. -/
def fillBusy (s : State) (c o a n ln : Nat) : Bool :=
  match l2Find s o ln with
  | none => false
  | some l =>
    decide (l.filling ≠ 0) &&
      !(match l.crit with
        | some (k, sec) => decide (k = c) && !bitOf l.filling sec && decide (sectorMask a n ln = setBit 0 sec true)
        | none => false)

/-- The drain of a cache that has been disabled still holds a line (R172). -/
def draining (s : State) (ln : Nat) : Bool :=
  (s.caches.l2.any fun l => decide (l.line = ln) && l.dirty && decide ((s.pctl (l.owner % 18)).l2 = .disablePending)) ||
    (decide (s.caches.l3st = .disablePending) && ((l3Find s ln).map (·.dirty)).getD false)

/-- A line waits for an access of context c (R163, R172): it is FILLING, or a drain still holds it. -/
def lineBusy (s : State) (c : Nat) (cached : Bool) (a n ln : Nat) : Bool :=
  (cached && fillBusy s c (cacheOf s c) a n ln) || draining s ln

/-- A line is FILLING in some L2. -/
def fillingAnywhere (s : State) (ln : Nat) : Bool :=
  s.caches.l2.any fun l => decide (l.line = ln) && decide (l.filling ≠ 0)

/-- An access of another agent waits in itself until a drain has written the line (R172): it leaves the draining cache. -/
def drainLine (s : State) (ln : Nat) : State :=
  if !draining s ln then s else
  setCaches s { s.caches with
    l2 := s.caches.l2.filter fun l =>
      !(decide (l.line = ln) && l.dirty && decide ((s.pctl (l.owner % 18)).l2 = .disablePending))
    l3 := if s.caches.l3st = .disablePending then s.caches.l3.filter fun l => decide (l.line ≠ ln) else s.caches.l3 }

/-- The lines of an agent's access are waited for (R172). -/
def drainLines (s : State) (a n : Nat) : State := (linesOf a n).foldl drainLine s

/-- What the channel, an engine or the duplex engine reads: a byte of an address that holds nothing is a free value (R407,
log entry 68). -/
def readBytes (s : State) (a n : Nat) : List Byte :=
  if s.inMemory a n then Memory.bytes s.mem a n
  else (List.range n).map fun i =>
    if s.inMemory (a + i) 1 then Memory.read s.mem (a + i) else Config.voidByte s.free (a + i)

/-- A 64-bit word of such a read. -/
def readWord (s : State) (a : Nat) : Word := w64 (leNat (readBytes s a 8))

/-- A write by the channel subsystem, an engine, a PCIe device or the duplex engine in a mirror class (R161, R167, R326,
R402): the lines leave every L2 and enter the L3 for the instance; a line written whole loses its poison. Where an address
holds nothing (R407) nothing is written. -/
def agentStoreIn (s : State) (cls : BitVec 2) (inst : BitVec 8) (a : Nat) (l : List Byte) : State :=
  if !s.inMemory a l.length then s else
  let s := unpoison ((drainLines s a l.length).storeIn cls a l) a l.length
  (linesOf a l.length).foldl (fun t ln => l3Insert (dropOthers t 99 ln) ln inst true) s

/-- As agentStoreIn, mirrored as a zone write (R323). -/
def agentStore (s : State) (inst : BitVec 8) (a : Nat) (l : List Byte) : State := agentStoreIn s 2 inst a l

/-- As agentStore, for work whose writes a stale innings drops (R317). -/
def agentStoreFor (s : State) (inst : BitVec 8) (innings : BitVec 12) (a : Nat) (l : List Byte) : State :=
  if s.inningsOf inst.toNat = innings then agentStore s inst a l else s

/-- n bytes as free values: draw d (log entry 6). -/
def freeBytes (d : Nat) : Nat → List Byte
  | 0 => []
  | n + 1 => freeBytes d n ++ [Config.freeByte d n]

/-- Lines lost with the caches at an M reset hold free bytes (R359, log entry 13). -/
def loseDirty (s : State) : State :=
  let lines := ((s.caches.l2 ++ s.caches.l3).filter (·.dirty)).map (·.line)
  lines.foldl (fun t ln => { t.drawn with mem := Memory.writes t.mem (ln * 128) (freeBytes t.free 128) }) s

end Sys2Proof.Machine
end

