-- ==== Sys2Proof/Machine/Ert.lean ====
section
/-! DEFINITION. The event router's own steps (10): raising sources, selection, withdrawal, masks, the stacks. -/
namespace Sys2Proof.Machine

/-- The route entry of a source (R232). -/
def srcOf (s : State) (n : Nat) : Word := s.ert.src.get n 0

/-- PRIO of a source (R232). -/
def srcPrio (s : State) (n : Nat) : Nat := fld (srcOf s n) 39 32

/-- The priority stack of a context, top first (R226). -/
def stackOf (s : State) (c : Nat) : List StackEntry := s.ert.prioStacks.get c []

/-- The delivery in a context's slot (R219). -/
def slotAt (s : State) (c : Nat) : Option Delivery := s.ert.slots.get c none

def setStack (s : State) (c : Nat) (l : List StackEntry) : State :=
  { s with ert := { s.ert with prioStacks := s.ert.prioStacks.set c l } }

def setSlot (s : State) (c : Nat) (d : Option Delivery) : State :=
  { s with ert := { s.ert with slots := s.ert.slots.set c d } }

/-- The running priority of a context (R219, R51). -/
def runPrio (s : State) (c : Nat) : Nat :=
  match stackOf s c with
  | [] => 0
  | e :: _ => e.prio.toNat

/-- A source is in service while some stack holds it (R226). -/
def inService (s : State) (n : Nat) : Bool := s.ert.prioStacks.any fun p => p.2.any fun e => decide (e.source = n)

/-- A source waits in some context's slot. -/
def inSlot (s : State) (n : Nat) : Bool :=
  s.ert.slots.any fun p =>
    match p.2 with
    | none => false
    | some d => decide (d.source = n)

/-- Source n is a ball programmed as a level source (R216). -/
def isLevel (s : State) (n : Nat) : Bool := decide (n < 64) && bitOf (srcOf s n) 61

/-- The filtered level of a ball is active (R216). -/
def ballActive (s : State) (n : Nat) : Bool := bitOf s.ert.ball n != bitOf (srcOf s n) 60

/-- A source is pending (R216): a level ball by its level while it is out of service, any other source by its bit. -/
def isPending (s : State) (n : Nat) : Bool :=
  if isLevel s n then ballActive s n && !inService s n else bitOf s.ert.pend n

/-- Sources that no block ever raises (R213). -/
def reservedSource (n : Nat) : Bool :=
  (decide (261 ≤ n) && decide (n ≤ 263)) || (decide (309 ≤ n) && decide (n ≤ 311)) ||
    (decide (316 ≤ n) && decide (n ≤ 511)) || decide (1024 ≤ n)

/-- A source becomes pending (R216). -/
def setPend (s : State) (n : Nat) : State := { s with ert := { s.ert with pend := setBit s.ert.pend n true } }

/-- An event waits at its block (R12, R15): no credit, or an older event of the block waits. -/
def eventWaits (s : State) (b : Nat) : Bool :=
  noCredit s .event b 0 || s.bus.waitEvents.any fun e => decide (eventBlock e.source = b)

/-- The innings that an event carries is stale (R215, R317). -/
def EventMsg.stale (s : State) (e : EventMsg) : Bool :=
  match e.work with
  | none => false
  | some (i, n) => decide (s.inningsOf i.toNat ≠ n)

/-- An event reaches the ERT (R215, R216): it is discarded when its innings is stale, and sets the pending bit of its
source otherwise. -/
def eventLands (s : State) (e : EventMsg) : State := if e.stale s then s else setPend s e.source

/-- A block sends an event (R12, R213, R215); without a credit it waits at its block. -/
def sendEvent (s : State) (e : EventMsg) : State :=
  if reservedSource e.source then s
  else if eventWaits s (eventBlock e.source) then { s with bus := { s.bus with waitEvents := s.bus.waitEvents ++ [e] } }
  else eventLands s e

/-- A block sends an event of no instance's work. -/
def raise (s : State) (n : Nat) : State := sendEvent s { source := n, work := none }

/-- A block sends an event with the instance and innings of the work that caused it (R215). -/
def raiseFor (s : State) (n inst : Nat) (innings : BitVec 12) : State :=
  sendEvent s { source := n, work := some (BitVec.ofNat 8 inst, innings) }

/-- Every event queue has its credits back: what waited is sent (R12, R20). -/
def releaseEvents (s : State) : State :=
  s.bus.waitEvents.foldl eventLands { s with bus := { s.bus with waitEvents := [] } }

/-- Sources that a block's event may name: neither a ball nor a software source (R213). -/
def blockSource (n : Nat) : Bool := decide (64 ≤ n) && !(decide (128 ≤ n) && decide (n < 192))

/-- Take a delivery out of its slot and return its source to pending (R223, R230). -/
def withdraw (s : State) (c : Nat) : State :=
  match slotAt s c with
  | none => s
  | some d =>
    let t := setSlot s c none
    if isLevel s d.source then t else { t with ert := { t.ert with pend := setBit t.ert.pend d.source true } }

/-- The states that withdraw a withdrawable delivery (R223): hypervisor mode with HYP = 0, or an ineligible context. -/
def withdrawDue (s : State) (c : Nat) : Bool :=
  match slotAt s c with
  | none => false
  | some d => decide (25 ≤ d.age) && ((decide ((s.ctx c).mode = 3) && !d.hyp) || heldBack s c)

/-- A delivery reaches its context and wakes it (R221, R222, R364); it waits for the credit of its queue (R12). -/
def arrive (s : State) (c : Nat) : State :=
  if noCredit s .eventDelivery 0 c then s else
  match slotAt s c with
  | none => s
  | some d => wakeCtx (setSlot s c (some { d with arrived := true })) c

/-- One ERT cycle passes for a slot: the delivery ages, arrives no later than 4 cycles after its selection (R221), and
is withdrawn where a state of R223 asks for it. -/
def slotCycle (s : State) (c : Nat) : State :=
  match slotAt s c with
  | none => s
  | some d =>
    let t := setSlot s c (some { d with age := if d.age < 25 then d.age + 1 else 25 })
    let t := if decide (4 ≤ d.age + 1) && !d.arrived then arrive t c else t
    if withdrawDue t c then withdraw t c else t

/-- A source can be selected (R218, Selection and routing). -/
def selectable (s : State) (n : Nat) : Bool :=
  isPending s n && !bitOf s.ert.mask n && decide (srcPrio s n ≠ 0) && !inService s n && !inSlot s n

/-- Insert a source behind those of the same or higher PRIO. -/
def insertSource (s : State) (n : Nat) : List Nat → List Nat
  | [] => [n]
  | m :: r => if srcPrio s m < srcPrio s n then n :: m :: r else m :: insertSource s n r

/-- Selectable sources by decreasing PRIO, then ascending number (R220). -/
def candidates (s : State) : List Nat :=
  ((List.range 1024).filter fun n => (bitOf s.ert.pend n || decide (n < 64)) && selectable s n).foldl
    (fun l n => insertSource s n l) []

/-- E(c): the largest of the running priority and the PRIO in the slot (R219). -/
def effPrio (s : State) (c : Nat) : Nat :=
  match slotAt s c with
  | none => runPrio s c
  | some d => max (runPrio s c) d.prio.toNat

/-- A context is held: STOPPED, in reset, in a substitution or a hand-over, or unplaced (R203, R219). -/
def ertHeld (s : State) (c : Nat) : Bool := heldBack s c || decide ((s.pair (pairOf s c)).st = .substituting)

/-- The slot of a context is empty or holds a delivery that is withdrawable (R219). -/
def slotOpen (s : State) (c : Nat) : Bool :=
  match slotAt s c with
  | none => true
  | some d => decide (25 ≤ d.age)

/-- Context c is eligible for source n (R219). -/
def eligible (s : State) (n c : Nat) : Bool :=
  let w := srcOf s n
  bitOf w c && decide (effPrio s c < srcPrio s n) && decide ((stackOf s c).length < 16) &&
    slotOpen s c && !ertHeld s c && !(decide ((s.ctx c).mode = 3) && !bitOf w 59)

/-- rot(n): 31 after a reset of the ERT (R220). -/
def rotOf (s : State) (n : Nat) : Nat := s.ert.rot.get n 31

/-- The context that source n chooses (R220): least busy, ties by rotation. -/
def chooseCtx (s : State) (used : List Nat) (n : Nat) : Option Nat :=
  let el := ctxNums.filter fun c => eligible s n c && !used.contains c
  match el with
  | [] => none
  | c0 :: _ =>
    let low := el.foldl (fun m c => min m (runPrio s c)) (runPrio s c0)
    ((List.range 32).map fun i => (rotOf s n + 1 + i) % 32).find? fun c => el.contains c && decide (runPrio s c = low)

/-- Place source n in the slot of context c (R220). -/
def placeIn (s : State) (n c : Nat) : State :=
  let w := srcOf s n
  let s := withdraw s c
  let s := setSlot s c (some { source := n, prio := w.extractLsb' 32 8, vector := w.extractLsb' 40 8, hyp := bitOf w 59
                               age := 0, arrived := false, lateMask := false })
  let s := { s with ert := { s.ert with rot := s.ert.rot.set n c } }
  if isLevel s n then s else { s with ert := { s.ert with pend := setBit s.ert.pend n false } }

/-- Selection over a list of sources, up to k placements, one for each context (R220). -/
def selectFrom : Nat → List Nat → List Nat → State → State
  | _, _, [], s => s
  | 0, _, _, s => s
  | k + 1, used, n :: r, s =>
    match chooseCtx s used n with
    | none => selectFrom (k + 1) used r s
    | some c => selectFrom k (c :: used) r (placeIn s n c)

/-- The selection of one ERT cycle (R220, R232). -/
def ertSelect (s : State) : State := if s.ert.en then selectFrom 4 [] (candidates s) s else s

/-- One ERT cycle: slots age, then sources are selected. -/
def ertCycle (s : State) : State := ertSelect (ctxNums.foldl slotCycle s)

/-- A mask write for the sources of word k meets the deliveries in slots (R224). -/
def maskSlot (k : Nat) (v : Word) (s : State) (c : Nat) : State :=
  match slotAt s c with
  | none => s
  | some d =>
    if d.source / 64 = k ∧ bitOf v (d.source % 64) = true then
      (if 25 ≤ d.age then withdraw s c else setSlot s c (some { d with lateMask := true }))
    else s

/-- Word k of a 1,024-bit register. -/
def wordOf (b : BitVec 1024) (k : Nat) : Word := b.extractLsb' (64 * k) 64

/-- A 64-bit word placed at word k of a 1,024-bit register. -/
def atWord (k : Nat) (v : Word) : BitVec 1024 := (v.setWidth 1024) <<< (64 * k)

/-- Set mask bits (R224, R232). -/
def maskSet (s : State) (k : Nat) (v : Word) : State :=
  let s := { s with ert := { s.ert with mask := s.ert.mask ||| atWord k v } }
  ctxNums.foldl (maskSlot k v) s

/-- Clear mask bits (R232). -/
def maskClr (s : State) (k : Nat) (v : Word) : State :=
  { s with ert := { s.ert with mask := s.ert.mask &&& ~~~(atWord k v) } }

/-- The bits that a write to ERT_PENDk clears: edge sources in no slot and not in service (R218). -/
def pendClearable (s : State) (n : Nat) : Bool := !isLevel s n && !inSlot s n && !inService s n

/-- Clear pending bits (R218). -/
def pendClr (s : State) (k : Nat) (v : Word) : State :=
  (List.range 64).foldl (fun t j =>
    if bitOf v j && pendClearable s (64 * k + j) then
      { t with ert := { t.ert with pend := setBit t.ert.pend (64 * k + j) false } }
    else t) s

/-- Raise the software sources of ERT_SWRAISE (R213, R232). -/
def swRaise (s : State) (v : Word) : State :=
  (List.range 64).foldl (fun t k => if bitOf v k then setPend t (128 + k) else t) s

/-- The fields that ERT_SRCn holds (R232). -/
def srcMask (n : Nat) : Word := if n < 64 then 0x38FFFFFFFFFFFFFF#64 else 0x0800FFFFFFFFFFFF#64

/-- Write a route entry (R225, R232). -/
def setSrc (s : State) (n : Nat) (v : Word) : State :=
  { s with ert := { s.ert with src := s.ert.src.set n (v &&& srcMask n) } }

/-- Context c's stack gains the entry of a delivery whose vector read is complete (R226). -/
def pushDelivery (s : State) (c : Nat) (d : Delivery) : State :=
  setStack s c ({ source := d.source, prio := d.prio, vector := d.vector, hyp := d.hyp, lateMask := d.lateMask } ::
    stackOf s c)

/-- End of interrupt (R229): pop, then the selection of the next ERT cycle, whose delivery has reached the slot. -/
def eoi (s : State) (c : Nat) : State :=
  match stackOf s c with
  | [] => { s with ert := { s.ert with underflow := setBit s.ert.underflow c true } }
  | _ :: r => arrive (ertCycle (setStack s c r)) c

/-- A context or instance reset clears the stack and withdraws the slot at once (R230). -/
def ertCtxReset (s : State) (c : Nat) : State := setStack (withdraw s c) c []

/-- ERT_ACK of a context (R232). -/
def ertAck (s : State) (c : Nat) : Word :=
  match stackOf s c with
  | [] => 0
  | e :: r =>
    w64 (2 ^ 63 + b2n e.lateMask * 2 ^ 62 + b2n e.hyp * 2 ^ 61 + (r.length + 1) * 2 ^ 56 + e.vector.toNat * 2 ^ 40 +
      e.prio.toNat * 2 ^ 32 + e.source)

/-- ERT_CSTAT of a context (R232). -/
def ertCstat (s : State) (c : Nat) : Word :=
  w64 (runPrio s c * 2 ^ 24 + b2n (bitOf s.ert.underflow c) * 2 ^ 16 + (stackOf s c).length * 2 ^ 8 +
    b2n (slotAt s c).isSome * 2 + b2n (ertHeld s c || !slotOpen s c))

/-- PS as software reads it: RP from the stack (R226), UC while the context runs on a split pair (R51, R206). -/
def psOf (s : State) (c : Nat) : Word :=
  setBit (setFld (s.ctx c).ps 31 24 (runPrio s c)) 17 (decide ((s.pair (pairOf s c)).st = .split))

/-- A filtered level change is accepted on a ball (R216): an edge ball sets pending on its active edge. -/
def ballAccept (s : State) (n : Nat) (level : Bool) : State :=
  let was := bitOf s.ert.ball n
  let t := { s with ert := { s.ert with ball := setBit s.ert.ball n level } }
  if !isLevel s n && was != level && level != bitOf (srcOf s n) 60 then setPend t n else t

/-- A block reset of the ERT keeps the stacks and slots (R230, R233, R363). -/
def ertBlockReset (s : State) : State :=
  { s with ert := { s.ert with en := false, msidrop := 0, pend := 0, mask := BitVec.allOnes 1024, src := [], rot := [] } }

/-- A P, M or W reset of the ERT (R232, R233, R363); the balls keep their filtered levels. -/
def ertReset (s : State) : State := { s with ert := { Ert.reset with ball := s.ert.ball } }

end Sys2Proof.Machine
end

