-- ==== Sys2Proof/Machine/Engines.lean ====
section
/-! DEFINITION. How compression and cipher jobs end, and how keys are erased (13, 14): the steps that resets and alarms
share with the engines' own commands. -/
namespace Sys2Proof.Machine

/-- A list without its first element that passes a test. -/
def dropFirst {α : Type} (p : α → Bool) : List α → List α
  | [] => []
  | a :: r => if p a then r else a :: dropFirst p r

/-- A list with its first element that passes a test replaced. -/
def swapFirst {α : Type} (p : α → Bool) (b : α) : List α → List α
  | [] => []
  | a :: r => if p a then b :: r else a :: swapFirst p b r

/-- n bytes of output that the spec leaves undefined: free bytes (R285, R304). -/
def spoil (s : State) (inst : BitVec 8) (innings : BitVec 12) (a n : Nat) : State :=
  if n = 0 then s else agentStoreFor s.drawn inst innings a (freeBytes s.free n)

/-! ## Compression -/

/-- Status word and counts of a compression descriptor (R282): word 7, then word 6. -/
def zipWriteEnd (s : State) (j : ZJob) (status : Nat) (openB : Bool) (unverified inC outP : Nat) : State :=
  let s := agentStoreFor s j.inst j.innings (j.desc + 56) (leBytes 8 (inC + outP * 2 ^ 32))
  agentStoreFor s j.inst j.innings (j.desc + 48) (leBytes 8 (status + b2n openB * 256 + unverified * 2 ^ 32))

/-- A job of engine n ends (R282): its descriptor, then its event when SIGNAL = 1. -/
def zipEnd (s : State) (n : Nat) (j : ZJob) (status : Nat) (openB : Bool) (unverified inC outP : Nat) : State :=
  let s := zipWriteEnd s j status openB unverified inC outP
  let s := if j.signal then raiseFor s (268 + n) j.inst.toNat j.innings else s
  let z := s.zip n
  let z := { z with ended := z.ended + 1, queue := dropFirst (fun k => decide (k.desc = j.desc) && decide (k.inst = j.inst)) z.queue }
  s.setZip n { z with running := if z.running = some j.inst then (z.queue.find? (·.started)).map (·.inst) else z.running }

/-- Work of an instance whose innings has gone stale (R317, R319). -/
def staleInnings (s : State) (inst : BitVec 8) (innings : BitVec 12) : Bool := decide (s.inningsOf inst.toNat ≠ innings)

/-- A job ends ENGINE_RESET (R289); a queued job whose innings is stale is removed and writes nothing (R319). -/
def zipReset (s : State) (n : Nat) (j : ZJob) : State :=
  if !j.started && staleInnings s j.inst j.innings then
    s.setZip n { s.zip n with queue := dropFirst (fun k => decide (k.desc = j.desc) && decide (k.inst = j.inst)) (s.zip n).queue }
  else zipEnd s n j 9 j.stream.openBlock j.earlier j.inPos j.outPos

/-- Every job of engine n ends ENGINE_RESET, in order of submission (R289). -/
def zipResetAll (s : State) (n : Nat) : State := (s.zip n).queue.foldl (fun t j => zipReset t n j) s

/-- Block or W reset of engine n: tables and error counts are kept (R289, R290, R363). -/
def zipBlockReset (s : State) (n : Nat) : State :=
  let s := zipResetAll s n
  s.setZip n { s.zip n with en := false, running := none, ended := 0, queue := [] }

/-! ## Ciphers -/

/-- Status and count of a cipher descriptor (R301): word 7, then word 6. -/
def cipherWriteEnd (s : State) (j : CJob) (status outP : Nat) : State :=
  let s := agentStoreFor s j.inst j.innings (j.desc + 56) (leBytes 8 outP)
  agentStoreFor s j.inst j.innings (j.desc + 48) (leBytes 8 status)

/-- Output bytes that a job has written (R301): none for CMAC. -/
def cipherOut (j : CJob) : Nat := if j.mode = 5 ∨ j.mode = 6 then 0 else j.pos

/-- A job of cluster k ends (R301, R304): a GCM_DEC job that ends other than DONE first overwrites its output; beyond
OUT_PRODUCED the output of any other mode that ends so is undefined. -/
def cipherEnd (s : State) (k : Nat) (j : CJob) (status : Nat) : State :=
  let wipe := decide (j.mode = 4) && decide (status ≠ 1)
  let s := if j.started && decide (1 ≤ j.mode) && decide (j.mode ≤ 3) && decide (status ≠ 1) then
      spoil s j.inst j.innings (j.dst + j.pos) (j.srcLen - j.pos) else s
  let s := if wipe && decide (j.pos ≠ 0) then
      agentStoreFor s j.inst j.innings j.dst (List.replicate j.pos 0#8) else s
  let s := cipherWriteEnd s j status (if wipe then 0 else cipherOut j)
  let s := if j.signal then raiseFor s (272 + k) j.inst.toNat j.innings else s
  let q := dropFirst (fun m => decide (m.desc = j.desc) && decide (m.inst = j.inst)) (s.ciph.queue.get k [])
  { s with ciph := { s.ciph with queue := s.ciph.queue.set k q
                                 tagFail := if status = 2 then satInc s.ciph.tagFail else s.ciph.tagFail
                                 keyInvalid := if status = 3 then satInc s.ciph.keyInvalid else s.ciph.keyInvalid } }

/-- A job ends with a status, unless it is queued with a stale innings (R319). -/
def cipherStop (s : State) (k : Nat) (j : CJob) (status : Nat) : State :=
  if !j.started && staleInnings s j.inst j.innings then
    let q := dropFirst (fun m => decide (m.desc = j.desc) && decide (m.inst = j.inst)) (s.ciph.queue.get k [])
    { s with ciph := { s.ciph with queue := s.ciph.queue.set k q } }
  else cipherEnd s k j status

/-- Every job of the clusters that a test picks ends with a status. -/
def cipherStopAll (s : State) (pick : CJob → Bool) (status : Nat) : State :=
  [0, 1].foldl (fun t k => ((t.ciph.queue.get k []).filter pick).foldl (fun u j => cipherStop u k j status) t) s

/-- Slots of the key store are erased (R299, R301): every job under one of them ends KEY_ERASED. -/
def eraseSlots (s : State) (a n : Nat) : State :=
  let slots := s.ciph.slots.filter fun q => !(decide (a ≤ q.1) && decide (q.1 < a + n))
  cipherStopAll { s with ciph := { s.ciph with slots := slots } } (fun j => decide (a ≤ j.slot) && decide (j.slot < a + n)) 4

/-- Block or W reset of CIPH: jobs end ENGINE_RESET, the key store is kept (R296, R305, R363). -/
def ciphBlockReset (s : State) : State :=
  let s := cipherStopAll s (fun _ => true) 8
  { s with ciph := { s.ciph with en := 0, queue := [] } }

/-- The key store is in ALARM while any bit of CIPH_ALARM[7:0] is set (R306). -/
def inAlarm (s : State) : Bool := decide (s.ciph.alarm ≠ 0)

/-- CIPH_ALARM (R308). -/
def alarmWord (s : State) : Word := w64 (s.ciph.alarm.toNat + b2n (inAlarm s) * 2 ^ 16)

/-- An alarm source fires (R306): its bit latches, every slot is erased, which is measured (R391), every job ends
KEY_ERASED, and the erasure is under way until KEY_ERASURE_COMPLETE. A source whose bit is latched adds nothing. -/
def alarm (s : State) (j : Nat) : State :=
  if bitOf s.ciph.alarm j then s else
  let s := { s with ciph := { s.ciph with alarm := setBit s.ciph.alarm j true, slots := [], erasing := true } }
  let s := measure s 8 2 s.ciph.alarm.toNat (sha384 (leBytes 8 (alarmWord s).toNat))
  cipherStopAll s (fun _ => true) 4

/-- Alarm source j = 0 to 6 fires while enabled in CIPH_ALARMEN (R306). -/
def alarmIfEnabled (s : State) (j : Nat) : State := if bitOf s.ciph.alarmen j then alarm s j else s

end Sys2Proof.Machine
end

