-- ==== Sys2Proof/Machine/MbOps.lean ====
section
/-! DEFINITION. Mailbox results and endings (02), with the moves of other blocks that a forced end of a command makes. -/
namespace Sys2Proof.Machine

/-- A memory channel changes state and ERT source 287 is raised (R183); its run of failed link retries ends (R182). -/
def setCh (s : State) (n : Nat) (c : ChSt) : State :=
  if s.chst n = c then s
  else raise { s with memc := { s.memc with ch := s.memc.ch.set n c, linkFails := s.memc.linkFails.set n 0 } } 287

/-- The duplex engine moves and ERT source 279 is raised (R331). FENCED holds CHAN_CTL.EN at 0. -/
def dupMove (s : State) (st : DupSt) : State :=
  let s := if st = .fenced then { s with chan := { s.chan with en := false } } else s
  raise { s with dup := { s.dup with st := st } } 279

/-- The captured header (R34): that of the START, or of the last CONTINUE. -/
def Mailbox.header (x : Mailbox) : Word := (x.cap.map fun c => c.words.getD 0 0).getD 0

/-- The opcode of the command (R34), which its START gave. -/
def Mailbox.opcode (x : Mailbox) : Nat := fld x.start 63 48

/-- Captured argument word k, 0 beyond ARG_WORDS (R34). -/
def Mailbox.arg (x : Mailbox) (k : Nat) : Word :=
  (x.cap.map fun c => if k ≤ fld x.header 31 24 then c.words.getD k 0 else 0).getD 0

/-- The argument words from k onward that ARG_WORDS admits: all 31 where a CONTINUE gives more (log entry 95). -/
def Mailbox.argsFrom (x : Mailbox) (k : Nat) : List Word :=
  (x.cap.map fun c => (c.words.take (fld x.header 31 24 + 1)).drop k).getD []

/-- STATE as R34 numbers it. -/
def MbSt.code : MbSt → Nat
  | .idle => 0
  | .accepted => 1
  | .running => 2
  | .partialSt => 3
  | .done => 4
  | .failed => 5
  | .refused => 6

/-- A command of this mailbox is running or waits for its requester (R37, R42). -/
def Mailbox.busy (x : Mailbox) : Bool := decide (x.st = .running) || decide (x.st = .partialSt)

/-- The result area (R34): the header, then the words. The words beyond WORDS are 0 (log entry 96). -/
def mkRes (x : Mailbox) (more : Bool) (words : List Word) : Tab Word :=
  let h := w64 (x.opcode * 2 ^ 48 + fld x.start 47 32 * 2 ^ 32 + b2n more * 2 ^ 16 + words.length)
  (List.range (words.length + 1)).zip (h :: words)

/-- A mailbox changes STATE and CODE; PARTIAL, DONE, FAILED and REFUSED raise its event while EVT_EN = 1 (R32). -/
def mbMove (s : State) (n : Nat) (x : Mailbox) (st : MbSt) (code : Nat) : State :=
  let s := s.setMb n { x with st := st, code := BitVec.ofNat 8 code }
  if x.evtEn && decide (3 ≤ st.code) then raise s (64 + n) else s

/-- A command ends DONE with its results (R34, R43). -/
def mbDone (s : State) (n : Nat) (code : Nat) (words : List Word) : State :=
  let x := s.mb n
  mbMove s n { x with res := mkRes x false words } .done code

/-- A command ends FAILED with failure words (R34, R43). -/
def mbFail (s : State) (n : Nat) (code : Nat) (words : List Word) : State :=
  let x := s.mb n
  mbMove s n { x with res := mkRes x false words } .failed code

/-- A command waits for its requester with a chunk, or for input (R46). -/
def mbPartial (s : State) (n : Nat) (more : Bool) (words : List Word) : State :=
  let x := s.mb n
  mbMove s n { x with res := mkRes x more words, chunk := false } .partialSt 0

/-- PROGRESS never decreases (R35). -/
def mbProgress (s : State) (n : Nat) (v : Nat) : State :=
  let x := s.mb n
  s.setMb n { x with progress := if x.progress.toNat ≤ v then BitVec.ofNat 32 v else x.progress }

/-- Jobs and SENDs of an instance that have not ended. -/
def workLeft (s : State) (i : Nat) : Nat :=
  (List.range 4).foldl (fun a z => a + ((s.zip z).queue.filter fun j => decide (j.inst.toNat = i)).length) 0 +
    [0, 1].foldl (fun a k => a + ((s.ciph.queue.get k []).filter fun j => decide (j.inst.toNat = i)).length) 0 +
    (s.chan.sends.filter fun o => decide (o.inst.toNat = i)).length

/-- Jobs and operations that the method of an INSTANCE_RESET has ended (R321). -/
def workEnded (s : State) (i : Nat) : Nat := (s.inst i).drained - workLeft s i

/-- The privileged instance whose work a mailbox's INSTANCE_RESET waits for (R321). -/
def instWaiting (s : State) (n : Nat) : Option Nat := [0, 1, 2, 3].find? fun i => decide ((s.inst i).drainMb = some n)

/-- Both modules of a bind that ends early: UNBOUND, or SOLO where the primary's bind left SOLO (R332). -/
def bindEnd (s : State) : State :=
  let s := { s with dup := { s.dup with bindMb := none } }
  if s.dup.st = .syncing then dupMove s (if s.dup.fromSolo then .solo else .unbound) else s

/-- What the command running in a mailbox leaves behind when it is ended from outside (R37 to R39, R44, R183, R345). -/
def mbCleanup (s : State) (n : Nat) : State :=
  let x := s.mb n
  if !x.busy then s
  else if x.opcode = 0x0202 then
    (if x.step ≠ 0 ∧ s.chst x.aux = .rebuilding then setCh s x.aux .offline else s)
  else if x.opcode = 0x0600 then { s with sp := { s.sp with staged := none } }
  else if x.opcode = 0x0501 then
    (if s.time.steerMb = some n then { s with time := { s.time with slewing := false, steerMb := none } } else s)
  else if x.opcode = 0x0500 then
    (if s.time.setAtPps = some n then { s with time := { s.time with setAtPps := none } } else s)
  else if x.opcode = 0x0701 then (if s.dup.bindMb = some n then bindEnd s else s)
  else if x.opcode = 0x0702 then
    (if s.dup.takeMb = some n then { s with dup := { s.dup with takeMb := none } } else s)
  else if x.opcode = 0x0601 then
    (if s.sp.activateMb = some n then { s with sp := { s.sp with activateMb := none, fw := .running } } else s)
  else if x.opcode = 0x0700 then
    (if s.sp.warmMb = some n then
      { s with sp := { s.sp with warmMb := none }
               chan := { s.chan with quiesce := bitOf s.crp.brstat 1 } }
     else s)
  else if x.opcode = 0x0401 then
    let i := fld (x.arg 1) 7 0
    if (s.inst i).drainMb = some n then
      let s := if i < 4 then mbProgress s n (workEnded s i) else s
      s.setInst i { s.inst i with phase := .idle, drainMb := none }
    else s
  else
    { s with pairs := s.pairs.map fun p =>
        (p.1, { p.2 with
          subst := p.2.subst.map fun u => if u.mb = some n then { u with mb := none } else u
          handover := p.2.handover.map fun h => if h.mb = some n then { h with mb := none } else h }) }

/-- A command is ended from outside with ABORTED, RETRY_AFTER_UPDATE or RESET_ABORTED: the result area is cleared (R34,
R38, R47). An FW_STAGE that ends so before it runs empties the staging slot too (R44), but for RETRY_AFTER_UPDATE, which
says that it was not issued (R48). -/
def mbEnd (s : State) (n : Nat) (code : Nat) : State :=
  let stage := decide ((s.mb n).st = .accepted) && decide ((s.mb n).opcode = 0x0600) && decide (code ≠ 8)
  let s := if stage then { s with sp := { s.sp with staged := none } } else mbCleanup s n
  let x := s.mb n
  mbMove s n { x with res := [], buf := [], out := [], chunk := false } .failed code

/-- The mailboxes in order. -/
def mbNums : List Nat := List.range 64

/-- Mailboxes whose command is in ACCEPTED, RUNNING or PARTIAL. -/
def mbActive (s : State) : List Nat := mbNums.filter fun n => (s.mb n).busy || decide ((s.mb n).st = .accepted)

end Sys2Proof.Machine
end

