-- ==== Sys2Proof/Machine/Reset.lean ====
section
/-! DEFINITION. Resets (18): what each kind restores and keeps (R356 to R363), the boot sequence, power states of pairs. -/
namespace Sys2Proof.Machine

/-! ## Contexts -/

/-- C reset of a context (R362): registers as their tables state, ERT stack and slot cleared, STOPPED. A pending MCT is
kept, since a context in reset takes it when it leaves that state (R238). -/
def ctxCReset (s : State) (c : Nat) : State :=
  let s := ertCtxReset s c
  let s := { s with ert := { s.ert with underflow := setBit s.ert.underflow c false } }
  s.setCtx c { Ctx.reset with mct := (s.ctx c).mct }

/-- I reset of a context (R362, R363): it keeps its registers and barrier depth, and resumes at its PC when released. -/
def ctxIReset (s : State) (c : Nat) : State :=
  let s := ertCtxReset s c
  let x := s.ctx c
  s.setCtx c { x with tlb := [], opfile := [], hist := 0, histSpec := 0, ras := [], rasSpec := [], run := .stopped
                      entering := false, fresh := false, rep := false, wakeLatch := false, dbgHalted := false }

/-- What a context loses with its pair's power (R363). -/
def Ctx.gateLoss (x : Ctx) : Ctx := { x with tlb := [], opfile := [], hist := 0, histSpec := 0, ras := [], rasSpec := [] }

/-- A wake source waits for a context (R364). -/
def wakeSource (s : State) (c : Nat) : Bool :=
  let x := s.ctx c
  (match slotAt s c with
   | none => false
   | some d => d.arrived) || x.mct || x.wakeLatch || (s.aud.dbgEn && bitOf s.aud.halt c && !s.aud.sealed)

/-- A pair leaves GATE (R367): state restored from retention, caches empty, predictor lost; a context whose wake source
waits leaves NAP. ERT source 307 is raised while NOTIFY = 1. -/
def gateExit (s : State) (p : Nat) : State :=
  let q := s.pair p
  if !q.gated || q.st = .bench || q.st = .fenced then s else
  let s := s.setPair p { q with gated := false, pred := [], predT := [] }
  let s := emptyL2 s p
  let s := (pairCtxs s p).foldl (fun t c => t.setCtx c (t.ctx c).gateLoss) s
  let s := (pairCtxs s p).foldl (fun t c => if wakeSource t c then wakeCtx t c else t) s
  if s.crp.notify then raise s 307 else s

/-- A debug halt is due at a context's next boundary (R398). -/
def haltDue (s : State) (c : Nat) : Bool := s.aud.dbgEn && bitOf s.aud.halt c && !s.aud.sealed

/-- A context stops at this boundary when a debug halt is due (R398): a context in NAP completes its WAIT first. -/
def haltNow (s : State) (c : Nat) : State :=
  let x := (s.ctx c).wake
  if haltDue s c && decide (x.run = .run) && !x.entering then
    s.setCtx c { x with run := .stopped, dbgHalted := true }
  else s

/-- A context that a release names can start: placed and STOPPED, on no fenced pair, not held by a BACKUP (R203, R204,
R333, R362). -/
def releasable (s : State) (c : Nat) : Bool :=
  match placeOf s c with
  | none => false
  | some (p, _) =>
    decide ((s.ctx c).run = .stopped) && decide ((s.pair p).st ≠ .fenced) &&
      !(decide (s.dup.st = .backup) && bitOf s.dup.ckptMask c)

/-- Release of a STOPPED context (R362, R398), whose pair leaves GATE first: reset entry after a P, M, W or C reset, else
it resumes at its PC. -/
def releaseCtx (s : State) (c : Nat) : State :=
  if !releasable s c then s else
  let s := gateExit s (pairOf s c)
  let x := s.ctx c
  if x.fresh then s.setCtx c { x with run := .run, entering := true }
  else
    let s := { s with aud := { s.aud with halt := setBit s.aud.halt c false } }
    s.setCtx c { x with run := .run, dbgHalted := false }

/-! ## Placement -/

/-- Where R203 places contexts 2k and 2k + 1, for k from 0: the pair for each k, none when no pair is left. -/
def placement (fenced : List Nat) : List Nat → List Nat → List (Nat × Option Nat)
  | _, [] => []
  | used, k :: r =>
    if k ∉ fenced then (k, some k) :: placement fenced used r
    else
      match [16, 17].find? fun b => decide (b ∉ fenced) && decide (b ∉ used) with
      | some b => (k, some b) :: placement fenced (b :: used) r
      | none => (k, none) :: placement fenced used r

/-- The placement of all contexts under the repair list. -/
def placed (k : Kept) : List (Nat × Option Nat) := placement k.fenced [] (List.range 16)

/-- The pairs after a P or M reset (R203, R211). -/
def pairsAtReset (k : Kept) : Tab Pair :=
  pairNums.map fun p =>
    let e := Pair.empty (if p ∈ k.fenced then .fenced else .bench)
    let e := { e with failed := decide (p ∈ k.failedPairs) }
    match (placed k).find? fun q => decide (q.2 = some p) with
    | some q => (p, { e with st := .active, gated := false, slot0 := some (2 * q.1), slot1 := some (2 * q.1 + 1) })
    | none => (p, e)

/-- The k whose contexts find no pair (R203). -/
def unplaceable (k : Kept) : List Nat := (placed k).filterMap fun q => if q.2 = none then some q.1 else none

/-! ## Fault collection across resets -/

/-- A card as words 0 and 1 of R234. -/
def cardWords (o : OpenCard) : List Word :=
  [w64 (o.source * 2 ^ 54 + o.kind.toNat * 2 ^ 48 + o.sev.toNat * 2 ^ 46 + o.inst.toNat * 2 ^ 38 +
     o.copyLane.toNat * 2 ^ 32 + o.merged.toNat * 2 ^ 16 + b2n o.forced), w64 o.address.toNat]

/-- The merge log of a card as words 8 to 11 (R245). -/
def mlogWords (o : OpenCard) : List Word :=
  (List.range 4).map fun i =>
    w64 ((List.range 4).foldl (fun a j => a + (o.mlog.getD (4 * i + j) 0#16).toNat * 2 ^ (16 * j)) 0)

/-- A closed card enters the fault log (R242, R245, R246). -/
def logCard (s : State) (o : OpenCard) (auto reset : Bool) : State :=
  let w6 := w64 (s.fcr.nextSeq.toNat * 2 ^ 32 + b2n auto * 128 + b2n o.ovf * 64 + b2n reset * 32 + b2n o.keyDone * 16 +
    b2n o.pinDone * 8 + o.action.toNat)
  let e : LogEntry := { seq := s.fcr.nextSeq
                        words := cardWords o ++ todWords o.tod ++ todWords s.tod ++ [w6, 0] ++ mlogWords o }
  let full := decide (1024 ≤ s.fcr.log.length)
  { s with fcr := { s.fcr with
      log := (if full then s.fcr.log.drop 1 else s.fcr.log) ++ [e]
      nextSeq := s.fcr.nextSeq + 1
      lost := if full then satInc s.fcr.lost else s.fcr.lost } }

/-- The open card of a severity. -/
def openCard (s : State) (sev : Nat) : Option OpenCard := s.fcr.cards.get sev none

/-- Every open card closes into the log before an M or W reset (R247). -/
def closeCards (s : State) : State :=
  (List.range 4).foldl (fun t v =>
    match openCard t v with
    | none => t
    | some o => logCard { t with fcr := { t.fcr with cards := t.fcr.cards.set v none } } o false true) s

/-! ## Boot (R358) -/

/-- Step 5 of R358: the host loader, the first-PC word and zeros to the end of its page, then context 0. -/
def loadHost (s : State) : State :=
  let s := s.store 0 (leBytes 8 Config.loaderEntry.toNat ++ List.replicate 4088 0#8)
  let s := s.store 0x1000 (bytesOf Config.loaderByte Config.loaderLength)
  let s := { s with crp := { s.crp with i3cIbi := some 3#8 } }
  releaseCtx s 0

/-- PIN of a reaction (R243): nERR asserted, the pulse restarted, HOLD set, and the I3C interrupt of R387. -/
def pinAssert (s : State) : State :=
  { s with fcr := { s.fcr with hold := true, pulse := true }, crp := { s.crp with i3cIbi := some 1#8 } }

/-- Steps 2 to 5 of R358 with R393: PLLs lock, the image is measured and started, the audit unit seals itself where the
fuse says so, channels are trained and context 0 is released. With no good image the service processor does not start. -/
def boot (s : State) (img : BootImage) : State :=
  let s := { s with crp := { s.crp with pll := 0x3F#6 } }
  let s := measure s 0x01 0 0 (bytesOf Config.romDigestByte 48)
  match img with
  | .none => pinAssert (card { s with crp := { s.crp with boot := .fwStart } } 321 1 0 0 0)
  | .slot n =>
    let v := Config.imageVersion n
    let s := measure s 0x02 0 n (bytesOf (Config.imageDigestByte v) 48)
    let s := { s with sp := { s.sp with fw := .running, running := v }
                      crp := { s.crp with boot := .running, kept := { s.crp.kept with flashSlot := n } } }
    let s := if s.crp.kept.sealFuse then enterSealed s true else s
    let s := { s with caches := { s.caches with l2del := s.crp.kept.l2del, l3del := s.crp.kept.l3del } }
    let s := (unplaceable s.crp.kept).foldl (fun t k => card t k 5 0 0 0) s
    loadHost s

/-! ## P and M resets -/

/-- The log entry of the card that ordered a reset follows the reset (R247). -/
def logOrdering (s : State) : State :=
  match s.fcr.ordering with
  | none => s
  | some o => logCard { s with fcr := { s.fcr with ordering := none } } o false false

/-- P reset (R356, R363): everything but the fuses, the non-volatile stores and what stands outside the module. -/
def pReset (s : State) : State :=
  { State.reset with
    pairs := pairsAtReset s.crp.kept
    memc := { Memc.reset with sizeGiB := s.memc.sizeGiB }
    ciph := { Ciph.reset with active := s.ciph.active }
    sp := { Sp.reset with staged := s.sp.staged, lastActivated := s.sp.lastActivated }
    crp := { Crp.reset with nresetLow := s.crp.nresetLow, us := s.crp.us, kept := s.crp.kept }
    zctx := s.zctx
    free := s.free
    pending := s.pending }

/-- M reset, without what follows it (R356, R359, R363). cause: CRP_RSTCAUSE[2:0]. -/
def mReset (s : State) (cause : BitVec 3) : State :=
  let s := closeCards (loseDirty s)
  { s with
    ctxs := []
    pairs := pairsAtReset s.crp.kept
    caches := { Caches.reset with l2del := s.caches.l2del, l3del := s.caches.l3del, poison := s.caches.poison }
    memc := { s.memc with cfg := Memc.reset.cfg, err := [], rebuilds := [], linkFails := []
                          ch := s.memc.ch.map fun q => (q.1, if q.2 = .rebuilding then .offline else q.2) }
    bus := .reset
    mbs := []
    sp := { Sp.reset with staged := s.sp.staged, lastActivated := s.sp.lastActivated }
    ert := { Ert.reset with ball := s.ert.ball }
    fcr := { s.fcr with inbox := [], cards := [], mcttgt := 1#32, forcecfg := 0, react := [], cnt := [] }
    chan := { Chan.reset with modid := s.chan.modid, mgmtUp := s.chan.mgmtUp }
    ports := []
    zips := []
    ciph := { Ciph.reset with alarm := s.ciph.alarm, alarmen := s.ciph.alarmen, active := s.ciph.active
                              erasing := s.ciph.erasing }
    insts := Insts.reset
    dup := Dup.reset
    time := Time.reset
    crp := { s.crp with boot := .mReset, pll := 0, cause := cause, resets := s.crp.resets + 1, brstat := 0, auto := 0
                        delay := 0x03E8#16, notify := false
                        sens := s.crp.sens.map fun q => (q.1, { q.2 with thr := Sens.reset.thr, outside := true })
                        sensTrip := 0 }
    aud := { Aud.reset with ir := s.aud.ir, csData := s.aud.csData, csDone := s.aud.csDone } }

/-- What follows an M reset once nothing holds it (R359): steps 2 to 5 of R358; the card that ordered it is logged. -/
def afterM (s : State) (img : BootImage) : State := boot (logOrdering s) img

/-! ## Block resets (R357) -/

/-- The block number of a block with a reset of its own (log entry 19). -/
def blkNumber : Blk → Nat
  | .ert => 36
  | .chan => 25
  | .zip n => 26 + n.val
  | .ciph => 30
  | .time => 32
  | .sp => 33

/-- A queue whose consumer is a block: control accesses into it, events for the ERT, jobs, time reads, commands. Jobs have
consumer 0 for the channel, 1 to 4 for Z0 to Z3, 5 and 6 for the clusters. -/
def consumesQueue (b : Blk) (q : QueueId) : Bool :=
  (decide (q.cls = .controlAccess) && decide (q.consumer = blkNumber b)) ||
    match b with
    | .ert => decide (q.cls = .event)
    | .chan => decide (q.cls = .engineJob) && decide (q.consumer = 0)
    | .zip n => decide (q.cls = .engineJob) && decide (q.consumer = n.val + 1)
    | .ciph => decide (q.cls = .engineJob) && decide (5 ≤ q.consumer)
    | .time => decide (q.cls = .timeRead)
    | .sp => decide (q.cls = .mailbox)

/-- Response classes (R14), whose consumers are the requesters. -/
def responseClass : QClass → Bool
  | .lineFill => true
  | .l3Data => true
  | .memData => true
  | .controlReturn => true
  | _ => false

/-- What a block reset does to the queues once it is complete (R20): the queues into the block are empty with every credit
at its producer, and the responses still to come for its own requests will be dropped at its boundary. -/
def creditReset (s : State) (b : Blk) : State :=
  let mine (q : Queue) : Bool :=
    responseClass q.id.cls && decide (q.id.cls ≠ .controlReturn) && decide (q.id.consumer = blkNumber b)
  { s with bus := { s.bus with
      queues := (s.bus.queues.filter fun q => !consumesQueue b q.id).map fun q =>
        if mine q then { q with dropping := q.reserved } else q } }

/-- Bit of a block in CRP_BRST (R372). -/
def blkBit : Blk → Nat
  | .ert => 0
  | .chan => 1
  | .zip n => 2 + n.val
  | .ciph => 6
  | .time => 7
  | .sp => 8

/-- The registers of the channel that its block reset restores (R273, R363), once every operation has ended (R360). The
channel is in reset no longer than this step, so its producers stop for no command (R20). -/
def chanRestore (s : State) : State :=
  let s := creditReset s .chan
  { s with
    chan := { s.chan with en := false, quiesce := false, seqstat := 0 }
    ports := s.ports.map fun q =>
      if q.1 < 4 then
        (q.1, { Port.reset with replays := q.2.replays, laneFails := q.2.laneFails, losses := q.2.losses })
      else q
    crp := { s.crp with brstat := setBit s.crp.brstat 1 false } }

/-- A block reset of the channel first refuses doorbells and waits for every accepted SEND to end (R360 step 2). -/
def chanQuiesced (s : State) : Bool := s.chan.quiesce && s.chan.sends.isEmpty

/-- Restart of the entropy source and the DRBG (R361). -/
def entropyReset (s : State) : State :=
  { s with time := { s.time with srcOk := false, drbgOk := false, rct := 0, apt := 0, ent := .starting, entFails := []
                                 seeded := false, drbgFail := false, requests := 0, health := .reset
                                 drbg := .reset, seedUs := s.crp.us } }

/-- SP block reset (R38, R361). -/
def spReset (s : State) : State :=
  let s := (mbActive s).foldl (fun t n => mbEnd t n 0x0A) s
  { s with sp := { s.sp with fw := .running, activateMb := none, warmMb := none } }

/-- A block reset (R357, R361). A reset of a block whose reset is in progress has no further effect. -/
def blockReset (s : State) (b : Blk) : State :=
  if bitOf s.crp.brstat (blkBit b) then s else
  match b with
  | .ert => releaseEvents (ertBlockReset (creditReset s .ert))
  | .chan =>
    let s := { s with chan := { s.chan with quiesce := true }
                      crp := { s.crp with brstat := setBit s.crp.brstat 1 true } }
    if chanQuiesced s then chanRestore s else s
  | .zip n => zipBlockReset (creditReset s (.zip n)) n.val
  | .ciph => ciphBlockReset (creditReset s .ciph)
  | .time => entropyReset (creditReset s .time)
  | .sp => spReset (creditReset s .sp)

/-! ## W reset (R360, R363) -/

/-- Every dirty line goes back and the caches are empty (R161, R360 step 4). -/
def flushAll (s : State) : State := setCaches s { s.caches with l1 := [], l2 := [], l3 := [], snoops := [] }

/-- A pair after a W reset (R209, R211): split pairs and hand-overs return to ACTIVE, the placement stays, and a pair of
the bench is in GATE again (R366). -/
def Pair.warm (q : Pair) : Pair :=
  let st := if q.st = .split ∨ q.st = .handover ∨ q.st = .substituting then .active else q.st
  { q with st := st, letcnt := 0, divcnt := 0, lastlet := .reset, group := 0, group1 := 0, subst := none, handover := none
           held := [], gated := decide (st ≠ .active), pred := [], predT := [] }

/-- Steps 3 to 7 of R360, after the channel is quiet. Every credit is at its producer again, and of what waited for one
only the fault cards are left, which the FCR takes (log entry 97). -/
def warmPerform (s : State) : State :=
  let s := { s with fcr := { s.fcr with inbox := s.fcr.inbox ++ s.bus.waitCards } }
  let s := (List.range 4).foldl zipBlockReset s
  let s := ciphBlockReset s
  let s := closeCards (flushAll s)
  let s := measure s 0x0D 3 0 zeroDigest
  let s := ertReset s
  let s := ctxNums.foldl ctxCReset s
  let s := entropyReset (chanRestore s)
  let s := { s with
    pairs := s.pairs.map fun q => (q.1, q.2.warm)
    caches := { s.caches with pctl := [], l3st := .off, l3inv := false }
    bus := .reset
    crp := { s.crp with cause := 4, resets := s.crp.resets + 1, brstat := 0 }
    aud := { s.aud with dbgEn := false, halt := 0, bps := [] } }
  loadHost s

/-- A context executes in the middle of a prefix unit (R360). -/
def midPrefix (s : State) (c : Nat) : Bool := (s.ctx c).rep && runnable s c

/-- Step 1 of R360: each context stops outside a prefix unit. When the last has stopped, the channel refuses doorbells. -/
def warmStops (s : State) : State :=
  match s.sp.warmMb with
  | none => s
  | some n =>
    let s := s.ctxs.foldl (fun t q =>
      if midPrefix t q.1 then t else t.setCtx q.1 { t.ctx q.1 with run := .stopped, entering := false }) s
    if ctxNums.any (midPrefix s) then s else mbProgress { s with chan := { s.chan with quiesce := true } } n 1

/-- The W reset completes once the channel has no accepted SEND left, and its command reaches DONE (R360). -/
def warmAdvance (s : State) : State :=
  match s.sp.warmMb with
  | some n =>
    if chanQuiesced s && !ctxNums.any (midPrefix s) then
      let s := warmPerform { s with sp := { s.sp with warmMb := none } }
      mbDone (mbProgress s n 7) n 0 [w64 (s.mb n).aux]
    else s
  | none => if chanQuiesced s && bitOf s.crp.brstat 1 then chanRestore s else s

end Sys2Proof.Machine
end

