-- ==== Sys2Proof/Machine/Fcr.lean ====
section
/-! DEFINITION. The fault collection and reaction unit (11): opening, merging and closing cards, reactions, and what ends
every command: the cards it sent are taken and a reset they order is performed. -/
namespace Sys2Proof.Machine

/-- FCR_REACTn (R248): at reset PIN for severity 3, with MCT for sources 64 to 81 and INT for the others. -/
def reactOf (s : State) (n : Nat) : Word :=
  s.fcr.react.get n (if 64 ≤ n ∧ n ≤ 81 then 0x0A000000#64 else 0x09000000#64)

/-- The control-space block of R24 that R356 lists for an offset. -/
def blkOfOffset (off : Nat) : Option Blk :=
  let m := off / 0x100000
  if off < 0x10000 then some .sp
  else if m = 1 then some .ert
  else if 0x040 ≤ m ∧ m < 0x050 then some .chan
  else if m = 0x050 then
    (if h : off / 0x10000 % 16 < 4 then some (.zip ⟨off / 0x10000 % 16, h⟩) else none)
  else if m = 0x060 then some .ciph
  else if m = 0x090 then some .time
  else none

/-- What a BLOCK reaction resets (R237, R357): a block, or the contexts of a pair. -/
inductive Target where
  | blk (b : Blk)
  | pair (p : Nat)
  | none
  deriving DecidableEq, Repr

/-- win: the address of a card of source 480 is an offset in the context register window, where R356 lists no block. -/
def blockTarget (source addr : Nat) (win : Bool) : Target :=
  if source < 18 then .pair source
  else if source < 36 then .pair (source - 18)
  else if 40 ≤ source ∧ source < 58 then .pair (source - 40)
  else if 64 ≤ source ∧ source < 82 then .pair (source - 64)
  else if source = 176 then .blk .chan
  else if h : 300 ≤ source ∧ source < 304 then .blk (.zip ⟨source - 300, by omega⟩)
  else if 304 ≤ source ∧ source ≤ 306 then .blk .ciph
  else if 310 ≤ source ∧ source ≤ 312 then .blk .time
  else if source = 320 then .blk .sp
  else if source = 333 then .blk .ert
  else if source = 480 ∧ win = false then
    (match blkOfOffset addr with
     | some b => .blk b
     | none => .none)
  else .none

/-- The number under which a card remembers a target; 99 for none. -/
def targetNo : Target → Nat
  | .blk b => blkBit b
  | .pair p => 16 + p
  | .none => 99

/-- Reset a target of a BLOCK reaction. -/
def resetTarget (s : State) : Target → State
  | .blk b => blockReset s b
  | .pair p => (pairCtxs s p).foldl ctxCReset s
  | .none => s

/-- A machine check becomes pending for a context and wakes it (R238). -/
def deliverMct (s : State) (c : Nat) : State :=
  let s := s.setCtx c { s.ctx c with mct := true }
  match placeOf s c with
  | some (p, _) => if (s.pair p).gated then gateExit s p else wakeCtx s c
  | none => s

/-- MCT of a card (R238): to its bound context, else to FCR_MCTTGT. -/
def mctCard (s : State) (c : CardIn) : State :=
  match c.bound with
  | some k => deliverMct s k
  | none => (ctxNums.filter fun k => bitOf s.fcr.mcttgt k).foldl deliverMct s

/-- The reaction of FCR_REACTn for a severity: ACTION, PIN, KEY_ERASE (R237, R248). -/
def actionOf (w : Word) (sev : Nat) : Nat := fld w (8 * sev + 2) (8 * sev)
def pinOf (w : Word) (sev : Nat) : Bool := bitOf w (8 * sev + 3)
def keyOf (w : Word) (sev : Nat) : Bool := bitOf w (8 * sev + 4)

/-- PIN and KEY_ERASE of a reaction (R243, R306). -/
def pinKey (s : State) (pin key : Bool) : State :=
  let s := if pin then pinAssert s else s
  if key then alarm s 7 else s

/-- A card as it opens (R240). -/
def newCard (s : State) (c : CardIn) (action : Nat) (pin key : Bool) : OpenCard :=
  { source := c.source, kind := c.kind, sev := c.sev, inst := c.inst, copyLane := c.copyLane, address := c.address
    forced := c.forced, merged := 0, tod := s.tod, mlog := [], ovf := false, action := BitVec.ofNat 3 action
    pinDone := pin, keyDone := key, blocks := [] }

def setCard (s : State) (sev : Nat) (o : Option OpenCard) : State :=
  { s with fcr := { s.fcr with cards := s.fcr.cards.set sev o } }

/-- A card opens in the empty slot of its severity and its reaction is performed (R237, R240); without INT or MCT it
closes itself. -/
def openNew (s : State) (c : CardIn) : State :=
  let w := reactOf s c.source
  let sev := c.sev.toNat
  let a := actionOf w sev
  let t := blockTarget c.source c.address.toNat c.win
  let o := newCard s c a (pinOf w sev) (keyOf w sev)
  let o := if a = 3 then { o with blocks := [targetNo t] } else o
  let s := pinKey s (pinOf w sev) (keyOf w sev)
  let s := if a = 3 then resetTarget s t else s
  if a = 1 then raise (setCard s sev (some o)) (264 + sev)
  else if a = 2 then mctCard (setCard s sev (some o)) c
  else logCard s o true false

/-- A card merges into the open card of its severity (R240). Of its reaction are performed: a BLOCK reset of a block not
yet reset for the card, PIN and KEY_ERASE, whether the open card's reaction had them or not (cycle 5,212 of the chapter's
example restarts the pulse; log entry 84), and MCT when the open card's action was not MCT or when it is context-bound. -/
def mergeCard (s : State) (o : OpenCard) (c : CardIn) : State :=
  let w := reactOf s c.source
  let sev := c.sev.toNat
  let a := actionOf w sev
  let t := blockTarget c.source c.address.toNat c.win
  let newBlock := decide (a = 3) && !o.blocks.contains (targetNo t)
  let newMct := decide (a = 2) && (decide (o.action ≠ 2) || c.bound.isSome)
  let full := decide (16 ≤ o.mlog.length)
  let o := { o with
    merged := satInc o.merged
    mlog := if full then o.mlog else o.mlog ++ [BitVec.ofNat 16 (c.source * 64 + c.kind.toNat)]
    ovf := o.ovf || full
    pinDone := o.pinDone || pinOf w sev
    keyDone := o.keyDone || keyOf w sev
    blocks := if newBlock then targetNo t :: o.blocks else o.blocks }
  let s := pinKey (setCard s sev (some o)) (pinOf w sev) (keyOf w sev)
  let s := if newBlock then resetTarget s t else s
  if newMct then mctCard s c else s

/-- A card whose ACTION is MODULE is never merged: it is recorded in FCR_LASTRESET; a further one in the same cycle sets
MULTI (R240, R248). -/
def orderModule (s : State) (c : CardIn) : State :=
  let w := reactOf s c.source
  let sev := c.sev.toNat
  let o := newCard s c 4 (pinOf w sev) (keyOf w sev)
  let s := pinKey s (pinOf w sev) (keyOf w sev)
  match s.fcr.ordering with
  | some _ => { s with fcr := { s.fcr with last0 := setBit s.fcr.last0 15 true } }
  | none =>
    { s with fcr := { s.fcr with ordering := some o, last0 := (cardWords o).getD 0 0, last1 := (cardWords o).getD 1 0 } }

/-- The FCR takes one card (R240). -/
def takeCard (s : State) (c : CardIn) : State :=
  if actionOf (reactOf s c.source) c.sev.toNat = 4 then orderModule s c
  else
    let s := { s with fcr := { s.fcr with cnt := s.fcr.cnt.set c.source (satInc (s.fcr.cnt.get c.source 0#32)) } }
    match openCard s c.sev.toNat with
    | none => openNew s c
    | some o => mergeCard s o c

/-- Cards of one cycle in ascending source number (R241). -/
def insertCard (c : CardIn) : List CardIn → List CardIn
  | [] => [c]
  | d :: r => if c.source < d.source then c :: d :: r else d :: insertCard c r

/-- The FCR takes every card in its queue (R241). -/
def takeAll (s : State) : State :=
  let l := s.fcr.inbox.foldl (fun a c => insertCard c a) []
  l.foldl takeCard { s with fcr := { s.fcr with inbox := [] } }

/-- A module reset that a card has ordered is performed (R247, R356, R359), with the image of the active flash slot. -/
def performModule (s : State) : State :=
  if s.fcr.ordering.isSome && s.live then
    let n : Fin 2 := if s.crp.kept.flashSlot = 0 then 0 else 1
    afterM (mReset s 2) (.slot n)
  else s

/-- Nothing is left to do at the end of a command: no card in the FCR's queue, no module reset ordered, no channel reset
waiting for a channel that has become quiet. -/
def quiet (s : State) : Bool := s.fcr.inbox.isEmpty && s.fcr.ordering.isNone && !chanQuiesced s

/-- Rounds of what follows a command: cards taken, resets performed. -/
def settleRounds : Nat → State → State
  | 0, s => s
  | k + 1, s => if quiet s then s else settleRounds k (warmAdvance (performModule (takeAll s)))

/-- The end of a command (log entry 5): the cards it sent and what they order. -/
def settle (s : State) : State := if quiet s then s else settleRounds 4 s

/-- A command of the always-on domain. -/
def done (t : State) : Res := .next (settle t)

/-- A command that acts while the module runs; before boot and under reset it does nothing (R358, R378, log entry 2). -/
def act (s t : State) : Res := if s.live then .next (settle t) else .next s

/-- Close the card of a severity (R241, R242); an empty slot changes nothing. -/
def closeCard (s : State) (sev : Nat) : State :=
  match openCard s sev with
  | none => s
  | some o => logCard (setCard s sev none) o false false

/-- Cards injected through FCR_FORCEk (R244). -/
def forceCards (s : State) (k : Nat) (v : Word) : State :=
  let w := s.fcr.forcecfg
  (List.range 64).foldl (fun t j =>
    if bitOf v j then
      sendCard t { source := 64 * k + j, kind := w.extractLsb' 52 6, sev := w.extractLsb' 58 2, inst := 0, copyLane := 0
                   address := w.extractLsb' 0 52, bound := none, forced := true, win := false }
    else t) s

/-- A card for a control access (R26, R236): kind 0Ah to 0Eh, the requester's instance, the offset. -/
def accessCard (s : State) (r : Req) (kind off : Nat) : State := card s 480 kind (reqInst s r) 0 off

end Sys2Proof.Machine
end

