-- ==== Sys2Proof/Machine/Buckets.lean ====
section
/-! DEFINITION. Existence of instances, their token buckets and their weights (15). -/
namespace Sys2Proof.Machine

/-- The shared engines with a bucket (R314): 0 channel, 1 to 4 the compression engines, 5 and 6 the clusters. -/
def bucketReg (s : State) (i key : Nat) : Word :=
  let x := s.inst i
  if key = 0 then x.bktch else if key < 5 then x.bktz else x.bktk

/-- RATE of an instance's bucket in an engine (R313). -/
def rateOf (s : State) (i key : Nat) : Nat := fld (bucketReg s i key) 63 32

/-- Most tokens a bucket holds (R314). -/
def burstOf (s : State) (i key : Nat) : Int := (fld (bucketReg s i key) 23 0 * 1024 : Nat)

/-- A RATE of FFFF_FFFFh sets no limit (R314). -/
def unlimited (s : State) (i key : Nat) : Bool := decide (rateOf s i key = 0xFFFFFFFF)

/-- The token count of an instance in an engine. -/
def tokensOf (s : State) (i key : Nat) : Int := (s.inst i).tokens.get key 0

/-- Replace a token count. -/
def setTokens (s : State) (i key : Nat) (v : Int) : State :=
  s.setInst i { s.inst i with tokens := (s.inst i).tokens.set key v }

/-- An instance is admitted in an engine (R314); a channel rate of 0 admits no C0 (R313). -/
def admitted (s : State) (i key : Nat) : Bool :=
  unlimited s i key || (decide (0 < tokensOf s i key) && !(decide (key = 0) && decide (rateOf s i 0 = 0)))

/-- A bucket is charged after the work was served (R314). -/
def charge (s : State) (i key n : Nat) : State :=
  if unlimited s i key then s else setTokens s i key (tokensOf s i key - (n : Int))

/-- A weight of an instance: byte 0 channel, 1 compression, 2 cipher (R313). -/
def weightOf (s : State) (i byte : Nat) : Nat := max 1 (fld (s.inst i).weight (8 * byte + 6) (8 * byte))

/-- The virtual times are kept in units of 64 charges / weightScale, so that every division by a weight of 1 to 64 is
exact (R315). -/
def weightScale : Nat := 1182266884102822267511361600

/-- What a charge adds to a virtual time (R315). -/
def vtStep (amount weight : Nat) : Nat := amount * 64 * (weightScale / weight)

/-- The candidate with the smallest virtual time; ties go to the first of an ascending list (R315). -/
def pickSmallest (vt : Nat → Nat) : List Nat → Option Nat
  | [] => none
  | i :: r =>
    match pickSmallest vt r with
    | none => some i
    | some j => if vt j < vt i then some j else some i

/-- One bucket gains RATE, up to its burst (R314). -/
def refillOne (s : State) (i key : Nat) : State :=
  let up := tokensOf s i key + (rateOf s i key : Int)
  setTokens s i key (min up (burstOf s i key))

/-- A compression engine or cluster has work of an instance queued. -/
def engineBusy (s : State) (i key : Nat) : Bool :=
  if key < 5 then (s.zip (key - 1)).queue.any fun j => decide (j.inst.toNat = i)
  else (s.ciph.queue.get (key - 5) []).any fun j => decide (j.inst.toNat = i)

/-- The engines in which an instance has work queued and is not admitted. -/
def starved (s : State) (i : Nat) (keys : List Nat) : Nat :=
  (keys.filter fun k => engineBusy s i k && !admitted s i k).length

/-- The instances that exist (R309). -/
def existing (s : State) : List Nat := (List.range 256).filter fun i => (s.inst i).present

/-- One microsecond of one instance's buckets (R314, R322). -/
def refillInst (s : State) (i : Nat) : State :=
  let z := starved s i [1, 2, 3, 4]
  let k := starved s i [5, 6]
  let s := s.setInst i { s.inst i with thrz := satAdd (s.inst i).thrz z, thrk := satAdd (s.inst i).thrk k }
  [0, 1, 2, 3, 4, 5, 6].foldl (fun t key => refillOne t i key) s

/-- BUCKET_REFILL (R314): 1 µs has passed, and with it 1 µs of the module's count of time. -/
def execBucketRefill (s : State) : Res :=
  act s ((existing s).foldl refillInst { s with crp := { s.crp with us := s.crp.us + 1 } })

end Sys2Proof.Machine
end

