-- ==== Sys2Proof/Machine/Window.lean ====
section
/-! DEFINITION. The context register window (R55 to R61) and the slot windows of the pairs (R212). -/
namespace Sys2Proof.Machine

/-- First address of the frame window: S with bits [2:0] cleared (R142). -/
def Ctx.frameBase (x : Ctx) : Nat := x.s.toNat / 8 * 8

/-- An address lies in the frame window (R142). -/
def inFrame (base a : Nat) : Bool := decide (wrap64 (a + 2 ^ 64 - base) < 512)

/-- S has changed: operand-file entries outside the new window are dropped (R142). -/
def Ctx.trim (x : Ctx) : Ctx := { x with opfile := x.opfile.filter fun e => inFrame x.frameBase e.va }

/-- A new value of S in the current bank, with the window moved (R142). -/
def Ctx.moveS (x : Ctx) (v : Word) : Ctx := (x.setS v).trim

/-- Every operand-file entry is dropped (R145). -/
def Ctx.dropOps (x : Ctx) : Ctx := { x with opfile := [] }

/-- A kept translation covers a virtual address (R61). -/
def TlbEntry.covers (e : TlbEntry) (va : Nat) : Bool := decide (va / 2 ^ e.bits = e.va / 2 ^ e.bits)

/-- The low 57 bits of an address. -/
def va57 (n : Nat) : Nat := n % 2 ^ 57

/-- CTX_TLBINV (R61): every translation, or those covering the address in bits [56:12]. -/
def Ctx.tlbInv (x : Ctx) (v : Word) : Ctx :=
  { x with tlb := if bitOf v 0 then [] else x.tlb.filter fun e => !e.covers (va57 v.toNat) }.dropOps

/-- CTX_TTB (R58, R61). -/
def Ctx.setTtb (x : Ctx) (v : Word) : Ctx := { x with ttb := v &&& 0x000FFFFFFFFFF001#64, tlb := [] }.dropOps

/-- The bits of PS that a write through CTX_PSU (R56) and CTX_PS change. -/
def psuMask : Word := 0x87FF#64
def psMask : Word := 0xC7FF#64

/-- Bits of one word where a mask is set, of another elsewhere. -/
def blend (old v m : Word) : Word := (old &&& ~~~m) ||| (v &&& m)

/-- A register of the window exists at an offset (R56). -/
def winMapped (off : Nat) : Bool :=
  [0x0000, 0x0008, 0x0010, 0x1000, 0x1008, 0x1010, 0x1018, 0x1020, 0x1028, 0x2000, 0x2008].contains off

/-- The value of a window register of context c (R56). -/
def winRead (s : State) (c off : Nat) : Word :=
  let x := s.ctx c
  if off = 0x0000 then x.fpsr
  else if off = 0x0008 then psOf s c
  else if off = 0x0010 then w64 (s.owner c * 256 + c)
  else if off = 0x1000 then psOf s c
  else if off = 0x1008 then x.vbaseS
  else if off = 0x1010 then x.ttb
  else if off = 0x1020 then x.su
  else if off = 0x1028 then x.ss
  else if off = 0x2000 then x.vbaseH
  else if off = 0x2008 then x.sh
  else 0

/-- A write to a window register (R56, R57, R61); reserved bits are dropped. -/
def Ctx.winWrite (x : Ctx) (off : Nat) (v : Word) : Ctx :=
  if off = 0x0000 then (if fld v 10 8 ≤ 4 then { x with fpsr := v &&& 0x73F#64 } else x)
  else if off = 0x0008 then { x with ps := blend x.ps v psuMask }
  else if off = 0x1000 then { x with ps := blend x.ps v psMask }
  else if off = 0x1008 then { x with vbaseS := v &&& ~~~0xFFF#64 }
  else if off = 0x1010 then x.setTtb v
  else if off = 0x1018 then x.tlbInv v
  else if off = 0x1020 then { x with su := v }.trim
  else if off = 0x1028 then { x with ss := v }.trim
  else if off = 0x2000 then { x with vbaseH := v &&& ~~~0xFFF#64 }
  else if off = 0x2008 then { x with sh := v }.trim
  else x

/-- A store by the context holds a reserved value (R57). -/
def winReserved (off : Nat) (v : Word) : Bool :=
  if off = 0x0000 then decide (v &&& ~~~0x73F#64 ≠ 0) || decide (4 < fld v 10 8)
  else if off = 0x0008 ∨ off = 0x1000 then decide (v &&& 0xFFFFFFFF00FC0800#64 ≠ 0)
  else false

/-- A register of a slot window exists at an offset (R212). -/
def slotMapped (off : Nat) : Bool := winMapped off || [0x3000, 0x3008, 0x3010, 0x3018].contains off

/-- The value of a slot-window register (R212). -/
def slotRead (s : State) (c off : Nat) : Word :=
  let x := s.ctx c
  if off = 0x3000 then x.pc
  else if off = 0x3008 then x.a
  else if off = 0x3010 then x.x
  else if off = 0x3018 then x.y
  else winRead s c off

/-- PC as every load of PC leaves it (R85). -/
def evenPc (v : Word) : Word := v &&& ~~~1#64

/-- A write to a slot-window register (R212). -/
def Ctx.slotWrite (x : Ctx) (off : Nat) (v : Word) : Ctx :=
  if off = 0x3000 then { x with pc := evenPc v, rep := false }
  else if off = 0x3008 then { x with a := v }
  else if off = 0x3010 then { x with x := v }
  else if off = 0x3018 then { x with y := v }
  else x.winWrite off v

/-- A slot-window write reaches its context (R212). -/
def slotStore (s : State) (p : Nat) (slot : Bool) (off : Nat) (v : Word) : State :=
  match slotCtx s p slot with
  | none => s
  | some c => s.setCtx c ((s.ctx c).slotWrite off v)

/-- Control-space offset of a slot-window register (R210). -/
def slotOff (p : Nat) (slot : Bool) (off : Nat) : Nat := 0x1008000 + p * 0x10000 + b2n slot * 0x4000 + off

/-- SLOT_PC, SLOT_A, SLOT_X and SLOT_Y are written only while the context is STOPPED (R212). -/
def slotLocked (s : State) (p : Nat) (slot : Bool) (off : Nat) : Bool :=
  match slotCtx s p slot with
  | none => false
  | some c => decide (0x3000 ≤ off) && decide ((s.ctx c).run ≠ .stopped)

/-- CTX_TLBINV_WRITE (R61): the context's store takes effect. -/
def execCtxTlbinvWrite (c : Fin 32) (v : Word) (s : State) : Res := act s (s.setCtx c ((s.ctx c).tlbInv v))

/-- CTX_TTB_WRITE (R58, R61). -/
def execCtxTtbWrite (c : Fin 32) (v : Word) (s : State) : Res := act s (s.setCtx c ((s.ctx c).setTtb v))

/-- OPERAND_ENTRY_AGE_OUT (R144): an entry at 65,536 cycles of age is dropped. -/
def execOperandEntryAgeOut (c : Fin 32) (slot : Word) (s : State) : Res :=
  let x := s.ctx c
  act s (s.setCtx c { x with opfile := x.opfile.filter fun e => decide (e.va ≠ slot.toNat / 8 * 8) })

end Sys2Proof.Machine
end

