-- ==== Sys2Proof/Machine/Pairs.lean ====
section
/-! DEFINITION. Core pairs (09): lets, substitution, split and join, GATE (R366, R367). -/
namespace Sys2Proof.Machine

/-- STATE of a pair changes and its event is raised (R213). -/
def movePair (s : State) (p : Nat) (st : PairSt) : State :=
  if (s.pair p).st = st then s else raise (s.setPair p { s.pair p with st := st }) (288 + p)

/-- A pair that retires and compares: ACTIVE or SPLIT with a context (R196). -/
def pairWorks (s : State) (p : Nat) : Bool :=
  let q := s.pair p
  (decide (q.st = .active) || decide (q.st = .split)) && !(pairCtxs s p).isEmpty

/-- Speculative history returns to the retired one (R150, R189). -/
def Ctx.unspeculate (x : Ctx) : Ctx := { x with histSpec := x.hist, rasSpec := x.ras }

/-- Lets counted on the group of a slot (R191). -/
def Pair.groupOf (q : Pair) (slot : Bool) : Nat := if slot then q.group1 else q.group

/-- The count of a slot's group replaced. -/
def Pair.setGroup (q : Pair) (slot : Bool) (n : Nat) : Pair := if slot then { q with group1 := n } else { q with group := n }

/-- A pair enters or leaves GATE, which raises ERT source 307 while NOTIFY = 1 (R367). -/
def gateTo (s : State) (p : Nat) (b : Bool) : State :=
  if (s.pair p).gated = b then s
  else
    let s := s.setPair p { s.pair p with gated := b }
    if s.crp.notify then raise s 307 else s

/-- The bench pair a substitution takes: the lowest BENCH pair that is not failed and not taken by another (R200). -/
def benchPair (s : State) : Option Nat :=
  pairNums.find? fun b => decide ((s.pair b).st = .bench) && !(s.pair b).failed &&
    !pairNums.any fun p => decide ((s.pair p).subst.bind (·.bench) = some b)

/-- Record a fenced pair in the repair list (R203). -/
def recordFenced (s : State) (p : Nat) : State :=
  if p ∈ s.crp.kept.fenced then s
  else { s with crp := { s.crp with kept := { s.crp.kept with fenced := p :: s.crp.kept.fenced } } }

/-! ## Registers of a PAIR block, and the accesses held for them (R202, R210 to R212) -/

/-- STATE of PAIRn_STATE (R211). -/
def PairSt.code : PairSt → Nat
  | .active => 0
  | .bench => 1
  | .substituting => 2
  | .fenced => 3
  | .split => 4
  | .handover => 5

/-- SLOTk_RUN (R211). -/
def Run.code : Run → Nat
  | .stopped => 0
  | .run => 1
  | .nap => 2

/-- A slot access is held until a substitution or a hand-over ends (R202). -/
def slotHeld (s : State) (p : Nat) : Bool := decide ((s.pair p).st = .substituting) || decide ((s.pair p).st = .handover)

/-- One slot of PAIRn_STATE (R211): valid on ACTIVE, SPLIT and FENCED pairs. -/
def slotField (s : State) (p : Nat) (k : Bool) : Nat :=
  match slotCtx s p k with
  | none => 0
  | some c => if slotHeld s p then 0 else c + 32 + (s.ctx c).run.code * 64

/-- PAIRn_STATE (R211). -/
def pairStateVal (s : State) (p : Nat) : Word :=
  let q := s.pair p
  w64 (q.st.code + b2n q.failed * 8 + slotField s p false * 2 ^ 8 + slotField s p true * 2 ^ 16)

/-- PAIRn_LASTLET (R210). -/
def lastletVal (l : LastLet) : Word :=
  w64 (l.reason.toNat * 2 ^ 61 + b2n l.copy * 2 ^ 60 + l.count.toNat * 2 ^ 58 + b2n l.slot * 2 ^ 57 + l.pc.toNat)

/-- A read of w bytes from byte lo covers bytes a to b (R8, R25). -/
def covers (lo w a b : Nat) : Bool := decide (lo ≤ a) && decide (b < lo + w)

/-- A read-clears field of bytes a to b after a read. -/
def cleared {n : Nat} (lo w a b : Nat) (v : BitVec n) : BitVec n := if covers lo w a b then 0 else v

/-- A read of w bytes at an offset of a PAIR block (R210, R212). -/
def pairBlockRead (s : State) (p off w : Nat) : State × Word :=
  let lo := off % 8
  let o := off / 8 * 8
  let pick (v : Word) : Word := (v >>> (8 * lo)) &&& w64 (2 ^ (8 * w) - 1)
  let q := s.pair p
  if o = 0 then (s, pick (pairStateVal s p))
  else if o = 8 then (s.setPair p { q with letcnt := cleared lo w 0 3 q.letcnt }, pick (w64 q.letcnt.toNat))
  else if o = 0x10 then (s.setPair p { q with divcnt := cleared lo w 0 3 q.divcnt }, pick (w64 q.divcnt.toNat))
  else if o = 0x18 then (s, pick (lastletVal q.lastlet))
  else
    match slotCtx s p (decide (0xC000 ≤ o)) with
    | none => (s, 0)
    | some c => (s, pick (slotRead s c (o % 0x4000)))

/-- The value of a read reaches its requester (R25, R399). -/
def readDone (s : State) (r : Req) (v : Word) : State :=
  match r with
  | .jtag => { s with aud := { s.aud with csData := v, csDone := true } }
  | _ => { s with bus := { s.bus with cpl := .data v } }

/-- A held access is performed (R202): one of a slot window on pair b, where the contexts are, any other on pair p. -/
def performOne (p b : Nat) (s : State) (h : HeldAccess) : State :=
  let k := decide (0xC000 ≤ h.off)
  let o := h.off % 0x4000
  if !h.write then
    let t := pairBlockRead s (if 0x8000 ≤ h.off then b else p) h.off h.w
    readDone t.1 h.req t.2
  else
    let s := if slotLocked s b k o then card s 480 0x0C h.inst 0 (slotOff p k o) else slotStore s b k o h.v
    match h.req with
    | .jtag => { s with aud := { s.aud with csDone := true } }
    | _ => s

/-- Held accesses are performed in order (R202). -/
def performHeld (s : State) (p b : Nat) (l : List HeldAccess) : State := l.foldl (performOne p b) s

/-! ## Substitution -/

/-- No bench pair is left (R204): the pair is fenced and its contexts stop at their checkpoint, still on it; a SUBSTITUTE
that began it fails (R44). -/
def stopPair (s : State) (p : Nat) : State :=
  let h := (s.pair p).held
  let mb := (s.pair p).subst.bind (·.mb)
  let s := recordFenced s p
  let s := (pairCtxs s p).foldl (fun t c => t.setCtx c { t.ctx c with run := .stopped, entering := false }) s
  let s := movePair (s.setPair p { s.pair p with subst := none, group := 0, group1 := 0, held := [] }) p .fenced
  let s := card (performHeld (gateTo s p true) p p h) p 5 0 0 0
  match mb with
  | none => s
  | some n => mbFail s n 0x41 []

/-- The substitution in progress that waits for a bench pair and was held first (R205). -/
def waitingSubst (s : State) : Option Nat :=
  let turn (p : Nat) : Nat := ((s.pair p).subst.map (·.turn)).getD 0
  let l := pairNums.filter fun p => decide ((s.pair p).subst.map (·.bench) = some none)
  l.foldl (fun b p =>
    match b with
    | none => some p
    | some q => if turn p < turn q then some p else some q) none

/-- Some substitution has its bench pair. -/
def substServed (s : State) : Bool := pairNums.any fun p => ((s.pair p).subst.bind (·.bench)).isSome

/-- The service processor serves the substitutions one after the other in the order in which the pairs were held (R200,
R204, R205; log entry 100). -/
def serveSubsts : Nat → State → State
  | 0, s => s
  | k + 1, s =>
    if substServed s then s else
    match waitingSubst s with
    | none => s
    | some p =>
      match benchPair s with
      | none => serveSubsts k (stopPair s p)
      | some b =>
        let told := ((s.pair p).subst.map (·.told)).getD false
        let s := s.setPair p { s.pair p with subst := (s.pair p).subst.map fun u => { u with bench := some b, told := true } }
        let s := gateTo s b false
        if told then s else card s p 4 0 0 b

/-- A substitution of pair p begins (R200, R204, R205). -/
def beginSubst (s : State) (p : Nat) (mb : Option Nat) : State :=
  if (s.pair p).st = .substituting then s
  else if (benchPair s).isNone && !substServed s then stopPair s p
  else
    let turn := pairNums.foldl (fun m q => max m (((s.pair q).subst.map (·.turn)).getD 0)) 0 + 1
    let s := movePair s p .substituting
    let s := s.setPair p { s.pair p with subst := some { bench := none, told := false, passed := false, mb := mb, turn := turn }, group := 0
                                         group1 := 0 }
    serveSubsts 18 s

/-! ## Lets -/

/-- REASON of PAIRn_LASTLET (R210). -/
def letReason (cause : LetCause) (async : Bool) : Nat :=
  if async then 7 else
  match cause with
  | .miscompareWrite => 0
  | .miscompareStore => 1
  | .miscompareRequest => 2
  | .miscompareLine _ _ => 3
  | .parity => 4
  | .cacheError => 4
  | .stagger => 5

/-- Kind of the card of a let (R196); none for a let that R176 reports. -/
def letKind : LetCause → Option Nat
  | .miscompareWrite => some 1
  | .miscompareStore => some 1
  | .miscompareRequest => some 1
  | .miscompareLine _ _ => none
  | .parity => some 2
  | .stagger => some 3
  | .cacheError => none

/-- Only parity and ECC errors make a copy of a split pair let (R207). -/
def letsSplit : LetCause → Bool
  | .parity => true
  | .cacheError => true
  | _ => false

/-- The contexts that roll back (R190, R207): both, or on a split pair that of the copy. -/
def letCtxs (s : State) (p : Nat) (slot : Bool) : List Nat :=
  if (s.pair p).st = .split then (slotCtx s p slot).toList else pairCtxs s p

/-- One let on the group of a slot (R190, R191, R194, R196, R207, R210). The fourth on one group finds that its third let
has failed: it leads to substitution, or stops a copy's context, and is counted, recorded and reported as no let of its own
(log entry 28). -/
def letRun (s : State) (p : Nat) (cause : LetCause) (copy slot async : Bool) : State :=
  let q := s.pair p
  let split := decide (q.st = .split)
  let g := q.groupOf slot
  let c := (slotCtx s p slot).getD 0
  if 3 ≤ g then
    if split then
      let s := s.setCtx c { s.ctx c with run := .stopped }
      card (s.setPair p (q.setGroup slot 0)) p 6 (s.owner c) (b2n copy) 0
    else beginSubst s p none
  else
    let named := decide (letReason cause async = 4) && copy
    let s := (letCtxs s p slot).foldl (fun t k => t.setCtx k (t.ctx k).unspeculate) s
    let s := s.setPair p (({ q with
      letcnt := if async then q.letcnt else satInc q.letcnt
      divcnt := if async then satInc q.divcnt else q.divcnt
      lastlet := { reason := BitVec.ofNat 3 (letReason cause async), copy := named, count := BitVec.ofNat 2 (g + 1)
                   slot := slot, pc := (s.ctx c).pc.setWidth 57 } } : Pair).setGroup slot (g + 1))
    match (if async then none else letKind cause) with
    | none => s
    | some k => card s p k (s.owner c) (if k = 2 then b2n copy else 0) 0

/-- A line that leaves the L2 and differs between the copies (R195, R176): a clean one is discarded and not installed in
the L3; a dirty one is taken from the copy that passes its code, and a let follows; where both pass it is written
poisoned. -/
def lineDiffers (s : State) (p line : Nat) (bothPass copy slot : Bool) : State :=
  match l2Find s p line with
  | none => s
  | some l =>
    let t := dropL2 s p line
    if !l.dirty then card t p 7 l.inst.toNat 0 (line * 128)
    else if bothPass then card (addPoison (l3Insert t line l.inst true) line) p 8 l.inst.toNat 0 (line * 128)
    else
      letRun (card (l3Insert t line l.inst true) (64 + p) 4 l.inst.toNat (b2n copy) (line * 128)) p
        (.miscompareLine 0 false) copy slot false

/-- One let of a pair (R190, R195, R207). -/
def letPair (s : State) (p : Nat) (cause : LetCause) (copy slot async : Bool) : State :=
  let split := decide ((s.pair p).st = .split)
  if !pairWorks s p || (split && !letsSplit cause) then s else
  match cause with
  | .miscompareLine line bothPass => lineDiffers s p line bothPass copy slot
  | _ => letRun s p cause copy (if split then copy else slot) async

/-- A let for an error outside both copies: R19 names no copy for it, so the copy is free (log entry 6). -/
def letUnnamed (s : State) (p : Nat) (slot : Bool) : State :=
  letPair s.drawn p .parity (Config.freeBool s.free) slot false

/-- A retirement group of a slot compares equal: its count of lets returns to 0 (R191). -/
def groupRetired (s : State) (p : Nat) (slot : Bool) : State :=
  if (s.pair p).groupOf slot = 0 then s else s.setPair p ((s.pair p).setGroup slot 0)

/-- The contexts of pair p resume on pair b (R200, R201): caches, translations and predictor start empty there. -/
def resumeOn (s : State) (p b : Nat) : State :=
  let h := (s.pair p).held
  let s := recordFenced (drainL2 s p) p
  let q := s.pair p
  let cold (x : Ctx) : Ctx := { x with tlb := [] }
  let s := (pairCtxs s p).foldl (fun t c => t.setCtx c (cold (t.ctx c))) s
  let s := (s.setPctl b (s.pctl p)).setPctl p .reset
  let s := s.setPair b { s.pair b with slot0 := q.slot0, slot1 := q.slot1, gated := false, pred := [], predT := [] }
  let s := movePair s b .active
  let s := movePair (s.setPair p { s.pair p with subst := none, slot0 := none, slot1 := none, held := [], pred := []
                                                 predT := [] }) p .fenced
  performHeld (gateTo s p true) p b h

/-- A pair's L2 and its L1s hold no valid line after GATE (R175). -/
def gateEnter (s : State) (p : Nat) : State :=
  let s := drainL2 s p
  let s := (pairCtxs s p).foldl (fun t c => t.setCtx c (t.ctx c).gateLoss) s
  gateTo (s.setPair p { s.pair p with pred := [], predT := [] }) p true

/-! ## The queues of a pair that splits or joins (R206, R208) -/

/-- The requester number of a pair's own queue, with 18 added for copy T. -/
def pairQueue (q : QueueId) : Option Nat :=
  match q.cls with
  | .lineRequest => some q.producer
  | .writeback => some q.producer
  | .lineFill => some q.consumer
  | _ => none

/-- The credits of R17 for a pair, half of them for a copy of a split pair. -/
def pairCredits (s : State) (o : Nat) (cls : QClass) : Nat :=
  let full :=
    match cls with
    | .lineRequest => 48
    | .lineFill => 64
    | .writeback => 16
    | _ => 0
  if (s.pair (o % 18)).st = .split then full / 2 else full

/-- A queue of copy T as a queue of the pair. -/
def asPair (q : Queue) : Queue :=
  match q.id.cls with
  | .lineFill => { q with id := { q.id with consumer := q.id.consumer % 18 } }
  | _ => { q with id := { q.id with producer := q.id.producer % 18 } }

/-- A queue joins those of the same name. -/
def addQueue (l : List Queue) (q : Queue) : List Queue :=
  if l.any fun x => decide (x.id = q.id) then
    l.map fun x => if x.id = q.id then { x with held := x.held + q.held, reserved := x.reserved + q.reserved } else x
  else q :: l

/-- What is held stays with copy L, or with the pair, and every counter takes the count that is then its own. -/
def shareCredits (s : State) (p : Nat) : State :=
  let mine (q : Queue) : Bool := decide ((pairQueue q.id).map (· % 18) = some p)
  let l := (s.bus.queues.filter mine).foldl (fun a q => addQueue a (asPair q)) []
  { s with bus := { s.bus with
      queues := s.bus.queues.filter (fun q => !mine q) ++ l.map fun q =>
        { q with credits := pairCredits s p q.id.cls - q.held } } }

/-- Each valid slot holds a context in NAP or STOPPED (R366). -/
def pairIdle (s : State) (p : Nat) : Bool := (pairCtxs s p).all fun c => decide ((s.ctx c).run ≠ .run)

/-! ## Commands -/

/-- LET (R190, R191). -/
def execLetRollback (p : Fin 18) (cause : LetCause) (copy slot async : Bool) (s : State) : Res :=
  act s (letPair s p cause copy slot async)

/-- UMPIRE_CODE_ERROR (R198, R205, R210): the card, then substitution with no let; PAIRn_LASTLET names the group whose
compare failed. -/
def execUmpireCodeError (p : Fin 18) (s : State) (slot : Bool := false) : Res :=
  let q := s.pair p
  act s (if q.st = .substituting then card s (40 + p) 1 0 0 0
    else if pairWorks s p && decide (q.st = .active) then
      let s := card s (40 + p) 1 0 0 0
      let s := (pairCtxs s p).foldl (fun t k => t.setCtx k (t.ctx k).unspeculate) s
      beginSubst (s.setPair p { q with lastlet :=
        { reason := 6, copy := false, count := BitVec.ofNat 2 (q.groupOf slot), slot := slot
          pc := (s.ctx ((slotCtx s p slot).getD 0)).pc.setWidth 57 } }) p none
    else s)

/-- BENCH_SELF_TEST_DONE (R200, R204): a pair that fails is fenced and the next bench pair is tried. -/
def execBenchSelfTestDone (b : Fin 18) (pass : Bool) (s : State) : Res :=
  act s (match pairNums.find? fun p => decide ((s.pair p).subst.bind (·.bench) = some b.val) with
    | none => s
    | some p =>
      if pass then s.setPair p { s.pair p with subst := (s.pair p).subst.map fun u => { u with passed := true } }
      else
        let s := recordFenced (movePair (s.setPair b { s.pair b with failed := true }) b .fenced) b
        let s := { s with crp := { s.crp with kept := { s.crp.kept with failedPairs := b.val :: s.crp.kept.failedPairs } } }
        let s := gateTo s b true
        serveSubsts 18 (s.setPair p { s.pair p with subst := (s.pair p).subst.map fun u => { u with bench := none } }))

/-- SUBSTITUTION_RESUME (R200, R201, R205); the substitution held next is served. -/
def execSubstitutionResume (p : Fin 18) (pauseNs : Nat) (s : State) : Res :=
  act s (match (s.pair p).subst with
    | none => s
    | some u =>
      match u.bench with
      | none => s
      | some b =>
        if !u.passed then s
        else
          let s := resumeOn s p b
          let s :=
            match u.mb with
            | none => s
            | some n => mbDone (mbProgress s n 2) n 0 [w64 b, w64 pauseNs]
          serveSubsts 18 s)

/-- HANDOVER_COMPLETE (R206, R208): the copies of a pair that splits go on with their own L2, predictor and credits; a pair
that joins has written both L2s back and flushed both predictors. -/
def execHandoverComplete (p : Fin 18) (s : State) : Res :=
  act s (match (s.pair p).handover with
    | none => s
    | some h =>
      let held := (s.pair p).held
      let s := if h.toSplit then splitL2 s p else drainL2 s p
      let pred := (s.pair p).pred
      let q := { s.pair p with handover := none, held := [], pred := if h.toSplit then pred else []
                               predT := if h.toSplit then pred else [] }
      let s := shareCredits (movePair (s.setPair p q) p (if h.toSplit then .split else .active)) p
      let s := performHeld s p p held
      match h.mb with
      | none => s
      | some n => mbDone (mbProgress s n (pairCtxs s p).length) n 0 (todWords s.tod))

/-- GATE_ENTRY (R366, R367): a wake source before VCORE is off abandons the entry, with the lines clean. -/
def execGateEntry (p : Fin 18) (wakeBeforeOff : Bool) (s : State) : Res :=
  let q := s.pair p
  act s (if bitOf s.crp.auto p && !q.gated && (decide (q.st = .active) || decide (q.st = .split)) && pairIdle s p then
      (if wakeBeforeOff then cleanL2 s p else gateEnter s p)
    else s)

/-- GATE_EXIT (R367). -/
def execGateExit (p : Fin 18) (s : State) : Res := act s (gateExit s p)

/-- NAP_WAKE (R364): the context leaves NAP when a wake source waits; a debug halt then stops it. -/
def execNapWake (c : Fin 32) (s : State) : Res :=
  act s (if wakeSource s c then haltNow (wakeCtx s c) c else s)

/-- CONTEXT_RESET (R362). -/
def execContextReset (c : Fin 32) (s : State) : Res := act s (ctxCReset s c)

/-- CONTEXT_RELEASE (R362). -/
def execContextRelease (c : Fin 32) (s : State) : Res := act s (releaseCtx s c)

/-- A write of 1 to a bit of CRP_CTXWAKE (R364): the latch sets, and a context in NAP wakes; an unplaced context is not
reached (R203). -/
def wakeLatchSet (s : State) (c : Nat) : State :=
  match placeOf s c with
  | none => s
  | some (p, _) =>
    let s := s.setCtx c { s.ctx c with wakeLatch := true }
    if (s.pair p).gated then gateExit s p else wakeCtx s c

/-- CONTEXT_WAKE_WRITE (R364). -/
def execContextWakeWrite (c : Fin 32) (s : State) : Res := act s (wakeLatchSet s c)

end Sys2Proof.Machine
end

