-- ==== Sys2Proof/Machine/Memory.lean ====
section
/-! DEFINITION. Commands of the caches and of the memory controller (08). -/
namespace Sys2Proof.Machine

/-! ## Cache control -/

/-- EN = 1 or 0 written to an L2 (R171, R172). -/
def l2Enable (s : State) (p : Nat) (en : Bool) : State :=
  let x := s.pctl p
  if en then (if x.l2 = .off ∧ x.l2Inv = true then s.setPctl p { x with l2 := .on, l2Inv := false } else s)
  else if x.l2 = .on then
    (if l2Dirty s p then s.setPctl p { x with l2 := .disablePending, l1i := .off, l1d := .off }
     else emptyL2 (s.setPctl p { x with l2 := .off, l1i := .off, l1d := .off }) p)
  else s

/-- Drop what one L1 of a pair holds. -/
def emptyL1 (s : State) (p : Nat) (code : Bool) : State :=
  setCaches s { s.caches with l1 := s.caches.l1.filter fun l => !(decide (l.pair % 18 = p) && (l.code == code)) }

/-- EN = 1 or 0 written to the L1 instruction cache (R171). -/
def l1iEnable (s : State) (p : Nat) (en : Bool) : State :=
  let x := s.pctl p
  if en then
    (if x.l2 = .on ∧ x.l1i = .off ∧ x.l1iInv = true then s.setPctl p { x with l1i := .on, l1iInv := false } else s)
  else if x.l1i = .on then emptyL1 (s.setPctl p { x with l1i := .off }) p true else s

/-- EN = 1 or 0 written to the L1 data cache (R171). -/
def l1dEnable (s : State) (p : Nat) (en : Bool) : State :=
  let x := s.pctl p
  if en then
    (if x.l2 = .on ∧ x.l1d = .off ∧ x.l1dInv = true then s.setPctl p { x with l1d := .on, l1dInv := false } else s)
  else if x.l1d = .on then emptyL1 (s.setPctl p { x with l1d := .off }) p false else s

/-- A write to CACHE_PCTLp (R171, R172, R178): the L2 first. -/
def pctlWrite (s : State) (p : Nat) (v : Word) : State :=
  l1iEnable (l1dEnable (l2Enable s p (bitOf v 10)) p (bitOf v 9)) p (bitOf v 8)

/-- Every line leaves the L3. -/
def emptyL3 (s : State) : State := setCaches s { s.caches with l3 := [] }

/-- A write to CACHE_L3CTL (R171, R172, R178). -/
def l3ctlWrite (s : State) (v : Word) : State :=
  let c := s.caches
  if bitOf v 8 then (if c.l3st = .off ∧ c.l3inv = true then setCaches s { c with l3st := .on, l3inv := false } else s)
  else if c.l3st = .on then
    (if l3Dirty s then setCaches s { c with l3st := .disablePending } else emptyL3 (setCaches s { c with l3st := .off }))
  else s

/-- ST of a cache (R178). -/
def CacheSt.code : CacheSt → Nat
  | .off => 0
  | .on => 1
  | .disablePending => 2

/-- CACHE_PCTLp as read (R178). -/
def pctlRead (s : State) (p : Nat) : Word :=
  let x := s.pctl p
  w64 (x.l1i.code + x.l1d.code * 4 + x.l2.code * 16 + b2n (x.l1i = .on) * 2 ^ 8 + b2n (x.l1d = .on) * 2 ^ 9 +
    b2n (x.l2 = .on) * 2 ^ 10 + b2n x.l1iInv * 2 ^ 16 + b2n x.l1dInv * 2 ^ 17 + b2n x.l2Inv * 2 ^ 18)

/-- CACHE_L3CTL as read (R178). -/
def l3ctlRead (s : State) : Word :=
  w64 (s.caches.l3st.code + b2n (s.caches.l3st = .on) * 2 ^ 8 + b2n s.caches.l3inv * 2 ^ 16)

/-- CACHE_DRAIN_COMPLETE (R172): the last dirty line has been written and the cache is OFF. -/
def execCacheDrainComplete (d : DrainId) (s : State) : Res :=
  act s (match d with
    | .l2 p => if (s.pctl p).l2 = .disablePending then (drainL2 s p).setPctl p { s.pctl p with l2 := .off } else s
    | .l3 => if s.caches.l3st = .disablePending then emptyL3 (setCaches s { s.caches with l3st := .off }) else s)

/-! ## Fills and snoops -/

/-- A snoop of a line that is valid (R160, R164). -/
def serveSnoop (s : State) (o line : Nat) (invalidate : Bool) : State := if invalidate then dropL2 s o line else s

/-- The line is valid, or its fill has been discarded: held snoops are served (R164, log entry 101). -/
def fillDone (s : State) (o line : Nat) : State :=
  let due := s.caches.snoops.filter fun h => decide (h.pair = o) && decide (h.line = line)
  let s := setCaches s { s.caches with
    snoops := s.caches.snoops.filter fun h => !(decide (h.pair = o) && decide (h.line = line)) }
  due.foldl (fun t h => serveSnoop t o line h.invalidate) s

/-- A sector arrives for a line in FILLING (R163). -/
def fillSector (s : State) (o line sector : Nat) (l : CLine) : State :=
  let f := setBit l.filling sector false
  let s := mapL2 s o line fun k => { k with filling := f }
  if f = 0 then fillDone s o line else s

/-- The first sector of a miss of context c is its critical one: the line is allocated FILLING, the L1 is filled, and the
access that missed restarts with this sector (R163, R166). -/
def fillStart (s : State) (c o : Nat) (code : Bool) (line way sector : Nat) : State :=
  let s := if l1Wants s o code then noteL1 s o code line else s
  if way ∈ l2Ways s (o % 18) c then
    allocL2 s o way line (BitVec.ofNat 8 (s.owner c)) (setBit 0xFF#8 sector false) (some (c, sector))
  else s

/-- LINE_FILL (R163, R164, R166): one sector for the L2 of context c; the line is valid when all eight have come; an
uncorrectable sector discards it at the cost of one let. Without a credit the sector waits at its ring stop (R12). -/
def execLineFill (c : Fin 32) (line : Line) (way : Fin 16) (sector : Fin 8) (ecc : Ecc) (s : State) (code : Bool := false) : Res :=
  act s (match placeOf s c with
    | none => s
    | some (p, slot) =>
      let o := cacheOf s c
      if (s.pctl p).l2 ≠ .on ∨ !s.inMemory (line * 128) 128 ∨ noCredit s .lineFill p o = true then s else
      let s := if ecc = .corrected then card s 144 1 0 p 0 else s
      match l2Find s o line with
      | some l =>
        if !bitOf l.filling sector then s
        else if ecc = .uncorrectable then letUnnamed (fillDone (dropL2 s o line) o line) p slot
        else fillSector s o line sector l
      | none => if ecc = .uncorrectable then letUnnamed s p slot else fillStart s c o code line way sector)

/-- A snoop at one L2: held while the line is FILLING (R164). -/
def snoopOne (line : Nat) (invalidate : Bool) (s : State) (o : Nat) : State :=
  match l2Find s o line with
  | none => s
  | some l =>
    if l.filling = 0 then serveSnoop s o line invalidate
    else setCaches s { s.caches with
      snoops := s.caches.snoops ++ [{ pair := o, line := line, invalidate := invalidate }] }

/-- SNOOP (R160, R164): it reaches both copies of a pair. -/
def execSnoop (p : Fin 18) (line : Line) (invalidate : Bool) (s : State) : Res :=
  act s ((cachesOf p).foldl (snoopOne line invalidate) s)

/-! ## Errors in the caches -/

/-- A line of pair p's L2 that is held, and dirty or clean as asked. -/
def l2Is (s : State) (p line : Nat) (dirty : Bool) : Bool :=
  match l2Find s p line with
  | none => false
  | some l => l.dirty == dirty

/-- The instance that a line's allocation carries. -/
def lineInst (l : Option CLine) : Nat := (l.map fun k => k.inst.toNat).getD 0

/-- The L2 of a copy of a pair: both copies' lines are kept once until the pair splits (R159, R206). -/
def copyCache (s : State) (p : Nat) (copy : Bool) : Nat := if copy && decide ((s.pair p).st = .split) then p + 18 else p

/-- One error that an access or a scrub meets in a cache (R176). -/
def cacheError (s : State) : CacheErr → State
  | .l1 p copy slot line =>
    let o := copyCache s p copy
    let s := card (dropL1 s o line) (64 + p) 1 (lineInst (l2Find s o line)) (b2n copy) (line * 128)
    letPair s p .cacheError copy slot false
  | .l2Correctable p copy line =>
    let o := copyCache s p copy
    if (l2Find s o line).isSome then card s (64 + p) 2 (lineInst (l2Find s o line)) (b2n copy) (line * 128) else s
  | .l2Clean p copy slot line =>
    let o := copyCache s p copy
    if l2Is s o line false then
      letPair (card (dropL2 s o line) (64 + p) 3 (lineInst (l2Find s o line)) (b2n copy) (line * 128)) p .cacheError copy
        slot false
    else s
  | .l2Dirty p copy slot line =>
    let o := copyCache s p copy
    if l2Is s o line true then
      letPair (card s (64 + p) 4 (lineInst (l2Find s o line)) (b2n copy) (line * 128)) p .cacheError copy slot false
    else s
  | .l2Both p line =>
    if l2Is s p line true then
      card (addPoison (dropL2 s p line) line) (64 + p) 5 (lineInst (l2Find s p line)) 0 (line * 128)
    else s
  | .l3Correctable v line =>
    if (l3Find s line).isSome then card s (96 + v) 2 (lineInst (l3Find s line)) 0 (line * 128) else s
  | .l3Clean v line =>
    match l3Find s line with
    | none => s
    | some l => if l.dirty then s else card (dropL3 s line) (96 + v) 3 (lineInst (some l)) 0 (line * 128)
  | .l3Dirty v line =>
    match l3Find s line with
    | none => s
    | some l =>
      if l.dirty then card (addPoison (dropL3 s line) line) (96 + v) 5 (lineInst (some l)) 0 (line * 128) else s

/-- CACHE_SCRUB (R176, R182): the errors that the scrub of the L2s and the L3 meets. -/
def execCacheScrub (errs : List CacheErr) (s : State) : Res := act s (errs.foldl cacheError s)

/-! ## The channel array -/

/-- The stripe of a line (R180). -/
def stripeOf (line : Nat) : Nat := line / 11

/-- The data channel of a line (R180). -/
def channelOf (line : Nat) : Nat := (stripeOf line % 12 + 1 + line % 11) % 12

/-- The line that a channel holds at a stripe; none on the stripe's parity channel (R180). -/
def lineAt (stripe n : Nat) : Option Nat :=
  let j := (n + 23 - stripe % 12) % 12
  if j = 11 then none else some (stripe * 11 + j)

/-- A channel serves the stripe: ONLINE, or REBUILDING with the stripe below its pointer (R183). -/
def serves (s : State) (n stripe : Nat) : Bool :=
  match s.chst n with
  | .online => true
  | .offline => false
  | .rebuilding => decide (stripe < s.memc.ptr.get n 0)

/-- Every channel but n serves the stripe. -/
def othersServe (s : State) (n stripe : Nat) : Bool :=
  (List.range 12).all fun m => decide (m = n) || serves s m stripe

/-- Every channel but n is ONLINE (R182). -/
def othersOnline (s : State) (n : Nat) : Bool :=
  (List.range 12).all fun m => decide (m = n) || decide (s.chst m = .online)

/-- End of a rebuild by the channel's own failure (R184): failure words all ones, channel OFFLINE, pointer kept. -/
def rebuildFails (s : State) (n : Nat) (kind : Nat) (words : List Word) (addr : Nat) : State :=
  let s := card (setCh s n .offline) (128 + n) kind 0 0 addr
  match mbNums.find? fun m => (s.mb m).busy && decide ((s.mb m).opcode = 0x0202) with
  | none => s
  | some m => mbFail s m 0x4A words

/-- Words that name no line (R44). -/
def noLine : List Word := [0xFFFFFFFFFFFFFFFF#64, 0xFFFFFFFFFFFFFFFF#64]

/-- The controller takes a channel OFFLINE by itself (R182, R185): only while every other is ONLINE, and with an
OFFLINE_THRESHOLD of 0 not at all. -/
def autoOffline (s : State) (n : Nat) : State :=
  if s.chst n = .rebuilding then rebuildFails s n 7 noLine 0
  else if s.chst n = .online ∧ othersOnline s n = true ∧ fld s.memc.cfg 3 0 ≠ 0 then card (setCh s n .offline) (128 + n) 7 0 0 0
  else s

/-- A rebuilt line counts towards OFFLINE_THRESHOLD within 24 hours (R182, R185), whether or not the channel has been
OFFLINE since (log entry 102). -/
def countRebuild (s : State) (n : Nat) : State :=
  let l := (s.crp.us :: s.memc.rebuilds.get n []).filter fun t => decide (s.crp.us < t + 86400000000)
  let s := { s with memc := { s.memc with rebuilds := s.memc.rebuilds.set n l } }
  let th := fld s.memc.cfg 3 0
  if th ≠ 0 ∧ th ≤ l.length then autoOffline s n else s

/-- MEMC_ERRn with one more corrected error or rebuilt line (R185). -/
def countErr (s : State) (n : Nat) (rebuilt : Bool) : State :=
  let w := s.memc.err.get n 0#32
  let lo := w.extractLsb' 0 16
  let hi := w.extractLsb' 16 16
  let w := (if rebuilt then satInc hi else hi) ++ (if rebuilt then lo else satInc lo)
  { s with memc := { s.memc with err := s.memc.err.set n w } }

/-- A line that cannot be read and not rebuilt is written poisoned (R182). -/
def poisonLine (s : State) (line : Nat) : State :=
  card (addPoison s line) (128 + channelOf line) 5 0 0 (line * 128)

/-- A line of a channel that does not serve its stripe is rebuilt from the others, or poisoned where it cannot be (R182,
R183): the channel itself drives nothing. -/
def unservedRead (s : State) (line : Nat) : MemErr → State
  | .uncorrectable true => poisonLine s line
  | _ => if othersServe s (channelOf line) (stripeOf line) then s else poisonLine s line

/-- An error met at a line's read (R182). -/
def memError (s : State) (line : Nat) (e : MemErr) : State :=
  let n := channelOf line
  let st := stripeOf line
  if !serves s n st then unservedRead s line e else
  match e with
  | .none => s
  | .correctable => card (countErr s n false) (128 + n) 2 0 0 (line * 128)
  | .uncorrectable alsoBad =>
    if !alsoBad && othersServe s n st then countRebuild (card (countErr s n true) (128 + n) 3 0 0 (line * 128)) n
    else poisonLine s line
  | .linkRetryOk =>
    card { s with memc := { s.memc with linkFails := s.memc.linkFails.set n 0 } } (128 + n) 4 0 0 (line * 128)
  | .linkFailed =>
    let k := s.memc.linkFails.get n 0 + 1
    let s := { s with memc := { s.memc with linkFails := s.memc.linkFails.set n k } }
    if 8 ≤ k then autoOffline s n else s

/-- What a request does to memory (R180, R181, R326, R402). -/
def memOp (s : State) (op : MemOp) (line : Nat) : State :=
  match op with
  | .read => { s with bus := { s.bus with cpl := .bytes (Memory.bytes s.mem (line * 128) 128) } }
  | .write data => s.store (line * 128) (data.take 128)
  | .fullStripe data =>
    let a := stripeOf line * 11 * 128
    unpoison (s.store a (data.take 1408)) a 1408

/-- The lines of a request that exist (R179). -/
def memReach (s : State) (op : MemOp) (line : Nat) : Bool :=
  match op with
  | .fullStripe _ => s.inMemory (stripeOf line * 11 * 128) 1408
  | _ => s.inMemory (line * 128) 128

/-- MEMORY_REQUEST (R180 to R182): an error that an access on a mispredicted path meets is left alone (R157). Without a
credit of its channel the request waits at its ring stop (R12). -/
def execMemoryRequest (op : MemOp) (line : Line) (err : MemErr) (s : State) (mispredicted : Bool := false) : Res :=
  act s (if memReach s op line && !noCredit s .memRequest 0 (channelOf line) then
      memOp (if mispredicted then s else memError s line err) op line
    else s)

/-- PATROL_SCRUB (R182): the errors met; SCRUB_HOURS = 0 stops it. -/
def execPatrolScrub (errs : List (Line × MemErr)) (s : State) : Res :=
  act s (if fld s.memc.cfg 15 8 = 0 then s
    else errs.foldl (fun t e => if t.inMemory (e.1 * 128) 128 then memError t e.1 e.2 else t) s)

end Sys2Proof.Machine
end

