-- ==== Sys2Proof/Machine/Aes.lean ====
section
/-! DEFINITION. AES, and the modes XTS-AES, GCM, CMAC and KW built on it (R291): the published functions the spec
names (log entry 15). A block is 16 bytes, first byte first. -/
namespace Sys2Proof.Machine

/-! ## The field GF(2^8) and the S-boxes -/

/-- The byte times x. -/
def xtimeN (b : Nat) : Nat := (2 * b) ^^^ (b / 128 * 0x11B)

def xtime (b : Byte) : Byte := BitVec.ofNat 8 (xtimeN b.toNat)

/-- Product with a factor below 16. -/
def gmul (m : Nat) (b : Byte) : Byte :=
  let v := b.toNat
  BitVec.ofNat 8 ((m % 2 * v) ^^^ (m / 2 % 2 * xtimeN v) ^^^ (m / 4 % 2 * xtimeN (xtimeN v)) ^^^
    (m / 8 * xtimeN (xtimeN (xtimeN v))))

/-- The S-box of FIPS 197 as one number: the byte for a stands at bits 8a + 7 to 8a. -/
def sboxTable : Nat :=
  0x16BB54B00F2D99416842E6BF0D89A18CDF2855CEE9871E9B948ED9691198F8E19E1DC186B95735610EF6034866B53E708A8BBD4B1F74DDE8C6B4A61C2E2578BA08AE7A65EAF4566CA94ED58D6D37C8E779E4959162ACD3C25C2406490A3A32E0DB0B5EDE14B8EE4688902A22DC4F816073195D643D7EA7C41744975FEC130CCDD2F3FF1021DAB6BCF5389D928F40A351A89F3C507F02F94585334D43FBAAEFD0CF584C4A39BECB6A5BB1FC20ED00D153842FE329B3D63B52A05A6E1B1A2C830975B227EBE28012079A059618C323C7041531D871F1E5A534CCF73F362693FDB7C072A49CAFA2D4ADF04759FA7DC982CA76ABD7FE2B670130C56F6BF27B777C63

/-- The inverse S-box, in the same way. -/
def invSboxTable : Nat :=
  0x7D0C2155631469E126D677BA7E042B17619953833CBBEBC8B0F52AAE4D3BE0A0EF9CC9939F7AE52D0D4AB519A97F51605FEC8027591012B131C7078833A8DD1FF45ACD78FEC0DB9A2079D2C64B3E56FC1BBE18AA0E62B76F89C5291D711AF1476EDF751CE837F9E28535ADE72274AC9673E6B4F0CECFF297EADC674F4111913A6B8A130103BDAFC1020F3FCA8F1E2CD00645B3B80558E4F70AD3BC8C00ABD890849D8DA75746155EDAB9EDFD5048706C92B6655DCC5CA4D41698688664F6F87225D18B6D49A25B76B224D92866A12E084EC3FA420B954CEE3D23C2A632947B54CBE9DEC444438E3487FF2F9B8239E37CFBD7F3819EA340BF38A53630D56A0952

def sbox (a : Byte) : Byte := BitVec.ofNat 8 (sboxTable >>> (8 * a.toNat))

def invSbox (a : Byte) : Byte := BitVec.ofNat 8 (invSboxTable >>> (8 * a.toNat))

/-! ## Key schedule -/

def xorBytes (a b : List Byte) : List Byte := List.zipWith (· ^^^ ·) a b

/-- More words of the key schedule; ws holds the last nk words, newest last, out the schedule in reverse. -/
def keyWords (nk : Nat) : Nat → Nat → Byte → List (List Byte) → List (List Byte) → List (List Byte)
  | 0, _, _, _, out => out.reverse
  | n + 1, i, rc, ws, out =>
    let prev := ws.getLastD []
    let t :=
      if i % nk = 0 then xorBytes ((prev.drop 1 ++ prev.take 1).map sbox) [rc, 0, 0, 0]
      else if nk > 6 && i % nk = 4 then prev.map sbox else prev
    let w := xorBytes (ws.headD []) t
    keyWords nk n (i + 1) (if i % nk = 0 then xtime rc else rc) (ws.drop 1 ++ [w]) (w :: out)

def splitN (k : Nat) : Nat → List Byte → List (List Byte)
  | 0, _ => []
  | n + 1, l => l.take k :: splitN k n (l.drop k)

/-- The round keys of a 16- or 32-byte key (R292: 10 or 14 rounds). -/
def roundKeys (key : List Byte) : List (List Byte) :=
  let nk := key.length / 4
  let start := splitN 4 nk key
  let all := keyWords nk (4 * (nk + 7) - nk) nk 0x01#8 start start.reverse
  (List.range (nk + 7)).map fun r => ((all.drop (4 * r)).take 4).flatten

/-! ## Rounds -/

def shiftRows (b : List Byte) : List Byte := (List.range 16).map fun i => b.getD ((i + 4 * (i % 4)) % 16) 0
def invShiftRows (b : List Byte) : List Byte := (List.range 16).map fun i => b.getD ((i + 12 * (i % 4)) % 16) 0

def mixWith (m0 m1 m2 m3 : Nat) (b : List Byte) : List Byte :=
  (List.range 16).map fun i =>
    let c := 4 * (i / 4)
    gmul m0 (b.getD i 0) ^^^ gmul m1 (b.getD (c + (i + 1) % 4) 0) ^^^ gmul m2 (b.getD (c + (i + 2) % 4) 0) ^^^
      gmul m3 (b.getD (c + (i + 3) % 4) 0)

def aesRounds : List (List Byte) → List Byte → List Byte
  | [], b => b
  | [k], b => xorBytes (shiftRows (b.map sbox)) k
  | k :: ks, b => aesRounds ks (xorBytes (mixWith 2 3 1 1 (shiftRows (b.map sbox))) k)

/-- AES encryption of one block. -/
def aesEnc (key block : List Byte) : List Byte :=
  match roundKeys key with
  | [] => block
  | k :: ks => aesRounds ks (xorBytes block k)

def invRounds : List (List Byte) → List Byte → List Byte
  | [], b => b
  | [k], b => xorBytes ((invShiftRows b).map invSbox) k
  | k :: ks, b => invRounds ks (mixWith 14 11 13 9 (xorBytes ((invShiftRows b).map invSbox) k))

/-- AES decryption of one block. -/
def aesDec (key block : List Byte) : List Byte :=
  match (roundKeys key).reverse with
  | [] => block
  | k :: ks => invRounds ks (xorBytes block k)

/-! ## KW (NIST SP 800-38F), unwrapping -/

/-- The steps of the unwrapping, t from high to low; r holds the 64-bit registers. -/
def kwSteps (key : List Byte) (n : Nat) : Nat → List Byte → List (List Byte) → List Byte × List (List Byte)
  | 0, a, r => (a, r)
  | t + 1, a, r =>
    let i := t % n
    let x := xorBytes a (beBytes 8 (t + 1))
    let b := aesDec key (x ++ r.getD i [])
    kwSteps key n t (b.take 8) (r.set i (b.drop 8))

/-- The unwrapped key, or none when the integrity check fails (R298 step 4). -/
def kwUnwrap (kek blob : List Byte) : Option (List Byte) :=
  let n := blob.length / 8 - 1
  let (a, r) := kwSteps kek n (6 * n) (blob.take 8) (splitN 8 n (blob.drop 8))
  if a = List.replicate 8 0xA6#8 then some r.flatten else none

/-! ## XTS (IEEE 1619) -/

/-- Multiply a tweak by alpha: a little-endian 128-bit number. -/
def xtsNext (t : List Byte) : List Byte :=
  let v := leNat t
  leBytes 16 ((v * 2) % 2 ^ 128 ^^^ (if v ≥ 2 ^ 127 then 0x87 else 0))

def xtsBlocks (enc : Bool) (key : List Byte) : Nat → List Byte → List Byte → List Byte
  | 0, _, _ => []
  | n + 1, t, l =>
    let x := xorBytes (l.take 16) t
    xorBytes (if enc then aesEnc key x else aesDec key x) t ++ xtsBlocks enc key n (xtsNext t) (l.drop 16)

/-- One data unit under Key1 and Key2 with its tweak number (R291, R301). -/
def xtsUnit (enc : Bool) (key : List Byte) (unit : Nat) (l : List Byte) : List Byte :=
  let h := key.length / 2
  xtsBlocks enc (key.take h) (l.length / 16) (aesEnc (key.drop h) (leBytes 16 unit)) l

/-! ## GCM (SP 800-38D) -/

/-- Product in GF(2^128), bits taken from the most significant one. -/
def ghBits : Nat → BitVec 128 → BitVec 128 → BitVec 128 → BitVec 128
  | 0, _, _, z => z
  | n + 1, x, v, z =>
    ghBits n (x <<< 1) (if bitOf v 0 then (v >>> 1) ^^^ (0xE1#128 <<< 120) else v >>> 1) (if bitOf x 127 then z ^^^ v else z)

def ghMul (x y : BitVec 128) : BitVec 128 := ghBits 128 x y 0

/-- A block of up to 16 bytes, zero-filled, as GHASH reads it. -/
def ghBlock (l : List Byte) : BitVec 128 := BitVec.ofNat 128 (beNat (l ++ List.replicate (16 - l.length) 0))

/-- GHASH over more bytes (n blocks). -/
def ghRun (h : BitVec 128) : Nat → BitVec 128 → List Byte → BitVec 128
  | 0, y, _ => y
  | n + 1, y, l => ghRun h n (ghMul (y ^^^ ghBlock (l.take 16)) h) (l.drop 16)

def blocksOf (n : Nat) : Nat := (n + 15) / 16

def ghBytes (h y : BitVec 128) (l : List Byte) : BitVec 128 := ghRun h (blocksOf l.length) y l

/-- The hash subkey. -/
def gcmH (key : List Byte) : BitVec 128 := ghBlock (aesEnc key (List.replicate 16 0))

/-- Counter-mode output for n blocks, from a counter value, for a 96-bit IV. -/
def gcmStream (key iv : List Byte) : Nat → Nat → List Byte
  | 0, _ => []
  | n + 1, ctr => aesEnc key (iv ++ beBytes 4 (ctr % 2 ^ 32)) ++ gcmStream key iv n (ctr + 1)

/-- Bytes at block position pos of the data, through the counter stream. -/
def gcmCrypt (key iv : List Byte) (pos : Nat) (l : List Byte) : List Byte :=
  xorBytes l (gcmStream key iv (blocksOf l.length) (2 + pos / 16))

/-- The tag of 16 bytes, from the GHASH value over AAD and ciphertext. -/
def gcmTag (key iv : List Byte) (y : BitVec 128) (aadLen len : Nat) : List Byte :=
  let last := BitVec.ofNat 128 (aadLen * 8 * 2 ^ 64 + len * 8)
  xorBytes (beBytes 16 (ghMul (y ^^^ last) (gcmH key)).toNat) (aesEnc key (iv ++ [0, 0, 0, 1]))

/-! ## CMAC (SP 800-38B) -/

def cmacDouble (l : List Byte) : List Byte :=
  let v := beNat l
  beBytes 16 ((v * 2) % 2 ^ 128 ^^^ (if v ≥ 2 ^ 127 then 0x87 else 0))

/-- CBC over all blocks but the last, then the last one with its subkey. -/
def cmacRun (key : List Byte) : Nat → List Byte → List Byte → List Byte
  | 0, y, _ => y
  | n + 1, y, l =>
    if l.length > 16 then cmacRun key n (aesEnc key (xorBytes y (l.take 16))) (l.drop 16)
    else
      let k1 := cmacDouble (aesEnc key (List.replicate 16 0))
      let m := if l.length = 16 then xorBytes l k1
        else xorBytes (l ++ [0x80#8] ++ List.replicate (15 - l.length) 0) (cmacDouble k1)
      aesEnc key (xorBytes y m)

/-- The 16-byte CMAC of a message. -/
def cmac (key l : List Byte) : List Byte := cmacRun key (blocksOf l.length + 1) (List.replicate 16 0) l

end Sys2Proof.Machine
end

