-- ==== Sys2Proof/Machine/Time.lean ====
section
/-! DEFINITION. The time-of-day unit, its comparators, the entropy source and the DRBG (17). -/
namespace Sys2Proof.Machine

/-! ## The count -/

/-- INC of R341 for a trim, with slew = +1, 0 or -1 times 100 ppm (R345), rounded to the nearest unit of 2^-96 s. -/
def todInc (t slew : Int) : Nat :=
  let num : Int := 5 * (2 : Int) ^ 96 * (((2 : Int) ^ 40 + t) * 10000 + slew * (2 : Int) ^ 40)
  let den : Int := (10 : Int) ^ 13 * (2 : Int) ^ 40
  ((2 * num + den) / (2 * den)).toNat

/-- The parity of a copy of the count (R348). -/
def parityOf (c : BitVec 160) : Bool := (List.range 160).foldl (fun p i => p != bitOf c i) false

/-- The count is written to both copies, each with its parity (R348). -/
def setCount (s : State) (c : BitVec 160) : State :=
  { s with time := { s.time with count := c, copy1 := c, par0 := parityOf c, par1 := parityOf c } }

/-- The signs of the slews in progress, of TOD_STEER (R345) and of the discipline (R346), each 100 ppm. -/
def slewSign (s : State) : Int :=
  (if !s.time.slewing then 0 else if 0 ≤ s.time.steerOff then 1 else -1) + s.time.discLeft.sign

/-- INC in force. -/
def incNow (s : State) : Nat := todInc s.time.trim.toInt (slewSign s)

/-- Comparator k is due (R349): its bit sets and its source is raised; it stays disarmed until armed again. -/
def deadline (s : State) (k : Nat) : State :=
  match s.time.armed.get k none with
  | none => s
  | some i =>
    if i ≤ s.tod then
      raise { s with time := { s.time with dlbits := setBit s.time.dlbits k true, armed := s.time.armed.set k none } } (192 + k)
    else s

/-- A write to TIME_DLARM latches the instants; the comparators are armed at the end of the TOD cycle (R349). -/
def armDeadlines (s : State) (v : Word) : State :=
  let l := (List.range 64).filter fun k => bitOf v k
  { s with time := { s.time with
      arming := s.time.arming ++ l.map fun k => (k, s.time.dls.get k 0#64 ++ s.time.dlf.get k 0#64) } }

/-- The end of a TOD cycle: the comparators written in it are armed and their bits cleared (R349). -/
def armNow (s : State) : State :=
  s.time.arming.foldl (fun t p =>
    { t with time := { t.time with armed := t.time.armed.set p.1 (some p.2), dlbits := setBit t.time.dlbits p.1 false } })
    { s with time := { s.time with arming := [] } }

/-- Every comparator compares (R349). -/
def compareAll (s : State) : State := (s.time.armed.map (·.1)).foldl deadline s

/-- The end of a slew in its mailbox: trim in force and ns applied (R44, R345). -/
def steerReport (s : State) : State :=
  match s.time.steerMb with
  | none => s
  | some n =>
    mbDone { s with time := { s.time with steerMb := none } } n 0
      [w64 s.time.trim.toNat, w64 s.time.steerDone.toNat]

/-- One TOD cycle of a slew: 100 ppm of 5 ns apply 1 ns in 2,000 cycles (R345). -/
def slewCycle (s : State) : State :=
  if !s.time.slewing then s
  else if s.time.slewFrac + 1 < 2000 then { s with time := { s.time with slewFrac := s.time.slewFrac + 1 } }
  else
    let s := { s with time := { s.time with slewFrac := 0, steerDone := s.time.steerDone + 1 } }
    let s :=
      match s.time.steerMb with
      | some n => mbProgress s n s.time.steerDone.toNat
      | none => s
    if s.time.steerDone.toNat < s.time.steerOff.natAbs then s
    else steerReport { s with time := { s.time with slewing := false } }

/-- One TOD cycle of the discipline's slew, at the rate of R345 (R346; log entry 98). -/
def discCycle (s : State) : State :=
  if s.time.discLeft = 0 then s
  else if s.time.discFrac + 1 < 2000 then { s with time := { s.time with discFrac := s.time.discFrac + 1 } }
  else { s with time := { s.time with discFrac := 0, discLeft := s.time.discLeft - s.time.discLeft.sign } }

/-- Bits of a copy of the count flip. -/
def flipCopy (s : State) : TodUpset → State
  | .none => s
  | .flip false b => { s with time := { s.time with count := s.time.count ^^^ b } }
  | .flip true b => { s with time := { s.time with copy1 := s.time.copy1 ^^^ b } }

/-- The comparison of the two copies in a TOD cycle (R348): one that fails its parity is rewritten from the other; where
neither alone fails, the unit goes on from copy 0. -/
def compareCopies (s : State) : State :=
  let t := s.time
  if t.count = t.copy1 then s else
  let bad0 := parityOf t.count != t.par0
  let bad1 := parityOf t.copy1 != t.par1
  if bad0 && !bad1 then card (setCount s t.copy1) 310 2 0 0 0
  else if bad1 && !bad0 then card (setCount s t.count) 310 2 0 0 0
  else
    let s := setCount s t.count
    card { s with time := { s.time with clkfault := true } } 310 3 0 0 0

/-- PPS_OUT starts a pulse in a TOD cycle in which the seconds increase (R347). -/
def ppsOutStart (s : State) (before : Word) : State :=
  if s.time.ppsoutEn && decide (before < s.todS) then { s with time := { s.time with ppsOut := true } } else s

/-- One TOD cycle (R341, R347, R348, R349). -/
def todCycle (s : State) (u : TodUpset) : State :=
  let s := armNow s
  let s := { s with time := { s.time with prev1 := s.tod, prev2 := s.time.prev1, sinceEdge := s.time.sinceEdge.map (· + 1) } }
  let before := s.todS
  let s := compareCopies (flipCopy (setCount s (s.time.count + BitVec.ofNat 160 (incNow s))) u)
  compareAll (ppsOutStart (discCycle (slewCycle s)) before)

/-- A step of the count (R344): the extension is cleared, SET set, STEPS counted; CLKFAULT clears (R348); the copies of the
cores take the value in the same cycle. A backward step lets later reads return a smaller count (R343); a forward one
starts PPS_OUT and reaches the deadlines it passes (R347, R349). -/
def todStep (s : State) (t : BitVec 128) : State :=
  let back := decide (t < s.tod)
  let before := s.todS
  let s := if back then { s with ctxs := s.ctxs.map fun q => (q.1, { q.2 with seen := 0 }) } else s
  let s := setCount s (t ++ 0#32)
  let s := { s with time := { s.time with prev1 := t, prev2 := t, set := true, steps := s.time.steps + 1, clkfault := false } }
  compareAll (ppsOutStart s before)

/-- The count a context's load of TIME_NOWF returns: of a TOD cycle lag cycles back, never below one it has returned
before (R342, R343). The seconds are latched. -/
def readNowf (s : State) (r : Req) (lag : Nat) : State × Word :=
  let at' : BitVec 128 := if lag = 0 then s.tod else if lag = 1 then s.time.prev1 else s.time.prev2
  match r with
  | .ctx c =>
    let x := s.ctx c
    let t := if at' < x.seen then x.seen else at'
    (s.setCtx c { x with nows := t.extractLsb' 64 64, seen := t }, t.extractLsb' 0 64)
  | _ => ({ s with time := { s.time with mgmtNows := s.todS } }, s.todF)

/-- The seconds latched for a reader (R342). -/
def readNows (s : State) (r : Req) : Word :=
  match r with
  | .ctx c => (s.ctx c).nows
  | _ => s.time.mgmtNows

/-! ## PPS -/

/-- A captured fraction lies within n × 100 ns of a whole second (R346). -/
def nearSecond (f : Word) (n : Nat) : Bool :=
  decide (f.toNat * 10 ^ 7 ≤ n * 2 ^ 64) || decide ((2 ^ 64 - f.toNat) * 10 ^ 7 ≤ n * 2 ^ 64)

/-- Error below 100 ns (R346). -/
def edgeGood (f : Word) : Bool :=
  decide (f.toNat * 10 ^ 7 < 2 ^ 64) || decide ((2 ^ 64 - f.toNat) * 10 ^ 7 < 2 ^ 64)

/-- The ns by which the count has to move for a captured fraction to be a whole second. -/
def edgeError (f : Word) : Int :=
  if f.toNat < 2 ^ 63 then -((f.toNat * 10 ^ 9 / 2 ^ 64 : Nat) : Int) else (((2 ^ 64 - f.toNat) * 10 ^ 9 / 2 ^ 64 : Nat) : Int)

/-- The firmware's discipline at an accepted edge (R346): the edge's error is slewed out, and t takes a free value, since
the amount of its adjustment is not stated; LOCKED sets after 4 good edges and clears at a bad one; LOCKED ends holdover. -/
def discipline (s : State) (f : Word) : State :=
  let good := edgeGood f
  let n := if good then s.time.goodEdges + 1 else 0
  let lock := good && (s.time.locked || decide (4 ≤ n))
  let ended := s.time.holdover && lock
  let s' := { s.drawn with time := { s.time with trim := Config.trimStep s.free, goodEdges := n, locked := lock
                                                 discLeft := edgeError f, discFrac := 0
                                                 holdover := s.time.holdover && !ended } }
  if ended then raise s' 258 else s'

/-- An accepted edge is captured and raises source 256 (R346). -/
def acceptEdge (s : State) (t : BitVec 128) : State :=
  raise { s with time := { s.time with capF := t.extractLsb' 0 64, capS := t.extractLsb' 64 64, sinceEdge := some 0 } } 256

/-- A TOD_SET with AT_PPS = 1 takes its edge (R344): word 1 holds the seconds, word 2 the fraction. -/
def applySetAtPps (s : State) (n : Nat) : State :=
  let x := s.mb n
  let old := s.tod
  let s := todStep { s with time := { s.time with setAtPps := none } } (x.arg 1 ++ x.arg 2)
  mbDone s n 0 (todWords old)

/-- An edge of the programmed polarity at the ball, sub × 0.5 ns into the TOD cycle (R346). -/
def ppsEdgeAt (s : State) (sub : Nat) : State :=
  let t : BitVec 128 := (s.time.count + BitVec.ofNat 160 (incNow s * sub / 10)).extractLsb' 32 128
  let spaced :=
    match s.time.sinceEdge with
    | none => true
    | some n => decide (199800000 ≤ n)
  let win := if s.time.ppsWin = 0 then 1 else s.time.ppsWin.toNat
  if !spaced then { s with time := { s.time with ppsRej := satInc s.time.ppsRej } }
  else
    match s.time.setAtPps with
    | some n =>
      let s := if s.time.set && s.time.disc then discipline (acceptEdge s t) (t.extractLsb' 0 64) else acceptEdge s t
      applySetAtPps s n
    | none =>
      if !s.time.set then acceptEdge s t
      else if nearSecond (t.extractLsb' 0 64) win then
        let s := acceptEdge s t
        if s.time.disc then discipline s (t.extractLsb' 0 64) else s
      else { s with time := { s.time with ppsRej := satInc s.time.ppsRej } }

/-! ## Calibration curves (R369) -/

/-- Linear interpolation between two points, truncating toward zero. -/
def interpolate (r : Nat) (a b : BitVec 16 × BitVec 32) : Int :=
  a.2.toInt + Int.tdiv (((r : Int) - (a.1.toNat : Int)) * (b.2.toInt - a.2.toInt)) ((b.1.toNat : Int) - (a.1.toNat : Int))

/-- The value of a curve at a raw code: end values beyond the ends. -/
def curveAt (r : Nat) : List (BitVec 16 × BitVec 32) → Int
  | [] => 0
  | [p] => p.2.toInt
  | p :: q :: rest =>
    if r ≤ p.1.toNat then p.2.toInt
    else if r ≤ q.1.toNat then interpolate r p q
    else curveAt r (q :: rest)

/-- The value of a sensor for a raw code: its loaded curve, else the factory curve (R369). -/
def sensorValue (s : State) (n : Nat) (raw : BitVec 16) : BitVec 32 :=
  match s.crp.kept.curves.get n none with
  | some l => BitVec.ofInt 32 (curveAt raw.toNat l)
  | none => Config.factoryValue n raw

/-! ## Entropy -/

/-- One raw bit goes through the Repetition Count Test and the Adaptive Proportion Test (R350). -/
def Health.bit (h : Health) (b : Bool) : Health :=
  { last := b, run := if h.run ≠ 0 ∧ h.last = b then h.run + 1 else 1
    first := if h.pos = 0 then b else h.first, pos := (h.pos + 1) % 1024
    count := if h.pos = 0 then 1 else if b = h.first then h.count + 1 else h.count }

/-- The cutoff of the Adaptive Proportion Test by the formula of SP 800-90B, section 4.4.2 (R350, log entry 99). -/
def aptCutoff : Nat := 810

/-- Raw bits go through the tests up to the first failure: whether it is of the adaptive test (R350). -/
def Health.run' (h : Health) : List Bool → Health × Option Bool
  | [] => (h, none)
  | b :: r =>
    let h := h.bit b
    if 61 ≤ h.run then (h, some false) else if aptCutoff ≤ h.count then (h, some true) else Health.run' h r

/-- The bits of a register, bit 0 first. -/
def rawBits {n : Nat} (v : BitVec n) : List Bool := (List.range n).map (bitOf v)

/-- A health-test failure (R350): the window is discarded; the third within one second leaves the source failed. -/
def entropyFail (s : State) : State :=
  let fails := (s.crp.us :: s.time.entFails).filter fun t => decide (s.crp.us < t + 1000000)
  let s := { s with time := { s.time with srcOk := false, entFails := fails, health := .reset
                                          ent := if 3 ≤ fails.length then .failedForGood else .waitRestart } }
  card (raise s 259) 311 1 0 0 0

/-- Count a failure under its test (R353). -/
def entropyCount (s : State) (adaptive : Bool) : State :=
  { s with time := { s.time with rct := if adaptive then s.time.rct else satInc s.time.rct
                                 apt := if adaptive then satInc s.time.apt else s.time.apt } }

/-- Raw bits leave the source through its tests (R350): a failure counts and restarts the source, none lets pass what
follows. -/
def healthTest (s : State) (l : List Bool) (pass : State → State) : State :=
  match s.time.health.run' l with
  | (h, none) => pass { s with time := { s.time with health := h } }
  | (_, some adaptive) => entropyFail (entropyCount s adaptive)

/-! ## DRBG: CTR_DRBG of SP 800-90A with AES-256 and the derivation function (R351, log entry 99) -/

/-- BCC: a chained MAC over blocks. -/
def bcc (key : List Byte) : List Byte → List (List Byte) → List Byte
  | c, [] => c
  | c, b :: r => bcc key (aesEnc key (xorBytes c b)) r

/-- Block_Cipher_df to 48 bytes. -/
def blockDf (input : List Byte) : List Byte :=
  let m := beBytes 4 input.length ++ beBytes 4 48 ++ input ++ [0x80#8]
  let m := m ++ List.replicate ((16 - m.length % 16) % 16) 0#8
  let key := (List.range 32).map (BitVec.ofNat 8)
  let part (i : Nat) : List Byte :=
    bcc key (List.replicate 16 0#8) ((beBytes 4 i ++ List.replicate 12 0#8) :: splitN 16 (m.length / 16) m)
  let t := part 0 ++ part 1 ++ part 2
  let k := t.take 32
  let x1 := aesEnc k (t.drop 32)
  let x2 := aesEnc k x1
  x1 ++ x2 ++ aesEnc k x2

/-- The block of V + n. -/
def Drbg.block (d : Drbg) (n : Nat) : List Byte := aesEnc d.key (beBytes 16 ((beNat d.v + n) % 2 ^ 128))

/-- CTR_DRBG_Update. -/
def Drbg.update (d : Drbg) (data : List Byte) : Drbg :=
  let t := xorBytes (d.block 1 ++ d.block 2 ++ d.block 3) data
  { key := t.take 32, v := t.drop 32 }

/-- The bytes of 1,024 raw bits. -/
def seedBytes (raw : BitVec 1024) : List Byte := leBytes 128 raw.toNat

/-- The DRBG seeds, with the serial number as personalisation string, or reseeds (R351). -/
def drbgSeed (s : State) (raw : BitVec 1024) : State :=
  let first := !s.time.seeded
  let d := if first then Drbg.reset.update (blockDf (seedBytes raw ++ leBytes 4 s.crp.kept.serial.toNat))
    else s.time.drbg.update (blockDf (seedBytes raw))
  { s with time := { s.time with drbg := d, seeded := true, drbgOk := true, drbgFail := false, requests := 0
                                 seedUs := s.crp.us } }

/-- One generate request: the 64 bits it gives, and the state after it (R351, R352). -/
def drbgDraw (s : State) : State × Word :=
  let d := s.time.drbg
  let o : BitVec 128 := BitVec.ofNat 128 (beNat (d.block 1))
  let d' := { d with v := beBytes 16 ((beNat d.v + 1) % 2 ^ 128) }.update (List.replicate 48 0#8)
  ({ s with time := { s.time with drbg := d', requests := s.time.requests + 1 } }, Config.drbgWord o)

/-- A seed or reseed is due (R351): none yet, 2^20 requests, or a second since the last. -/
def seedDue (s : State) : Bool :=
  !s.time.seeded || decide (2 ^ 20 ≤ s.time.requests) || decide (s.time.seedUs + 1000000 ≤ s.crp.us)

/-- The DRBG delivers (R351, R352). -/
def drbgUp (s : State) : Bool := s.time.drbgOk

/-! ## Commands -/

/-- TOD_TICK (R341, R345, R347, R348, R349). -/
def execTodTick (u : TodUpset) (s : State) : Res := act s (todCycle s u)

/-- DEADLINE_REACHED (R349). -/
def execDeadlineReached (k : Fin 64) (s : State) : Res := act s (deadline s k)

/-- The readers of the time-read class (R342). -/
def readerNumber : TimeReader → Nat
  | .channel => 0
  | .zip n => n + 1
  | .cipher k => k + 5

/-- TIME_READ (R342): all 128 bits with the deadline bits of the same cycle. -/
def execTimeRead (who : TimeReader) (s : State) : Res :=
  act s (if noCredit s .timeRead (readerNumber who) 0 then s
    else { s with bus := { s.bus with cpl := .time s.tod s.time.dlbits } })

/-- PPS_EDGE (R344, R346). -/
def execPpsEdge (rising : Bool) (sub : Fin 10) (s : State) : Res :=
  act s (if rising != s.time.ppsEdge then ppsEdgeAt s sub else s)

/-- HOLDOVER_ENTRY (R347): 2 s, 400,000,000 TOD cycles, without an accepted edge. -/
def execHoldoverEntry (s : State) : Res :=
  let late :=
    match s.time.sinceEdge with
    | none => true
    | some n => decide (400000000 ≤ n)
  act s (if s.time.disc && s.time.locked && late then
      card (raise { s with time := { s.time with holdover := true, locked := false, goodEdges := 0 } } 257) 310 1 0 0 0
    else s)

/-- HOLDOVER_CORRECTION (R347, R368): t from the curve of sensor 31 at the code of sensor 28. -/
def execHoldoverCorrection (s : State) : Res :=
  act s (if s.time.holdover then { s with time := { s.time with trim := sensorValue s 31 (s.sens 28).raw } } else s)

/-- PPS_OUT_PULSE_END (R347). -/
def execPpsOutPulseEnd (s : State) : Res := act s { s with time := { s.time with ppsOut := false } }

/-- ENTROPY_START_TEST (R350): 4,096 raw bits are tested and discarded. -/
def execEntropyStartTest (raw : BitVec 4096) (s : State) : Res :=
  act s (if s.time.ent ≠ .starting then s
    else healthTest { s with time := { s.time with health := .reset } } (rawBits raw) fun t =>
      { t with time := { t.time with ent := .ok, srcOk := true } })

/-- HEALTH_TEST_FAILURE (R350): the raw bits on which a test of the running source fails; bits that pass are delivered. -/
def execHealthTestFailure (raw : List Bool) (s : State) : Res :=
  act s (if s.time.ent = .ok ∨ s.time.ent = .starting then healthTest s raw id else s)

/-- ENTROPY_RESTART (R350): 1 ms after a failure. -/
def execEntropyRestart (s : State) : Res :=
  act s (if s.time.ent = .waitRestart then { s with time := { s.time with ent := .starting } } else s)

/-- DRBG_RESEED (R351): 1,024 raw bits, which the health tests see too. -/
def execDrbgReseed (s : State) (raw : BitVec 1024 := 0) : Res :=
  act s (if s.time.ent = .ok then healthTest s (rawBits raw) fun t => drbgSeed t raw else s)

/-- DRBG_SEED_TIMEOUT (R351): 100 ms after a seed or reseed fell due. -/
def execDrbgSeedTimeout (s : State) : Res :=
  act s (if seedDue s && !s.time.drbgFail then
      card (raise { s with time := { s.time with drbgOk := false, drbgFail := true } } 260) 312 1 0 0 0
    else s)

end Sys2Proof.Machine
end

