-- ==== Sys2Proof/Machine/Chan.lean ====
section
/-! DEFINITION. The channel subsystem (12): descriptors, journal, operations, doorbells, completions, binding. -/
namespace Sys2Proof.Machine

/-! ## Descriptors (R249) -/

/-- Address of a subchannel's descriptor. -/
def sdAddr (s : State) (sub : Nat) : Nat := fld s.chan.sdtbase 51 22 * 2 ^ 22 + 64 * sub

/-- Word i of a subchannel's descriptor. -/
def sdWord (s : State) (sub i : Nat) : Word := readWord s (sdAddr s sub + 8 * i)

def sdInst (s : State) (sub : Nat) : Nat := fld (sdWord s sub 0) 15 8

/-- The channel writes a word of a descriptor. -/
def setSd (s : State) (sub i : Nat) (v : Word) : State :=
  agentStore s (BitVec.ofNat 8 (sdInst s sub)) (sdAddr s sub + 8 * i) (leBytes 8 v.toNat)

def sdState (s : State) (sub : Nat) : Nat := fld (sdWord s sub 6) 2 0

/-- STATE of a subchannel is written. -/
def setSdState (s : State) (sub st : Nat) : State := setSd s sub 6 (setFld (sdWord s sub 6) 2 0 st)

def sdRemoteSub (s : State) (sub : Nat) : BitVec 16 := (sdWord s sub 0).extractLsb' 48 16
def sdRemoteMod (s : State) (sub : Nat) : BitVec 14 := (sdWord s sub 0).extractLsb' 32 14
def sdMirror (s : State) (sub : Nat) : Bool := bitOf (sdWord s sub 0) 46
def sdDepth (s : State) (sub : Nat) : Nat :=
  let n := fld (sdWord s sub 0) 31 24
  if n = 0 then 256 else n
def sdGroup (s : State) (sub : Nat) : Nat := fld (sdWord s sub 0) 23 16
def sdPorts (s : State) (sub : Nat) : List Nat := (List.range 4).filter fun n => bitOf (sdWord s sub 0) (4 + n)

/-- TX_SEQ; 2^48 once every number is spent (R253). -/
def txSeq (s : State) (sub : Nat) : Nat := fld (sdWord s sub 2) 48 0
def rxExpect (s : State) (sub : Nat) : Nat := fld (sdWord s sub 3) 47 0
def rxMap (s : State) (sub : Nat) : Word := sdWord s sub 4
def opidAddr (s : State) (sub : Nat) : Nat := fld (sdWord s sub 5) 51 9 * 512

/-! ## Reach -/

/-- The journal ring of an instance is configured: 2^k entries, k = 6 to 24 (R273). -/
def ringBits (s : State) (i : Nat) : Option Nat :=
  let k := fld (s.jour i).cfg 4 0
  if 6 ≤ k ∧ k ≤ 24 then some k else none

/-- Base of an instance's ring. -/
def ringBase (s : State) (i : Nat) : Nat := fld (s.jour i).base 51 12 * 4096

/-- The descriptor, the OP_ID area and the ring that work on a subchannel uses lie in memory (R407). -/
def subReach (s : State) (sub : Nat) : Bool :=
  s.inMemory (sdAddr s sub) 64 && s.inMemory (opidAddr s sub) 512 &&
    (match ringBits s (sdInst s sub) with
     | none => true
     | some k => s.inMemory (ringBase s (sdInst s sub)) (128 * 2 ^ k))

/-- The draw of the bytes that stand for what lies nowhere is used up (log entry 68). -/
def drawIf (b : Bool) (t : State) : State := if b then t.drawn else t

/-- A channel command on a subchannel; where it uses an address that holds nothing it reads free values there. -/
def actSub (s : State) (sub : Nat) (t : State) : Res := act s (drawIf (!subReach s sub) t)

/-! ## Journal (R256 to R258) -/

/-- Entries held by a ring. -/
def ringHeld (s : State) (i k : Nat) : Nat := ((s.jour i).head.toNat + 2 ^ k - (s.jour i).tail.toNat % 2 ^ k) % 2 ^ k

/-- No free entry: advancing JHEAD would reach JTAIL (R258); a ring that is not configured has none. -/
def ringFull (s : State) (i : Nat) : Bool :=
  match ringBits s i with
  | none => true
  | some k => decide (ringHeld s i k + 1 = 2 ^ k)

/-- Address of entry idx of an instance's ring. -/
def entryAddr (s : State) (i idx : Nat) : Nat := ringBase s i + 128 * idx

/-- The module mirrors the journal of a subchannel (R257, R337). -/
def mirrorOn (s : State) (sub : Nat) : Bool := sdMirror s sub && mirroring s

/-- The journal of the channel is written: mirrored in class 0 where a zone covers it (R323, R330). -/
def journalStore (s : State) (i a : Nat) (l : List Byte) : State := agentStoreIn s 0 (BitVec.ofNat 8 i) a l

/-- A journal entry's 16 words (R256). -/
structure JEntry where
  cls : BitVec 2
  dir : Bool
  st : Nat
  resolved : Bool
  seq : Nat
  inst : Nat
  remSub : BitVec 16
  remMod : BitVec 14
  sub : Nat
  tod : BitVec 128
  dl : Word
  opid : Word
  opb : Nat
  crc : BitVec 32
  status : Nat
  length : Nat
  head : List Byte
  deriving DecidableEq, Repr

/-- Word 0 of an entry. -/
def JEntry.word0 (e : JEntry) : Nat :=
  e.seq % 2 ^ 48 + e.st * 2 ^ 50 + b2n e.dir * 2 ^ 53 + e.cls.toNat * 2 ^ 54 + b2n e.resolved * 2 ^ 56

/-- An entry as bytes (R256): the payload's first 64 bytes are zero-filled. -/
def JEntry.bytes (e : JEntry) : List Byte :=
  wordsBytes [w64 e.word0,
    w64 (e.sub + e.remMod.toNat * 2 ^ 16 + e.remSub.toNat * 2 ^ 30 + e.inst * 2 ^ 46),
    e.tod.extractLsb' 0 64, e.tod.extractLsb' 64 64, e.dl, e.opid, w64 e.opb,
    w64 (e.length + e.status * 2 ^ 24 + e.crc.toNat * 2 ^ 32)] ++
  (e.head.take 64) ++ List.replicate (64 - min 64 e.head.length) 0#8

/-- The ring becoming full and the threshold being passed are reported once each (R258). -/
def ringReports (s : State) (i sub before : Nat) : State :=
  match ringBits s i with
  | none => s
  | some k =>
    let now := ringHeld s i k
    let th := fld (s.jour i).cfg 55 32
    let s := if before ≤ th ∧ th < now then raise s 314 else s
    if ringFull s i && !(s.jour i).fullSeen then
      card (s.setJour i { s.jour i with fullSeen := true }) 176 4 i 0 sub
    else s

/-- Write an entry at JHEAD and advance it (R256); a JHEAD record follows on a mirroring module (R330). -/
def journal (s : State) (e : JEntry) : State × Nat :=
  match ringBits s e.inst with
  | none => (s, 0)
  | some k =>
    let idx := (s.jour e.inst).head.toNat % 2 ^ k
    let before := ringHeld s e.inst k
    let head := BitVec.ofNat 24 ((idx + 1) % 2 ^ k)
    let s := journalStore s e.inst (entryAddr s e.inst idx) e.bytes
    let s := s.setJour e.inst { s.jour e.inst with head := head }
    (ringReports (sendRecords s [.jhead (BitVec.ofNat 8 e.inst) head]) e.inst e.sub before, idx)

/-- Update an entry in place (R257): STATE, the final STATUS, and RESOLVED when synchronisation did it. -/
def journalUpdate (s : State) (i idx st status : Nat) (resolved : Bool) : State :=
  let a := entryAddr s i idx
  let w0 := setFld (readWord s a) 52 50 st
  let w0 := if resolved then setBit w0 56 true else w0
  let s := journalStore s i a (leBytes 8 w0.toNat)
  journalStore s i (a + 56) (leBytes 8 (setFld (readWord s (a + 56)) 31 24 status).toNat)

/-- The address of the filled RECEIVE is written into the entry of a received message (R256, word 6). -/
def journalFilled (s : State) (i idx opb : Nat) : State :=
  journalStore s i (entryAddr s i idx + 48) (leBytes 8 opb)

/-- Entry indexes from JTAIL up to JHEAD, oldest first. -/
def ringEntries (s : State) (i : Nat) : List Nat :=
  match ringBits s i with
  | none => []
  | some k => (List.range (ringHeld s i k)).map fun j => ((s.jour i).tail.toNat + j) % 2 ^ k

/-- Word 0 of an entry in memory. -/
def entryWord0 (s : State) (i idx : Nat) : Word := readWord s (entryAddr s i idx)

/-- A ring that is not full may become full again, which is reported then (R258). -/
def ringSettle (s : State) (i : Nat) : State :=
  s.setJour i { s.jour i with fullSeen := (s.jour i).fullSeen && ringFull s i }

/-- A write of CHAN_JTAILi (R258): dropped with a card when it would pass an OPEN entry. -/
def jtailWrite (s : State) (r : Req) (i : Nat) (v : Word) (off : Nat) : State :=
  let t := fld v 23 0
  let passed := (ringEntries s i).takeWhile fun idx => decide (idx ≠ t)
  let passed := if (s.jour i).tail.toNat = t then [] else passed
  let reach :=
    match ringBits s i with
    | none => true
    | some k => s.inMemory (ringBase s i) (128 * 2 ^ k)
  drawIf (!reach) <|
  if passed.any fun idx => decide (fld (entryWord0 s i idx) 52 50 = 0) then accessCard s r 0x0E off
  else ringSettle (s.setJour i { s.jour i with tail := BitVec.ofNat 24 t }) i

/-! ## Completion records (R252) -/

structure Rec where
  opb : Nat
  inst : BitVec 8
  innings : BitVec 12
  signal : Bool
  status : Nat
  reason : Nat := 0
  delayed : Nat := 0
  port : Nat := 15
  attempts : Nat := 0
  replay : Bool := false
  late : Bool := false
  demoted : Bool := false
  seq : Nat := 0
  tod : BitVec 128
  dl : Word
  rxLen : Nat := 0
  jindex : Nat := 2 ^ 64 - 1
  deriving DecidableEq, Repr

/-- Write a completion record, words 9 to 15 first, and raise the completion group's event (R252). -/
def writeRec (s : State) (sub : Nat) (r : Rec) : State :=
  let l := wordsBytes [w64 (r.seq % 2 ^ 48), r.tod.extractLsb' 0 64, r.tod.extractLsb' 64 64, r.dl, w64 r.rxLen, w64 r.jindex, 0]
  let w8 := r.status + b2n r.demoted * 2 ^ 8 + b2n r.late * 2 ^ 9 + b2n r.replay * 2 ^ 10 + r.reason * 2 ^ 12 +
    min r.attempts 15 * 2 ^ 16 + r.port * 2 ^ 20 + r.delayed * 2 ^ 32
  let stale := staleInnings s r.inst r.innings
  let s := agentStoreFor s r.inst r.innings (r.opb + 72) l
  let s := agentStoreFor s r.inst r.innings (r.opb + 64) (leBytes 8 w8)
  if r.signal && !stale then
    let g := sdGroup s sub
    raise { s with chan := { s.chan with cgcnt := s.chan.cgcnt.set g (s.chan.cgcnt.get g 0#32 + 1) } } (768 + g)
  else s

/-- Instance and innings of a requester's work (R311). -/
def workOf (s : State) (r : Req) : BitVec 8 × BitVec 12 := (BitVec.ofNat 8 (reqInst s r), s.inningsOf (reqInst s r))

/-- A doorbell refused before its stamp (R253): the stamp words of the record are free values. -/
def refuse (s : State) (r : Req) (sub opb status : Nat) : State :=
  let (i, inn) := workOf s r
  let sig := bitOf (readWord s opb) 7
  let t : BitVec 128 := Config.freeWord (s.free + 1) ++ Config.freeWord s.free
  let rec' : Rec := { opb := opb, inst := i, innings := inn, signal := sig, status := status, tod := t
                      dl := Config.freeWord (s.free + 2) }
  writeRec s.drawn.drawn.drawn sub rec'

/-! ## Operations -/

/-- RECEIVEs still posted on a subchannel: those whose innings is current (R319). -/
def posted (s : State) (sub : Nat) : List RecvOp :=
  s.chan.recvs.filter fun o => decide (o.s = sub) && !staleInnings s o.inst o.innings

/-- Accepted operations of a subchannel (R254); a RECEIVE of an old innings is none (R319). -/
def queued (s : State) (sub : Nat) : Nat :=
  (s.chan.sends.filter fun o => decide (o.s = sub)).length + (posted s sub).length

/-- A SEND has flits that wait for a window (R268). -/
def SendOp.waits (o : SendOp) : Bool := decide (o.st = .queued) || decide (0 < o.left)

/-- Some second-tier work of an instance is queued (R315). -/
def chanBusy (s : State) (i : Nat) : Bool := s.chan.sends.any fun o => decide (o.inst.toNat = i) && o.waits

/-- The smallest of a list, 0 for none. -/
def minOf : List Nat → Nat
  | [] => 0
  | [a] => a
  | a :: r => min a (minOf r)

/-- Key of a class of an instance among the virtual times: instances have keys 0 to 255. -/
def classKey (i cls : Nat) : Nat := 256 + 4 * i + cls

/-- Second-tier work of a class of an instance is queued. -/
def classBusy (s : State) (i cls : Nat) : Bool :=
  s.chan.sends.any fun o => decide (o.inst.toNat = i) && decide (o.cls.toNat = cls) && o.waits

/-- A virtual time moves up to the smallest of those with queued work (R315). -/
def vtRaise (s : State) (key : Nat) (others : List Nat) : State :=
  let low := minOf (others.map fun k => s.chan.vt.get k 0)
  { s with chan := { s.chan with vt := s.chan.vt.set key (max (s.chan.vt.get key 0) low) } }

/-- An instance, or a class within it, that gains queued work after having none starts no earlier than the others
(R315; for the classes of R268 in the same way, log entry 23). -/
def chanJoin (s : State) (i cls : Nat) : State :=
  let s := if chanBusy s i then s else vtRaise s i ((List.range 256).filter (chanBusy s))
  if classBusy s i cls then s
  else vtRaise s (classKey i cls) (((List.range 4).filter (classBusy s i)).map (classKey i))

/-- Replace an accepted SEND. -/
def setSend (s : State) (o : SendOp) : State :=
  { s with chan := { s.chan with sends := s.chan.sends.map fun k => if k.s = o.s ∧ k.seq = o.seq then o else k } }

/-- Find an accepted SEND. -/
def findSend (s : State) (sub : Nat) (seq : BitVec 48) : Option SendOp :=
  s.chan.sends.find? fun o => decide (o.s = sub) && decide (o.seq = seq)

/-- The completion record of a SEND is written and its place is free (R254). -/
def finishSend (s : State) (o : SendOp) : State :=
  let s := writeRec s o.s
    { opb := o.opb, inst := o.inst, innings := o.innings, signal := o.signal, status := o.fin % 256, reason := o.fin / 256
      delayed := o.delayed.toNat, port := o.port.getD 15, attempts := o.attempts, demoted := o.demoted, seq := o.seq.toNat
      tod := o.tod, dl := o.dl, jindex := o.jindex }
  { s with chan := { s.chan with sends := s.chan.sends.filter fun k => !(decide (k.s = o.s) && decide (k.seq = o.seq)) } }

/-- A SEND ends (R257): its entry is updated; the record waits for the partner where the subchannel is mirrored. -/
def endSend (s : State) (o : SendOp) (jst status reason : Nat) (resolved : Bool) : State :=
  let s := journalUpdate s (sdInst s o.s) o.jindex jst status resolved
  let o := { o with fin := status + 256 * reason, left := 0 }
  if mirrorOn s o.s then setSend s { o with st := .heldBack, mirrorAt := s.dup.sent }
  else finishSend s o

/-- The SENDs of a mirrored subchannel stay as they are on a module that has been replaced (R338). -/
def frozen (s : State) (sub : Nat) : Bool := decide (s.dup.st = .fenced) && sdMirror s sub

/-- DEFINITE_FAILURE (R261): the operation, then every other accepted SEND without an ACK; the subchannel is STALLED. -/
def definiteFailure (s : State) (o : SendOp) (reason : Nat) : State :=
  let s := endSend s o 2 2 reason false
  let s := raiseFor (card s 176 2 o.inst.toNat 0 o.s) 313 o.inst.toNat o.innings
  let s := setSdState s o.s 2
  let rest := s.chan.sends.filter fun k => decide (k.s = o.s) && decide (k.st ≠ .heldBack)
  rest.foldl (fun t k => endSend t k 2 2 5 false) s

/-- CHAN_CFG limits, where 0 acts as 1 (R273). -/
def limitOf (s : State) (hi lo : Nat) : Nat :=
  let n := fld s.chan.cfg hi lo
  if n = 0 then 1 else n

/-- A counted attempt has failed (R261). -/
def attemptFailed (s : State) (o : SendOp) : State :=
  if limitOf s 31 24 ≤ o.counted + 1 then definiteFailure s { o with counted := o.counted + 1 } 1
  else setSend (chanJoin s o.inst.toNat o.cls.toNat) { o with st := .queued, counted := o.counted + 1, stay := false, left := 0 }

/-! ## Doorbells (R253) -/

/-- Words of an operation block break R251. -/
def badOpb (w : List Word) : Bool :=
  let w0 := w.getD 0 0
  let ty := fld w0 3 0
  let w3 := w.getD 3 0
  let w4 := w.getD 4 0
  decide (w0 &&& ~~~0xBF#64 ≠ 0) || !(ty == 1 || ty == 2) || decide (w3 &&& 0xFFF000000000000F#64 ≠ 0) ||
    decide (w4.toNat = 0) || decide (65536 < w4.toNat) || decide (w.getD 5 0 ≠ 0) || decide (w.getD 6 0 ≠ 0) ||
    decide (w.getD 7 0 ≠ 0)

/-- The journal entry of a SEND. -/
def sendEntry (s : State) (sub opb : Nat) (w : List Word) (seq st status : Nat) : JEntry :=
  let buf := fld (w.getD 3 0) 51 0
  let len := (w.getD 4 0).toNat
  let data := readBytes s buf len
  { cls := (w.getD 0 0).extractLsb' 4 2, dir := false, st := st, resolved := false, seq := seq, inst := sdInst s sub
    remSub := sdRemoteSub s sub, remMod := sdRemoteMod s sub, sub := sub, tod := s.tod, dl := s.time.dlbits
    opid := w.getD 1 0, opb := opb, crc := crc32c data, status := status, length := len, head := data.take 64 }

/-- A SEND that a takeover has rebuilt from its journal entry and that is being sent again (R262, R336). -/
def rebuiltSend (s : State) (sub : Nat) (opid : Word) : Option SendOp :=
  s.chan.sends.find? fun o => decide (o.s = sub) && o.rebuilt && decide (o.opid = opid)

/-- Acceptance of a SEND (R253 steps 5 to 7, R263). One that a context resubmits after a takeover is not sent twice
(R336): a rebuilt SEND takes over its operation block and completes there (log entry 105). -/
def acceptSend (s : State) (r : Req) (sub opb : Nat) (w : List Word) : State :=
  let (i, inn) := workOf s r
  let sig := bitOf (w.getD 0 0) 7
  let base : Rec := { opb := opb, inst := i, innings := inn, signal := sig, status := 1, tod := s.tod, dl := s.time.dlbits }
  match s.chan.unjournalled.find? fun u => decide (u.s = sub) && decide (u.opid = w.getD 1 0) with
  | some u => writeRec s sub { base with replay := true, seq := u.seq.toNat, jindex := u.jindex }
  | none =>
    match rebuiltSend s sub (w.getD 1 0) with
    | some o => setSend s { o with opb := opb, inst := i, innings := inn, signal := sig }
    | none =>
    if s.time.dlbits &&& w.getD 2 0 ≠ 0 then
      let (s, idx) := journal s (sendEntry s sub opb w 0 3 5)
      writeRec s sub { base with status := 5, jindex := idx }
    else if 2 ^ 48 ≤ txSeq s sub then writeRec s sub { base with status := 9 }
    else
      let seq := txSeq s sub
      let e := sendEntry s sub opb w seq 0 0
      let s := setSd s sub 2 (w64 (seq + 1))
      let (s, idx) := journal s e
      let s := chanJoin s i.toNat e.cls.toNat
      { s with chan := { s.chan with sends := s.chan.sends ++ [
          { s := sub, opb := opb, opid := e.opid, cls := e.cls, seq := BitVec.ofNat 48 seq, buffer := fld (w.getD 3 0) 51 0
            length := e.length, crc := e.crc, jindex := idx, inst := i, innings := inn, signal := sig, tod := e.tod
            dl := e.dl, attempts := 0, counted := 0, rnr := 0, port := none, delayed := 0, demoted := false, stay := false
            fin := 0, st := .queued, mirrorAt := 0, left := 0, rebuilt := false }] } }

/-! ## Delivery (R260) -/

/-- The oldest posted RECEIVE takes a message (R257, R260): payload, record and event, and after every write that a zone
may cover the update of its journal entry (R330). -/
def fillRecv (s : State) (o : RecvOp) (m : RxMsg) : State :=
  let s := agentStoreFor s o.inst o.innings o.buffer m.payload
  let s := { s with chan := { s.chan with recvs := s.chan.recvs.filter fun k => decide (k.opb ≠ o.opb) || decide (k.s ≠ o.s) } }
  let s := writeRec s m.s
    { opb := o.opb, inst := o.inst, innings := o.innings, signal := o.signal, status := 1, late := m.late
      seq := m.h.seq.toNat, tod := m.tod, dl := m.dl, rxLen := m.payload.length, jindex := m.jindex }
  let s := journalFilled s (sdInst s m.s) m.jindex o.opb
  journalUpdate s (sdInst s m.s) m.jindex 4 1 false

/-- A message journalled ahead of its turn that waits at RX_EXPECT. -/
def earlyAt (s : State) (sub : Nat) : Option RxMsg :=
  s.chan.early.find? fun m => decide (m.s = sub) && decide (m.h.seq.toNat = rxExpect s sub)

/-- RX_EXPECT moves past a received number, and RX_MAP with it (R249). A skipped number (R262) counts as received and
nothing waits for it: it is passed too. -/
def advanceRx : Nat → State → Nat → State
  | 0, s, _ => s
  | k + 1, s, sub =>
    let next := bitOf (rxMap s sub) 1
    let t := setSd s sub 3 (w64 ((rxExpect s sub + 1) % 2 ^ 48))
    let t := setSd t sub 4 ((rxMap s sub >>> 1) &&& ~~~1#64)
    if next && (earlyAt t sub).isNone then advanceRx k t sub else t

/-- Messages are delivered in sequence order while RECEIVEs are posted (R260). -/
def deliverReady : Nat → State → Nat → State
  | 0, s, _ => s
  | k + 1, s, sub =>
    match earlyAt s sub, posted s sub with
    | some m, o :: _ =>
      let s := { s with chan := { s.chan with early := s.chan.early.filter fun x => decide (x ≠ m) } }
      deliverReady k (advanceRx 65 (fillRecv s o m) sub) sub
    | _, _ => s

/-- The OP_ID of a received message is recorded (R249). -/
def recordOpid (s : State) (sub : Nat) (seq : BitVec 48) (opid : Word) : State :=
  agentStore s (BitVec.ofNat 8 (sdInst s sub)) (opidAddr s sub + 8 * (seq.toNat % 64)) (leBytes 8 opid.toNat)

/-- A message goes into a port's queue. -/
def queueOut (s : State) (n : Nat) (m : OutMsg) : State := s.setPort n { s.port n with out := (s.port n).out ++ [m] }

/-- The header of an answer to a message (R259). -/
def answer (h : MsgHdr) : MsgHdr :=
  { cls := h.cls, seq := h.seq, dstMod := h.srcMod, srcMod := h.dstMod, dstSub := h.srcSub, srcSub := h.dstSub
    opid := h.opid, length := 0, crc := 0 }

/-- A message that is journalled, and mirrored where that applies, takes effect (R257, R260): its number is received, its
OP_ID recorded, it is acknowledged, and it is delivered when its turn comes. -/
def receiveMsg (s : State) (m : RxMsg) : State :=
  let seq := m.h.seq.toNat
  let d := seq - rxExpect s m.s
  let s := recordOpid s m.s m.h.seq m.h.opid
  let s := { s with chan := { s.chan with early := s.chan.early ++ [m] } }
  let s := if d = 0 then s else setSd s m.s 4 (setBit (rxMap s m.s) d true)
  deliverReady 65 (queueOut s m.port (.ack (answer m.h))) m.s

/-- Doorbell of a RECEIVE: it is posted, and a message that waits for it is delivered (R253, R260). -/
def acceptRecv (s : State) (r : Req) (sub opb : Nat) (w : List Word) : State :=
  let (i, inn) := workOf s r
  let s := { s with chan := { s.chan with recvs := s.chan.recvs ++ [
    { s := sub, opb := opb, opid := w.getD 1 0, buffer := fld (w.getD 3 0) 51 0, capacity := (w.getD 4 0).toNat
      inst := i, innings := inn, signal := bitOf (w.getD 0 0) 7 }] } }
  deliverReady 65 s sub

/-- The checks and the acceptance of a doorbell that reached the channel (R253, R321, R360). -/
def doorbell (s : State) (r : Req) (sub opb : Nat) : State :=
  let st := sdState s sub
  if s.chan.quiesce then refuse s r sub opb 8
  else if st = 0 ∨ sub ∈ s.chan.unbinding then refuse s r sub opb 7
  else if st ≠ 1 then refuse s r sub opb 8
  else if sdDepth s sub ≤ queued s sub ∨ s.refusesWork (reqInst s r) = true then refuse s r sub opb 3
  else if ringFull s (sdInst s sub) then refuse s r sub opb 4
  else
    let w := (List.range 8).map fun k => readWord s (opb + 8 * k)
    if badOpb w then refuse s r sub opb 6
    else if fld (w.getD 0 0) 3 0 = 1 then acceptSend s r sub opb w
    else acceptRecv s r sub opb w

/-- The operation block of a doorbell and the buffer that it names lie in memory. -/
def opbReach (s : State) (v : Word) : Bool :=
  let w (k : Nat) : Word := Memory.word s.mem (v.toNat + 8 * k)
  s.inMemory v.toNat 128 && (badOpb ((List.range 8).map w) || s.inMemory (fld (w 3) 51 0) (w 4).toNat)

/-- A write to CHAN_DBs that the access checks let through (R253). With CHAN_CTL.EN = 0, and on
a primary that relinquishes (R338), the channel takes no doorbell. What lies in no memory reads as free values (log
entry 68). -/
def doorbellWrite (s : State) (r : Req) (sub : Nat) (v : Word) (off : Nat) : State :=
  if v &&& 0xFFF000000000007F#64 ≠ 0 then accessCard s r 0x0E off
  else if reqInst s r ≠ sdInst s sub then accessCard s r 0x0C off
  else if !s.chan.en || s.dup.relinquishing then s
  else drawIf (!(subReach s sub && opbReach s v)) (doorbell s r sub v.toNat)

/-! ## Binding (R250, R262) -/

/-- UP ports of a subchannel's PORTMASK, ascending (R261). -/
def upPorts (s : State) (sub : Nat) : List Nat :=
  (sdPorts s sub).filter fun n => decide ((s.port n).st = .up) || decide ((s.port n).st = .upHalf)

/-- The port of a first attempt: the (s mod k)-th UP port (R261). -/
def firstPort (s : State) (sub : Nat) : Option Nat :=
  let l := upPorts s sub
  if l = [] then none else l[sub % l.length]?

/-- The next UP port after one, in cyclic order (R261). -/
def nextPort (s : State) (sub n : Nat) : Option Nat :=
  ((List.range 4).map fun i => (n + 1 + i) % 4).find? fun m => decide (m ∈ upPorts s sub)

/-- RECEIVEs of a subchannel end CANCELLED (R250). -/
def cancelRecvs (s : State) (pick : RecvOp → Bool) : State :=
  let l := s.chan.recvs.filter fun o => pick o && !staleInnings s o.inst o.innings
  let s := { s with chan := { s.chan with recvs := s.chan.recvs.filter fun o => !pick o } }
  l.foldl (fun t o =>
    let stamp : BitVec 128 := Config.freeWord (t.free + 1) ++ Config.freeWord t.free
    writeRec t.drawn.drawn.drawn o.s
      { opb := o.opb, inst := o.inst, innings := o.innings, signal := o.signal, status := 0x0A, tod := stamp
        dl := Config.freeWord (t.free + 2) }) s

/-- A synchronisation message goes out on an UP port of its subchannel, or waits for one (R262). -/
def sendSync (s : State) (sub : Nat) (m : OutMsg) : State :=
  match firstPort s sub with
  | none => { s with chan := { s.chan with unsent := s.chan.unsent ++ [m] } }
  | some n => queueOut s n m

/-- The subchannel of a synchronisation message. -/
def OutMsg.sync : OutMsg → Option Nat
  | .syncReq n => some n
  | .syncSkip n _ => some n
  | _ => none

/-- The synchronisation messages that wait go out where a port has come up. -/
def sendUnsent (s : State) : State :=
  s.chan.unsent.foldl (fun t m =>
    match m.sync with
    | none => t
    | some n => sendSync t n m) { s with chan := { s.chan with unsent := [] } }

/-- What is held of the messages of a binding that has ended is dropped: the numbers of the next start afresh (R250). -/
def dropHeld (s : State) (sub : Nat) : State :=
  { s with chan := { s.chan with early := s.chan.early.filter fun m => decide (m.s ≠ sub)
                                 rxHeld := s.chan.rxHeld.filter fun m => decide (m.s ≠ sub)
                                 unsent := s.chan.unsent.filter fun m => decide (m.sync ≠ some sub) } }

/-- A bind starts: the earlier UNJOURNALLED matches end (R263). -/
def bindStart (s : State) (sub : Nat) : State :=
  { s with chan := { s.chan with bindSub := BitVec.ofNat 16 sub
                                 unjournalled := s.chan.unjournalled.filter fun u => decide (u.s ≠ sub) } }

/-- FRESH = 1 (R250): from UNBOUND only. -/
def bindFresh (s : State) (sub : Nat) : State :=
  if sdState s sub ≠ 0 then s else
  let s := bindStart (dropHeld s sub) sub
  let s := setSd (setSd (setSd s sub 2 1) sub 3 1) sub 4 0
  setSd s sub 6 (w64 (1 + (sub % 8) * 256))

/-- The synchronisation of a subchannel starts (R262, R334). -/
def startSync (s : State) (sub : Nat) : State :=
  sendSync (setSd (bindStart s sub) sub 6 (w64 (3 + (sub % 8) * 256))) sub (.syncReq sub)

/-- FRESH = 0 (R250, R262): from UNBOUND or STALLED; SYNC_REQ goes out on an UP port. -/
def bindSync (s : State) (sub : Nat) : State :=
  let st := sdState s sub
  if st = 1 ∨ st = 3 then s else startSync s sub

/-- UNBIND (R250): from BOUND and STALLED; RECEIVEs end CANCELLED; UNBOUND follows once no accepted SEND remains. -/
def unbind (s : State) (sub : Nat) : State :=
  if (sdState s sub ≠ 1 ∧ sdState s sub ≠ 2) ∨ sub ∈ s.chan.unbinding then s else
  let s := { s with chan := { s.chan with bindSub := BitVec.ofNat 16 sub, unbinding := sub :: s.chan.unbinding } }
  cancelRecvs s fun o => decide (o.s = sub)

/-- A subchannel that unbinds has no accepted SEND left (R250). -/
def unbindDone (s : State) (sub : Nat) : State :=
  if sub ∈ s.chan.unbinding ∧ !(s.chan.sends.any fun o => decide (o.s = sub)) then
    let s := dropHeld s sub
    setSdState { s with chan := { s.chan with unbinding := s.chan.unbinding.filter fun k => decide (k ≠ sub) } } sub 0
  else s

/-- CHAN_BIND (R250, R273). With CHAN_CTL.EN = 0 a bind still moves the state; fabric traffic then waits. -/
def chanBindWrite (s : State) (v : Word) : State :=
  let sub := fld v 15 0
  drawIf (!subReach s sub) (if bitOf v 17 then unbind s sub else if bitOf v 16 then bindFresh s sub else bindSync s sub)

/-- CHAN_BINDSTAT (R273). -/
def bindStat (s : State) : Word :=
  let sub := s.chan.bindSub.toNat
  let st := sdState s sub
  w64 (sub + st * 2 ^ 16 + b2n (decide (st = 3) || decide (sub ∈ s.chan.unbinding)) * 2 ^ 31)

/-! ## Synchronisation (R262) -/

/-- The remote holds a number: below its RX_EXPECT, or set in its RX_MAP. -/
def remoteHolds (rx : Nat) (map : Word) (seq : Nat) : Bool :=
  decide (seq < rx) || (decide (seq < rx + 64) && bitOf map (seq - rx))

/-- An entry of the subchannel in the ring: direction sent, same subchannel. -/
def entryIs (s : State) (i idx sub : Nat) : Bool :=
  !bitOf (entryWord0 s i idx) 53 && decide (fld (readWord s (entryAddr s i idx + 8)) 15 0 = sub)

/-- The operation of an OPEN entry: the accepted SEND, or on a module that took over, one rebuilt from entry and OPB. -/
def sendOfEntry (s : State) (i idx sub : Nat) : SendOp :=
  let a := entryAddr s i idx
  let seq : BitVec 48 := (readWord s a).extractLsb' 0 48
  match findSend s sub seq with
  | some o => o
  | none =>
    let opb := (readWord s (a + 48)).toNat
    let w7 := readWord s (a + 56)
    { s := sub, opb := opb, opid := readWord s (a + 40), cls := (readWord s a).extractLsb' 54 2, seq := seq
      buffer := fld (readWord s (opb + 24)) 51 0, length := fld w7 16 0, crc := w7.extractLsb' 32 32, jindex := idx
      inst := BitVec.ofNat 8 i, innings := s.inningsOf i, signal := bitOf (readWord s opb) 7
      tod := readWord s (a + 24) ++ readWord s (a + 16), dl := readWord s (a + 32)
      attempts := 0, counted := 0, rnr := 0, port := none, delayed := 0, demoted := false, stay := false, fin := 0
      st := .queued, mirrorAt := 0, left := 0, rebuilt := true }

/-- Put a SEND among the accepted ones if it is not there. -/
def ensureSend (s : State) (o : SendOp) : State :=
  if (findSend s o.s o.seq).isSome then s else { s with chan := { s.chan with sends := s.chan.sends ++ [o] } }

/-- A journal entry counts as resolved by a takeover (R334, R340). -/
def countResolved (s : State) : State :=
  if s.dup.st ≠ .takingOver then s else
  let s := { s with dup := { s.dup with resolved := s.dup.resolved + 1 } }
  match s.dup.takeMb with
  | none => s
  | some n => mbProgress s n s.dup.resolved.toNat

/-- One entry is resolved (R262). -/
def resolveEntry (rx : Nat) (map : Word) (i sub : Nat) (s : State) (idx : Nat) : State :=
  if !entryIs s i idx sub then s else
  let w0 := entryWord0 s i idx
  let st := fld w0 52 50
  let held := remoteHolds rx map (fld w0 47 0)
  let status := fld (readWord s (entryAddr s i idx + 56)) 31 24
  if st = 2 then
    let s := countResolved (journalUpdate s i idx (if held then 4 else 5) status true)
    if held then s else sendSync s sub (.syncSkip sub (w0.extractLsb' 0 48))
  else if st = 0 then
    let o := sendOfEntry s i idx sub
    let s := ensureSend (countResolved s) o
    if held then endSend s o 1 1 0 true
    else setSend (chanJoin s o.inst.toNat o.cls.toNat) { o with st := .queued, stay := false, left := 0 }
  else s

/-- A SEND of the subchannel with an OP_ID completes DONE with nothing sent, until its next bind (R263). -/
def noteMatch (s : State) (sub : Nat) (opid : Word) (seq : BitVec 48) (idx : Nat) : State :=
  { s with chan := { s.chan with unjournalled := s.chan.unjournalled ++
      [{ s := sub, opid := opid, seq := seq, jindex := idx }] } }

/-- After a takeover, a SEND that a context resubmits resolves through an entry that is DONE or DELIVERED (R336). -/
def noteResolved (i sub : Nat) (s : State) (idx : Nat) : State :=
  let st := fld (entryWord0 s i idx) 52 50
  if s.dup.fromBackup && entryIs s i idx sub && (decide (st = 1) || decide (st = 4)) then
    noteMatch s sub (readWord s (entryAddr s i idx + 40)) ((entryWord0 s i idx).extractLsb' 0 48) idx
  else s

/-- One above the largest number that a journal entry of the subchannel carries, and no more than TX_SEQ; TX_SEQ where no
entry is left. -/
def journalledTo (s : State) (i sub : Nat) : Nat :=
  let l := ((ringEntries s i).filter fun idx => entryIs s i idx sub && decide (fld (entryWord0 s i idx) 52 50 ≠ 3)).map fun idx =>
    fld (entryWord0 s i idx) 47 0 + 1
  if l = [] then txSeq s sub else min (txSeq s sub) (l.foldl max 0)

/-- Numbers the remote holds that the channel never journalled gain UNJOURNALLED entries; TX_SEQ passes them (R262). While
the ring is full there is no entry for one (R258, log entry 105). -/
def resolveUnknown (rx : Nat) (map : Word) (opids : List Word) (i sub : Nat) (s : State) (seq : Nat) : State :=
  if !remoteHolds rx map seq then s else
  let opid := opids.getD (seq % 64) 0
  let e : JEntry := { cls := 0, dir := false, st := 6, resolved := true, seq := seq, inst := i, remSub := sdRemoteSub s sub
                      remMod := sdRemoteMod s sub, sub := sub, tod := s.tod, dl := s.time.dlbits, opid := opid, opb := 0
                      crc := 0, status := 0, length := 0, head := [] }
  let s := countResolved s
  let (s, idx) := if ringFull s i then (s, 2 ^ 64 - 1) else journal s e
  let s := setSd s sub 2 (w64 (max (txSeq s sub) (seq + 1)))
  noteMatch s sub opid (BitVec.ofNat 48 seq) idx

/-- A SYNC_RSP resolves the subchannel, which becomes BOUND (R262). -/
def synchronise (s : State) (sub rx : Nat) (map : Word) (opids : List Word) : State :=
  let i := sdInst s sub
  let t := journalledTo s i sub
  let s := (ringEntries s i).foldl (resolveEntry rx map i sub) s
  let s := (ringEntries s i).foldl (noteResolved i sub) s
  let s := ((List.range (rx + 64 - t)).map (· + t)).foldl (resolveUnknown rx map opids i sub) s
  setSdState s sub 1

/-! ## Mirrored completions -/

/-- A mirrored operation or message may finish (R257, R337): the partner has applied it, or mirroring has stopped. -/
def mirrored (s : State) (at' : Nat) : Bool := decide (at' ≤ s.dup.partnerApplied) || decide (s.dup.st = .solo)

/-- Finish what waited for the partner. A module that is FENCED, or that a bind makes the backup, leaves it unfinished
(R338). -/
def releaseMirrored (s : State) : State :=
  if s.dup.st = .fenced ∨ (s.dup.st = .syncing ∧ s.dup.role = true) ∨ s.dup.st = .backup then s else
  let done := s.chan.sends.filter fun o => decide (o.st = .heldBack) && mirrored s o.mirrorAt
  let s := done.foldl finishSend s
  let msgs := s.chan.rxHeld.filter fun m => mirrored s m.mirrorAt
  let s := { s with chan := { s.chan with rxHeld := s.chan.rxHeld.filter fun m => !mirrored s m.mirrorAt } }
  msgs.foldl receiveMsg s

/-! ## Commands -/

/-- A fabric message reaches the channel: CHAN_CTL.EN = 1 and it names this module (R259, R273). -/
def forUs (s : State) (h : MsgHdr) : Bool := s.chan.en && decide (h.dstMod = s.chan.modid)

/-- A message comes from the remote that its subchannel is bound to (R259). -/
def fromRemote (s : State) (h : MsgHdr) : Bool :=
  decide (sdRemoteMod s h.dstSub.toNat = h.srcMod) && decide (sdRemoteSub s h.dstSub.toNat = h.srcSub)

def nak (s : State) (port : Nat) (h : MsgHdr) (r : NakReason) : State := queueOut s port (.nak (answer h) r)

/-- A DATA message (R259, R260). A copy of one that is journalled and waits for the partner is dropped and not yet
acknowledged (R257). -/
def dataMsg (s : State) (port : Nat) (h : MsgHdr) (payload : List Byte) : State :=
  let sub := h.dstSub.toNat
  let rx := rxExpect s sub
  let seq := h.seq.toNat
  if sdState s sub = 0 ∨ !fromRemote s h then nak s port h .refused
  else if seq < rx ∨ (seq < rx + 64 ∧ bitOf (rxMap s sub) (seq - rx) = true) ∨
      s.chan.early.any (fun m => decide (m.s = sub) && decide (m.h.seq = h.seq)) then
    queueOut s port (.ack (answer h))
  else if s.chan.rxHeld.any fun m => decide (m.s = sub) && decide (m.h.seq = h.seq) then s
  else if s.chan.quiesce then nak s port h .rnr
  else if rx + 64 ≤ seq then nak s port h .refused
  else if crc32c payload ≠ h.crc ∨ payload.length ≠ h.length.toNat then nak s port h .badCrc
  else
    match posted s sub with
    | [] => nak s port h .rnr
    | o :: _ =>
      if o.capacity < payload.length then nak s port h .refused
      else if ringFull s (sdInst s sub) then nak s port h .rnr
      else
        let late := decide (s.time.dlbits &&& sdWord s sub 1 ≠ 0)
        let e : JEntry := { cls := h.cls, dir := true, st := 0, resolved := false, seq := seq, inst := sdInst s sub
                            remSub := h.srcSub, remMod := h.srcMod, sub := sub, tod := s.tod, dl := s.time.dlbits
                            opid := h.opid, opb := 0, crc := h.crc, status := 0, length := payload.length
                            head := payload.take 64 }
        let m : RxMsg := { s := sub, h := h, payload := payload, jindex := 0, late := late, tod := s.tod
                           dl := s.time.dlbits, mirrorAt := 0, port := port }
        let (s, idx) := journal s e
        let m := { m with jindex := idx, mirrorAt := s.dup.sent }
        if mirrorOn s sub && !mirrored s m.mirrorAt then
          { s with chan := { s.chan with rxHeld := s.chan.rxHeld ++ [m] } }
        else receiveMsg s m

/-- DATA_MESSAGE (R259, R260). A message arrives only on a port that is UP. -/
def execDataMessage (port : Fin 4) (h : MsgHdr) (payload : List Byte) (s : State) : Res :=
  let up := decide ((s.port port).st = .up) || decide ((s.port port).st = .upHalf)
  if up && forUs s h then actSub s h.dstSub.toNat (dataMsg s port h payload) else act s s

/-- ACK_MESSAGE (R257, R261). -/
def execAckMessage (h : MsgHdr) (s : State) : Res :=
  let sub := h.dstSub.toNat
  if forUs s h && fromRemote s h then
    actSub s sub (match findSend s sub h.seq with
      | none => s
      | some o => if o.st = .heldBack then s else endSend s o 1 1 0 false)
  else act s s

/-- A NAK reaches an operation that is on the wire (R261). -/
def nakSend (s : State) (o : SendOp) : NakReason → State
  | .rnr =>
    if limitOf s 47 40 ≤ o.rnr then definiteFailure s o 3
    else setSend s { o with st := .rnrWait, rnr := o.rnr + 1 }
  | .refused => definiteFailure s o 4
  | .badCrc => attemptFailed s o

/-- NAK_MESSAGE (R261). -/
def execNakMessage (h : MsgHdr) (reason : NakReason) (s : State) : Res :=
  let sub := h.dstSub.toNat
  if forUs s h && fromRemote s h then
    actSub s sub (match findSend s sub h.seq with
      | none => s
      | some o => if o.st = .onWire then nakSend s o reason else s)
  else act s s

/-- The 64 recorded OP_IDs of a subchannel (R249). -/
def opidList (s : State) (sub : Nat) : List Word := (List.range 64).map fun j => readWord s (opidAddr s sub + 8 * j)

/-- SYNC_REQ (R262): answered with RX_EXPECT, RX_MAP and the recorded OP_IDs; NAK REFUSED while UNBOUND (R250). -/
def execSyncReq (port : Fin 4) (h : MsgHdr) (s : State) : Res :=
  let sub := h.dstSub.toNat
  if forUs s h then
    actSub s sub (if sdState s sub = 0 ∨ !fromRemote s h then nak s port h .refused
      else queueOut s port (.syncRsp (answer h) (BitVec.ofNat 48 (rxExpect s sub)) (rxMap s sub) (opidList s sub)))
  else act s s

/-- SYNC_RSP (R262). -/
def execSyncRsp (h : MsgHdr) (rx : BitVec 48) (map : BitVec 64) (opids : List Word) (s : State) : Res :=
  let sub := h.dstSub.toNat
  if forUs s h && fromRemote s h then
    actSub s sub (if sdState s sub = 3 then synchronise s sub rx.toNat map opids else s)
  else act s s

/-- SYNC_SKIP (R262): the number counts as received and nothing is delivered for it. -/
def syncSkip (s : State) (sub seq : Nat) : State :=
  let rx := rxExpect s sub
  if seq < rx ∨ rx + 64 ≤ seq then s
  else if seq = rx then (if (earlyAt s sub).isSome then s else deliverReady 65 (advanceRx 65 s sub) sub)
  else setSd s sub 4 (setBit (rxMap s sub) (seq - rx) true)

def execSyncSkip (h : MsgHdr) (s : State) : Res :=
  let sub := h.dstSub.toNat
  if forUs s h && fromRemote s h && decide (sdState s sub ≠ 0) then actSub s sub (syncSkip s sub h.seq.toNat) else act s s

/-- E2E_TIMEOUT (R261). -/
def execE2eTimeout (sub : BitVec 16) (seq : BitVec 48) (s : State) : Res :=
  actSub s sub.toNat (match findSend s sub.toNat seq with
    | none => s
    | some o => if o.st = .onWire ∧ frozen s sub.toNat = false then attemptFailed s o else s)

/-- RNR_RETRY_TIMER (R261): 10 µs have passed; the resend uses the same port. -/
def execRnrRetryTimer (sub : BitVec 16) (seq : BitVec 48) (s : State) : Res :=
  actSub s sub.toNat (match findSend s sub.toNat seq with
    | none => s
    | some o =>
      if o.st = .rnrWait then setSend (chanJoin s o.inst.toNat o.cls.toNat) { o with st := .queued, stay := true, left := 0 }
      else s)

/-- NOPATH_TIMEOUT (R261): no port of PORTMASK has been UP for NOPATH_US. -/
def execNopathTimeout (sub : BitVec 16) (seq : BitVec 48) (s : State) : Res :=
  actSub s sub.toNat (match findSend s sub.toNat seq with
    | none => s
    | some o =>
      if o.st ≠ .heldBack ∧ upPorts s sub.toNat = [] ∧ frozen s sub.toNat = false then definiteFailure s o 2 else s)

/-- A SYNC_REQ that still waits for a port goes out no more. -/
def dropReq (s : State) (sub : Nat) : State :=
  { s with chan := { s.chan with unsent := s.chan.unsent.filter fun m => decide (m ≠ .syncReq sub) } }

/-- SYNC_TIMEOUT (R250): no reply within NOPATH_US. -/
def execSyncTimeout (sub : BitVec 16) (s : State) : Res :=
  actSub s sub.toNat (if sdState s sub.toNat = 3 then setSdState (dropReq s sub.toNat) sub.toNat 2 else s)

/-- UNBIND_COMPLETE (R250). -/
def execUnbindComplete (sub : BitVec 16) (s : State) : Res := actSub s sub.toNat (unbindDone s sub.toNat)

end Sys2Proof.Machine
end

