-- ==== Sys2Proof/Machine/Cipher.lean ====
section
/-! DEFINITION. The cipher clusters and the key store (14): submission, one unit of a job, alarms. -/
namespace Sys2Proof.Machine

/-! ## The key store -/

/-- What a slot holds. -/
def keySlot (s : State) (n : Nat) : Option KeySlot := s.ciph.slots.get n none

/-- The key check value: the first three bytes of AES of the zero block, under Key1 for an XTS type (R296). -/
def kcvOf (ktype : Nat) (key : List Byte) : BitVec 24 :=
  let k := if 2 ≤ ktype then key.take (key.length / 2) else key
  BitVec.ofNat 24 (leNat ((aesEnc k (List.replicate 16 0)).take 3))

/-- CIPH_SLOTs (R308). -/
def slotReg (s : State) (n : Nat) : Word :=
  if inAlarm s then 0 else
  match keySlot s n with
  | none => 0
  | some k => w64 (1 + k.ktype.toNat * 2 ^ 16 + k.kcv.toNat * 2 ^ 32)

/-! ## Queue (R302, R315) -/

def cipherQueue (s : State) (k : Nat) : List CJob := s.ciph.queue.get k []

def setCipherQueue (s : State) (k : Nat) (l : List CJob) : State :=
  { s with ciph := { s.ciph with queue := s.ciph.queue.set k l } }

/-- Jobs of an instance on a cluster. -/
def cipherJobs (s : State) (k i : Nat) : List CJob := (cipherQueue s k).filter fun j => decide (j.inst.toNat = i)

/-- Replace a job. -/
def setCJob (s : State) (k : Nat) (j : CJob) : State :=
  setCipherQueue s k (swapFirst (fun m => decide (m.desc = j.desc) && decide (m.inst = j.inst)) j (cipherQueue s k))

/-- Key of an instance among a cluster's virtual times. -/
def cipherVt (k i : Nat) : Nat := 256 * k + i

/-- An instance gains work on a cluster after having none (R315). -/
def cipherJoin (s : State) (k i : Nat) : State :=
  if cipherJobs s k i ≠ [] then s else
  let vt (m : Nat) : Nat := s.ciph.vt.get (cipherVt k m) 0
  match pickSmallest vt ((cipherQueue s k).map fun j => j.inst.toNat) with
  | none => s
  | some m => { s with ciph := { s.ciph with vt := s.ciph.vt.set (cipherVt k i) (max (vt i) (vt m)) } }

/-- A submitted job; what its descriptor says of SIGNAL and SLOT, a free value where it lies in no memory. -/
def newCJob (s : State) (desc i : Nat) : CJob :=
  let there := s.inMemory desc 64
  let w := Memory.word s.mem desc
  { desc := desc, inst := BitVec.ofNat 8 i, innings := s.inningsOf i, started := false, mode := 0
    signal := if there then bitOf w 6 else Config.freeBool s.free, ivgen := false, taglen := 0
    slot := bif there then fld w 27 16 else 4096, dublk := 0, src := 0, srcLen := 0, aadLen := 0, dst := 0, dunum := 0
    ivtag := 0, iv := [], pos := 0, acc := 0, key := { ktype := 0, key := [], counter := 0, kcv := 0 } }

/-- A submission (R302, R306, R321). -/
def cipherSubmit (s : State) (r : Req) (k : Nat) (v : Word) (off : Nat) : State :=
  if v &&& 0xFFF000000000003F#64 ≠ 0 then accessCard s r 0x0E off
  else
    let i := reqInst s r
    let j := newCJob s v.toNat i
    let s := s.drawn
    let refused := decide (16 ≤ (cipherJobs s k i).length) || s.refusesWork i
    if refused || inAlarm s then
      let s := cipherWriteEnd s j (if refused then 6 else 4) 0
      if j.signal then raiseFor s (272 + k) i j.innings else s
    else
      let s := cipherJoin s k i
      setCipherQueue s k (cipherQueue s k ++ [j])

/-! ## Starting a job (R300 to R303) -/

/-- Some field of a descriptor breaks R291 or R301. -/
def badCDesc (w : Nat → Word) : Bool :=
  let w0 := w 0
  let mode := fld w0 3 0
  let tag := fld w0 12 8
  let du := (fld w0 43 32 + 1) * 16
  let len := fld (w 2) 31 0
  let aad := fld (w 2) 47 32
  let xts := mode == 1 || mode == 2
  let gcm := mode == 3 || mode == 4
  let mac := mode == 5 || mode == 6
  decide (w0 &&& ~~~0x00000FFF0FFF1FCF#64 ≠ 0) || !(xts || gcm || mac) || (bitOf w0 7 && !(mode == 3)) ||
    (xts && (decide (tag ≠ 0) || decide (len = 0) || decide (len % du ≠ 0))) ||
    (gcm && (decide (tag < 12) || decide (16 < tag))) || (mac && (decide (tag < 8) || decide (16 < tag))) ||
    (!xts && decide (fld w0 43 32 ≠ 0)) || (!gcm && decide (aad ≠ 0)) || decide (fld (w 2) 63 48 ≠ 0) ||
    decide (w 1 &&& 0xFFF000000000000F#64 ≠ 0) || (!mac && decide (w 3 &&& 0xFFF000000000000F#64 ≠ 0)) ||
    (mac && decide (w 4 ≠ 0)) || decide (w 5 &&& 0xFFF000000000001F#64 ≠ 0)

/-- The fields of a descriptor. -/
def fillCJob (j : CJob) (w : Nat → Word) : CJob :=
  { j with mode := fld (w 0) 3 0, signal := bitOf (w 0) 6, ivgen := bitOf (w 0) 7, taglen := fld (w 0) 12 8
           slot := fld (w 0) 27 16, dublk := fld (w 0) 43 32, src := fld (w 1) 51 0, srcLen := fld (w 2) 31 0
           aadLen := fld (w 2) 47 32, dst := fld (w 3) 51 0, dunum := (w 4).toNat, ivtag := fld (w 5) 51 0, started := true }

/-- The key of a job; none for KEY_INVALID (R300). -/
def jobKey (s : State) (j : CJob) : Option KeySlot :=
  let r := s.ciph.range.get j.inst.toNat 0
  let lo := fld r 11 0
  let inRange := decide (j.inst.toNat < 4) || (decide (lo ≤ j.slot) && decide (j.slot < lo + fld r 28 16))
  if j.slot < 256 ∨ !inRange then none else
  match keySlot s j.slot with
  | none => none
  | some k => if (decide (2 ≤ k.ktype.toNat)) = decide (j.mode ≤ 2) then some k else none

/-- An address of a job lies outside usable memory (R301). -/
def jobOutside (s : State) (j : CJob) : Bool :=
  !s.inMemory j.src j.srcLen || (decide (j.mode ≤ 4) && !s.inMemory j.dst j.srcLen) ||
    (decide (j.aadLen ≠ 0) && !s.inMemory j.dunum j.aadLen) || (decide (3 ≤ j.mode) && !s.inMemory j.ivtag 32)

/-- The IV of a GCM job; with IVGEN the slot's counter, which it takes and increments (R303). -/
def takeIv (s : State) (j : CJob) (k : KeySlot) : State × CJob :=
  let head := Memory.bytes s.mem j.ivtag 4
  if j.ivgen then
    let iv := head ++ beBytes 8 k.counter.toNat
    let s := { s with ciph := { s.ciph with slots := s.ciph.slots.set j.slot (some { k with counter := k.counter + 1 }) } }
    (agentStoreFor s j.inst j.innings j.ivtag iv, { j with iv := iv })
  else (s, { j with iv := Memory.bytes s.mem j.ivtag 12 })

/-- A poisoned line lies in what a GCM job reads at its start: its IV, its AAD. -/
def startPoison (s : State) (j : CJob) : Bool :=
  (decide (j.mode = 3) || decide (j.mode = 4)) &&
    (poisoned s j.ivtag 12 || (decide (j.aadLen ≠ 0) && poisoned s j.dunum j.aadLen))

/-- The oldest job of an instance starts; none when it ended at once. -/
def cipherStart (s : State) (k : Nat) (j : CJob) : State × Option CJob :=
  if staleInnings s j.inst j.innings then (cipherStop s k j 8, none)
  else if !s.inMemory j.desc 64 || poisoned s j.desc 64 then (cipherEnd s k j 9, none)
  else
    let w (n : Nat) : Word := Memory.word s.mem (j.desc + 8 * n)
    let j := fillCJob j w
    if badCDesc w then (cipherEnd s k j 5, none)
    else
      match jobKey s j with
      | none => (cipherEnd s k j 3, none)
      | some key =>
        if jobOutside s j || startPoison s j then (cipherEnd s k j 9, none)
        else if j.ivgen && decide (key.counter = 0xFFFFFFFFFFFFFFFF#64) then (cipherEnd s k j 7, none)
        else
          let (s, j) := if j.mode = 3 ∨ j.mode = 4 then takeIv s j key else (s, j)
          let acc := if j.mode = 3 ∨ j.mode = 4 then ghBytes (gcmH key.key) 0 (Memory.bytes s.mem j.dunum j.aadLen) else 0
          let j := { j with key := key, acc := acc }
          (setCJob s k j, some j)

/-! ## Units (R303, R304) -/

/-- Bytes of the next unit of a job (R303). -/
def unitLen (j : CJob) : Nat :=
  let left := j.srcLen - j.pos
  if j.mode ≤ 2 then min left ((j.dublk + 1) * 16) else if j.mode ≤ 4 then min left 4096 else left

/-- The output of a unit, and the job after it. -/
def unitOutput (j : CJob) (l : List Byte) : List Byte × CJob :=
  let key := j.key.key
  let after := { j with pos := j.pos + l.length }
  if j.mode ≤ 2 then (xtsUnit (decide (j.mode = 1)) key (j.dunum + j.pos / ((j.dublk + 1) * 16)) l, after)
  else if j.mode ≤ 4 then
    let o := gcmCrypt key j.iv j.pos l
    (o, { after with acc := ghBytes (gcmH key) j.acc (if j.mode = 3 then o else l) })
  else ([], after)

/-- The tag of a finished job. -/
def jobTag (s : State) (j : CJob) : List Byte :=
  (if j.mode ≤ 4 then gcmTag j.key.key j.iv j.acc j.aadLen j.srcLen
   else cmac j.key.key (Memory.bytes s.mem j.src j.srcLen)).take j.taglen

/-- A job whose last unit is complete: a tag is written, or read and compared (R301, R304). -/
def cipherFinish (s : State) (k : Nat) (j : CJob) : State :=
  if j.mode ≤ 2 then cipherEnd s k j 1
  else if j.mode = 3 ∨ j.mode = 5 then
    cipherEnd (agentStoreFor s j.inst j.innings (j.ivtag + 16) (jobTag s j)) k j 1
  else if poisoned s (j.ivtag + 16) j.taglen then cipherEnd s k j 9
  else cipherEnd s k j (if Memory.bytes s.mem (j.ivtag + 16) j.taglen = jobTag s j then 1 else 2)

/-- One unit of a started job (R303, R314, R315). -/
def cipherStep (s : State) (k : Nat) (j : CJob) : State :=
  let n := unitLen j
  if poisoned s (j.src + j.pos) n then cipherEnd s k j 9
  else
    let (o, j') := unitOutput j (Memory.bytes s.mem (j.src + j.pos) n)
    let s := agentStoreFor s j.inst j.innings (j.dst + j.pos) o
    let i := j.inst.toNat
    let s := charge s i (5 + k) n
    let vt := s.ciph.vt.set (cipherVt k i) (s.ciph.vt.get (cipherVt k i) 0 + vtStep n (weightOf s i 2))
    let s := setCJob { s with ciph := { s.ciph with vt := vt } } k j'
    if j'.srcLen ≤ j'.pos then cipherFinish s k j' else s

/-- Lanes of a cluster that are not fenced. -/
def lanesLeft (s : State) (k : Nat) : Bool := (List.range 24).any fun l => !bitOf s.ciph.lanefail (24 * k + l)

/-- A lane error (R305): the lane is fenced, the unit runs again on another. -/
def laneError (s : State) (k lane : Nat) (j : CJob) : State :=
  if bitOf s.ciph.lanefail (24 * k + lane) then s
  else
    let s := { s with ciph := { s.ciph with lanefail := setBit s.ciph.lanefail (24 * k + lane) true
                                            laneErr := satInc s.ciph.laneErr } }
    card s (304 + k) 1 j.inst.toNat lane j.desc

/-- A job meets a cluster without lanes (R301, R305). -/
def laneFailed (s : State) (k : Nat) (j : CJob) : State := cipherEnd (card s (304 + k) 2 j.inst.toNat 0 j.desc) k j 0x0A

/-- The instance that a cluster serves next (R303, R314, R315). -/
def cipherChoose (s : State) (k : Nat) : Option Nat :=
  pickSmallest (fun i => s.ciph.vt.get (cipherVt k i) 0)
    ((List.range 256).filter fun i => admitted s i (5 + k) && !(cipherJobs s k i).isEmpty)

/-- A unit of a job, after the lane error it may meet. -/
def runUnit (s : State) (k : Nat) (lane : Option (Fin 24)) (j : CJob) : State :=
  let s :=
    match lane with
    | none => s
    | some l => laneError s k l j
  if lanesLeft s k then cipherStep s k j else laneFailed s k j

/-- The cluster serves one unit of the instance it chooses. -/
def cipherServe (s : State) (k : Nat) (lane : Option (Fin 24)) : State :=
  match cipherChoose s k with
  | none => s
  | some i =>
    match cipherJobs s k i with
    | [] => s
    | j :: _ =>
      if j.started then runUnit s k lane j
      else
        match cipherStart s k j with
        | (s, none) => s
        | (s, some j) => runUnit s k lane j

/-- CIPHER_UNIT (R303, R305); no unit starts while the DRBG fails or is not seeded (R295). -/
def execCipherUnit (k : Fin 2) (lane : Option (Fin 24)) (s : State) : Res :=
  act s (if bitOf s.ciph.en k && drbgUp s then cipherServe s k lane else s)

/-! ## Alarms (R306, R307) -/

/-- Alarm limits of rail j in µV (R376): VCORE, VCACHE, VDDQ, VSERDES, VAUX, VSTBY. -/
def railLimits (j : Nat) : Int × Int :=
  [((620000 : Int), (990000 : Int)), (700000, 880000), (990000, 1210000), (800000, 990000), (1620000, 1980000),
    (3000000, 3600000)].getD j (0, 0)

/-- Sensor s stands outside the fixed limits of R371. -/
def sensorAlarms (s : State) (n : Nat) : Bool :=
  let x := s.sens n
  let v := x.value.toInt
  x.valid &&
    (if n < 6 then decide (v < (railLimits n).1) || decide ((railLimits n).2 < v)
     else if n < 30 then decide (125000 < v) || decide (v < -45000)
     else if n = 30 then decide (v < 8000) || decide (12000 < v)
     else false)

/-- The alarm source that a sensor serves (R306). -/
def sensorSource (n : Nat) : Nat := if n < 6 then 4 else if n < 30 then 5 else 6

/-- Alarm source j is active (R307): a tamper ball by its level, a sensor by its last reading. -/
def alarmActive (s : State) (j : Nat) : Bool :=
  if j < 4 then bitOf s.ciph.active j
  else if j = 7 then false
  else (List.range 31).any fun n => decide (sensorSource n = j) && sensorAlarms s n

/-- A write to CIPH_ALARM (R307, R308). -/
def alarmClear (s : State) (v : Word) : State :=
  (List.range 8).foldl (fun t j =>
    if bitOf v j && !alarmActive t j then { t with ciph := { t.ciph with alarm := setBit t.ciph.alarm j false } } else t) s

/-- TAMPER_ALARM (R306): a level counts once it has been held for 2 AON cycles; high is active. -/
def execTamperAlarm (j : Fin 4) (level : Bool) (cycles : Nat) (s : State) : Res :=
  if !s.crp.vstby || decide (cycles < 2) then done s
  else
    let s := { s with ciph := { s.ciph with active := setBit s.ciph.active j level } }
    done (if level then alarmIfEnabled s j else s)

/-- KEY_ERASURE_COMPLETE (R306). -/
def execKeyErasureComplete (s : State) : Res :=
  act s (if s.ciph.erasing then raise { s with ciph := { s.ciph with erasing := false } } 274 else s)

end Sys2Proof.Machine
end

