-- ==== Sys2Proof/Machine/DcsOps.lean ====
section
/-! DEFINITION. What the commands of the Dwegata Command Set share (02): the step of a running command, its argument
checks, its captured chunks. -/
namespace Sys2Proof.Machine

/-- Mailbox n runs a command of an opcode. -/
def running (s : State) (n op : Nat) : Bool := decide ((s.mb n).st = .running) && decide ((s.mb n).opcode = op)

/-- The firmware takes up a command that a mailbox runs and has not taken up yet; elsewhere nothing happens. -/
def takeUp (s : State) (n op : Nat) (f : State → Mailbox → State) : Res :=
  act s (if running s n op && decide ((s.mb n).step = 0) then
      let x := { s.mb n with step := 1 }
      f (s.setMb n x) x
    else s)

/-- The captured chunk names the command that runs (R43, R46): the OPCODE and TAG of its START. -/
def Mailbox.sameCommand (x : Mailbox) : Bool := decide (fld x.header 63 32 = fld x.start 63 32)

/-- Mailbox n runs a command of an opcode and a CONTINUE has brought a chunk. -/
def chunkDue (s : State) (n op : Nat) : Bool := running s n op && decide ((s.mb n).step ≠ 0) && (s.mb n).chunk

/-- A chunk of a CONTINUE is consumed (R43, R46): one with another OPCODE or TAG ends the command BAD_CONTINUE. -/
def consumeChunk (s : State) (n : Nat) (f : State → State) : State :=
  if (s.mb n).sameCommand then f s else mbFail (mbCleanup s n) n 9 []

/-- Result codes of R43 that every command uses. -/
def cBadArg : Nat := 6
def cAlready : Nat := 1

/-- Some argument word has a bit outside its fields (R404). -/
def stray (x : Mailbox) (l : List (Nat × Word)) : Bool := l.any fun p => decide (x.arg p.1 &&& ~~~p.2 ≠ 0)

/-- ARG_WORDS of the captured header (R34). -/
def Mailbox.argWords (x : Mailbox) : Nat := fld x.header 31 24

/-- LAST of the captured header (R34). -/
def Mailbox.last (x : Mailbox) : Bool := bitOf x.header 23

/-- BAD_ARGUMENT (R43): no effect. -/
def badArg (s : State) (n : Nat) : State := mbFail s n cBadArg []

/-- ALREADY_DONE (R39): nothing changes. -/
def already (s : State) (n : Nat) : State := mbDone s n cAlready []

end Sys2Proof.Machine
end

