-- ==== Sys2Proof/Machine/Fabric.lean ====
section
/-! DEFINITION. The fabric ports, port M and the root ports (12, 16 R323): scheduling, flits, link states. -/
namespace Sys2Proof.Machine

/-! ## Ports -/

/-- A port carries flits (R266). -/
def Port.isUp (x : Port) : Bool := decide (x.st = .up) || decide (x.st = .upHalf)

/-- Credits granted at link up (R265, R323). -/
def linkCredits (n : Nat) : List Nat := if n = 4 then [64, 16, 128, 64] else [32, 32, 64, 32]

/-- Flits that the replay buffer holds (R265, R323). -/
def replaySize (n : Nat) : Nat := if n = 4 then 512 else 256

/-- The number of the spare lane (R264, R323). -/
def spareLane (n : Nat) : Nat := if n = 4 then 8 else 4

/-- The flit window in ns (R264, R266, R323). -/
def windowNs (s : State) (n : Nat) : Nat :=
  let w := if n = 4 then 4 else 8
  if (s.port n).st = .upHalf then 2 * w else w

/-- A port changes its link state and raises its source (R266, R323). -/
def movePort (s : State) (n : Nat) (st : PortSt) : State := raise (s.setPort n { s.port n with st := st }) (280 + n)

/-- A message that was sent on a port that went DOWN waits for another port (R261, R267). -/
def requeue (n : Nat) (s : State) (o : SendOp) : State :=
  if o.port = some n ∧ o.st = .onWire then
    let s := setSend (chanJoin s o.inst.toNat o.cls.toNat) { o with st := .queued, stay := false, left := 0 }
    raiseFor (card s 176 1 o.inst.toNat 0 o.s) 312 o.inst.toNat o.innings
  else s

/-- What a fabric port holds is lost with the link: its SENDs go out again on other ports (R267), and synchronisation
messages wait for one. Port M keeps its records and its unacknowledged flits, since its loss has effect only through the
heartbeats (R325, log entry 104). -/
def emptyPort (s : State) (n : Nat) : State :=
  let x := s.port n
  if n = 4 then s.setPort n { x with good := 0, trained := false, replaying := x.replay } else
  let lost := (x.cur.toList ++ x.out).filter fun m => m.sync.isSome
  let s := s.setPort n { x with replay := [], replaying := [], out := [], ctl := [], rest := 0, cur := none, chosen := none
                                good := 0, trained := false, ackOwed := false, nakOwed := false, freed := [0, 0, 0, 0] }
  let s := { s with chan := { s.chan with unsent := s.chan.unsent ++ lost } }
  s.chan.sends.foldl (requeue n) s

/-- A port goes DOWN with its fault (R266). -/
def portDown (s : State) (n lane : Nat) : State :=
  let s := sendUnsent (movePort (emptyPort s n) n .down)
  card (s.setPort n { s.port n with losses := satInc (s.port n).losses }) (160 + n) 3 0 lane 0

/-- Training is complete and 64 good flits have come: the port is UP (R265, R266). Port M goes on with its sequence of
flits (log entry 104). -/
def portUp (s : State) (n : Nat) : State :=
  let x := s.port n
  let x := { x with good := 0, trained := false, credits := linkCredits n, laneFailed := 0, spare := false, last := none }
  let x := if n = 4 then x else { x with txSeq := 0, rxSeq := 0 }
  sendUnsent (movePort (s.setPort n x) n .up)

/-- Replay from the first unacknowledged flit (R265), counted. -/
def replayFrom (s : State) (n : Nat) : State :=
  let x := s.port n
  if x.replay = [] then s
  else card (s.setPort n { x with replaying := x.replay, replays := satInc x.replays }) (160 + n) 1 0 0 0

/-! ## Scheduling (R268, R315) -/

/-- The port that the next attempt of a SEND uses (R261). -/
def targetPort (s : State) (o : SendOp) : Option Nat :=
  match o.port with
  | none => firstPort s o.s
  | some n => if o.stay && (s.port n).isUp then some n else nextPort s o.s n

/-- Messages of a subchannel on the wire without an acknowledgement (R261). -/
def onWire (s : State) (sub : Nat) : Nat :=
  (s.chan.sends.filter fun o => decide (o.s = sub) && (decide (o.st = .onWire) || decide (o.st = .rnrWait))).length

/-- Flits of a message with L payload bytes (R264). -/
def flitsOf (len : Nat) : Nat := (32 + len + 383) / 384

/-- In PARTNER_LOST no first flit leaves on a mirrored subchannel (R337). -/
def heldFirst (s : State) (o : SendOp) : Bool := decide (s.dup.st = .partnerLost) && sdMirror s o.s

/-- A SEND is eligible for an attempt on a port (R261, R268, R337). -/
def sendReady (s : State) (n : Nat) (o : SendOp) : Bool :=
  decide (o.st = .queued) && decide (targetPort s o = some n) && decide (onWire s o.s < 64) && !heldFirst s o

/-- A SEND is eligible for a flit window of a port (R268): for its attempt's first flit or for a later one. -/
def eligibleFlit (s : State) (n : Nat) (o : SendOp) : Bool :=
  sendReady s n o ||
    (decide (o.st = .onWire) && decide (o.port = some n) && decide (0 < o.left) &&
      !(decide (o.left = flitsOf o.length) && heldFirst s o))

/-- A SEND travels in the first tier: C0 within its instance's limit, and every later attempt of one (R268, R314). -/
def firstTier (s : State) (o : SendOp) : Bool :=
  decide (o.cls = 0) && !o.demoted && (decide (o.attempts ≠ 0) || admitted s o.inst.toNat 0)

/-- The class in which a SEND travels and is credited: excess C0 goes as C1 (R268). -/
def linkClass (s : State) (o : SendOp) : BitVec 2 := if o.cls = 0 ∧ firstTier s o = false then 1 else o.cls

/-- A port may send a DATA flit of a class (R265). -/
def Port.mayData (x : Port) (n : Nat) (cls : BitVec 2) : Bool :=
  decide (0 < x.credits.getD cls.toNat 0) && decide (x.replay.length < replaySize n)

/-- Weight of a class in the second tier (R273). -/
def classWeight (s : State) (cls : Nat) : Nat := max 1 (fld s.chan.clswt (8 * cls + 7) (8 * cls))

/-- The scale of the classes' virtual times: every weight of 1 to 255 divides it. -/
def classScale : Nat :=
  8337245403447921335829504375888192675135162254454825924977726845769444687965016467695833282339504042669808000

/-- The next SEND of the second tier: by instance, then by class, then in order of acceptance (R268, R315). -/
def secondTier (s : State) (ready : List SendOp) : Option SendOp :=
  let vt (k : Nat) : Nat := s.chan.vt.get k 0
  match pickSmallest vt ((List.range 256).filter fun i => ready.any fun o => decide (o.inst.toNat = i)) with
  | none => none
  | some i =>
    let mine := ready.filter fun o => decide (o.inst.toNat = i)
    match pickSmallest (fun c => vt (classKey i c)) ((List.range 4).filter fun c => mine.any fun o => decide (o.cls.toNat = c)) with
    | none => none
    | some c => mine.find? fun o => decide (o.cls.toNat = c)

/-- Charge the virtual times of the second tier for a flit window (R315). -/
def chargeTier (s : State) (o : SendOp) : State :=
  let i := o.inst.toNat
  let c := o.cls.toNat
  let vt := s.chan.vt.set i (s.chan.vt.get i 0 + vtStep 1 (weightOf s i 0))
  let vt := vt.set (classKey i c) (vt.get (classKey i c) 0 + 64 * (classScale / classWeight s c))
  { s with chan := { s.chan with vt := vt } }

/-- A C0 SEND that is scheduled in the second tier is demoted and counted (R268, R322). -/
def demote (s : State) (o : SendOp) : State × SendOp :=
  if o.cls = 0 ∧ o.demoted = false then
    let i := o.inst.toNat
    (s.setInst i { s.inst i with thrch := satInc (s.inst i).thrch }, { o with demoted := true })
  else (s, o)

/-- A SEND's attempt starts on a port; the first attempt of a C0 SEND is charged (R261, R314). -/
def startAttempt (s : State) (n : Nat) (o : SendOp) : State :=
  let s := if o.cls = 0 ∧ o.attempts = 0 then charge s o.inst.toNat 0 (32 + o.length) else s
  setSend s { o with st := .onWire, attempts := o.attempts + 1, port := some n, stay := false, left := flitsOf o.length }

/-- A SEND is chosen for the next flit window of a port. -/
def choose (s : State) (n : Nat) (o : SendOp) : State :=
  let s := if o.st = .queued then startAttempt s n o else s
  s.setPort n { s.port n with chosen := some (o.s, o.seq) }

/-- A port chooses for its next flit window (R268): the first tier in order of acceptance, then the second by weights. -/
def schedule (s : State) (n : Nat) : State :=
  let x := s.port n
  let ready := s.chan.sends.filter fun o => eligibleFlit s n o && x.mayData n (linkClass s o)
  match ready.find? (firstTier s) with
  | some o => choose s n o
  | none =>
    match secondTier s ready with
    | none => s
    | some o => let (t, o') := demote (chargeTier s o) o; choose t n o'

/-- The SEND that has been chosen for the next window and may still have it. -/
def chosenSend (s : State) (n : Nat) : Option SendOp :=
  match (s.port n).chosen with
  | none => none
  | some (sub, seq) =>
    match findSend s sub seq with
    | none => none
    | some o => if eligibleFlit s n o && (s.port n).mayData n (linkClass s o) then some o else none

/-- The choice for the next window stands, or is made (R268). -/
def scheduled (s : State) (n : Nat) : State :=
  if s.chan.en && (chosenSend s n).isNone then schedule (s.setPort n { s.port n with chosen := none }) n else s

/-- SEND_SCHEDULE (R268). -/
def execSendSchedule (port : Fin 4) (s : State) : Res := act s (if (s.port port).isUp then scheduled s port else s)

/-! ## Flits (R264, R265) -/

/-- Class and length of an answer on the link; what a SYNC_RSP adds to its header is 66 words (R262, log entry 24). -/
def OutMsg.shape : OutMsg → BitVec 2 × Nat
  | .ack h => (h.cls, 0)
  | .nak h _ => (h.cls, 0)
  | .syncRsp .. => (0, 528)
  | _ => (0, 0)

/-- What a CONTROL message asks of the link (R266). -/
def OutMsg.note : OutMsg → Option LinkNote
  | .spareLane l => some (.spare (Fin.ofNat 9 l))
  | .halfWidth => some .half
  | .countAsk n => some (.countAsk n)
  | _ => none

/-- SEG of a flit (R264): flits of the message in all, and those still to leave with this one. -/
def segOf (total left : Nat) : BitVec 2 :=
  if total ≤ 1 then 0 else if left = total then 1 else if left = 1 then 3 else 2

/-- Every other SEND that is eligible on a port while one is sent has been delayed by a window (R252). -/
def delayOthers (s : State) (n : Nat) (o : SendOp) : State :=
  let w := windowNs s n
  let late (k : SendOp) : SendOp :=
    if (k.s ≠ o.s ∨ k.seq ≠ o.seq) ∧ eligibleFlit s n k = true then { k with delayed := satAdd k.delayed w } else k
  { s with chan := { s.chan with sends := s.chan.sends.map late } }

/-- A flit of a port with its trailer (R264): acknowledgement or NAK, and credits, 4 bits for each class. -/
def mkFlit (x : Port) (e : ReplayEntry) : Flit :=
  let give := (List.range 4).foldl (fun a k => a + (min 15 (x.freed.getD k 0)) * 16 ^ k) 0
  { ftype := e.ftype, lseq := e.lseq, cls := e.cls, seg := e.seg, link := e.ctl.bind OutMsg.note, ackLseq := x.rxSeq - 1
    ackValid := x.ackOwed, nak := x.nakOwed, credits := BitVec.ofNat 16 give, good := true }

/-- A flit leaves and takes its trailer with it. -/
def sendFlit (x : Port) (e : ReplayEntry) : Port :=
  { x with last := some (mkFlit x e), ackOwed := false, nakOwed := false, freed := x.freed.map fun k => k - min 15 k }

/-- An IDLE flit leaves (R264). -/
def idleFlit (x : Port) : Port := sendFlit x { ftype := 0, lseq := x.txSeq, cls := 0, seg := 0, ctl := none }

/-- A new flit leaves: it takes the next link sequence number and enters the replay buffer. -/
def newFlit (x : Port) (ftype : BitVec 4) (cls seg : BitVec 2) (ctl : Option OutMsg) : Port :=
  let e : ReplayEntry := { ftype := ftype, lseq := x.txSeq, cls := cls, seg := seg, ctl := ctl }
  { sendFlit x e with txSeq := x.txSeq + 1, replay := x.replay ++ [e] }

/-- A new DATA flit leaves and spends a credit of its class (R265). -/
def dataFlit (x : Port) (cls seg : BitVec 2) : Port :=
  let y := newFlit x 1 cls seg none
  { y with credits := y.credits.set cls.toNat (y.credits.getD cls.toNat 0 - 1) }

/-- The answer in hand, or the next one of the queue. -/
def takeMsg (x : Port) : Port :=
  if x.rest ≠ 0 then x else
  match x.out with
  | [] => { x with cur := none }
  | m :: r => { x with out := r, cur := some m, rest := flitsOf m.shape.2 }

/-- A flit of the answer in hand leaves; none where it must wait for a credit. -/
def answerFlit (x : Port) (n : Nat) : Option Port :=
  let x := takeMsg x
  match x.cur with
  | none => none
  | some m =>
    if decide (x.rest ≠ 0) && x.mayData n m.shape.1 then
      let y := dataFlit x m.shape.1 (segOf (flitsOf m.shape.2) x.rest)
      some { y with rest := x.rest - 1, cur := if x.rest = 1 then none else x.cur }
    else none

/-- A flit of the chosen SEND leaves (R264, R268). -/
def sendDataFlit (s : State) (n : Nat) (o : SendOp) : State :=
  let cls := linkClass s o
  let s := setSend (delayOthers s n o) { o with left := o.left - 1 }
  let y := dataFlit (s.port n) cls (segOf (flitsOf o.length) o.left)
  s.setPort n { y with chosen := none }

/-- Class of a mirror record (R323, R330). -/
def MirRec.cls : MirRec → BitVec 2
  | .write c _ _ _ => c
  | .jhead _ _ => 0
  | .commit _ _ => 1

/-- Bytes of a mirror record (R324). -/
def MirRec.size : MirRec → Nat
  | .write _ _ _ d => 8 + d.length
  | _ => 8

/-- The records that are left, and the bytes of the first that have left, after a flit with a given room takes records of a
class from the front of the stream (R324). -/
def packRecords (cls : BitVec 2) : Nat → Nat → List MirRec → List MirRec × Nat
  | _, _, [] => ([], 0)
  | room, part, m :: r =>
    if room = 0 ∨ m.cls ≠ cls then (m :: r, part)
    else if m.size - part ≤ room then packRecords cls (room - (m.size - part)) 0 r
    else (m :: r, part + room)

/-- A DATA flit of port M leaves: records of the class of the oldest one, up to 384 bytes, in the order in which they were
made (R324, R328, R330, log entry 104). -/
def mirrorFlit (x : Port) : Port :=
  match x.mir with
  | [] => idleFlit x
  | m :: _ =>
    if x.mayData 4 m.cls then
      let (l, part) := packRecords m.cls 384 x.mirPart x.mir
      { dataFlit x m.cls 0 with mir := l, mirPart := part }
    else idleFlit x

/-- The zone lines from a number on, in ascending zone and address order (R332). -/
def zoneLine (s : State) : List Nat → Nat → Option Nat
  | [], _ => none
  | z :: r, k =>
    let b := s.dup.zbase.get z 0
    let n := if bitOf b 0 then fld (s.dup.zsize.get z 0) 51 16 * 512 else 0
    if k < n then some (fld b 51 16 * 512 + k) else zoneLine s r (k - n)

/-- The synchronisation copies its next line in class 3 (R332). -/
def copyNext (s : State) : State :=
  match zoneLine s (List.range 64) s.dup.copied with
  | none => s
  | some ln =>
    let s := sendRecords s [.write 3 ln 0xFF#8 (readBytes s (ln * 128) 128)]
    { s with dup := { s.dup with copied := s.dup.copied + 1 } }

/-- A primary whose partner has answered copies its zones (R332). -/
def copying (s : State) : Bool :=
  decide (s.dup.st = .syncing) && !s.dup.role &&
    (match s.dup.bindMb with
     | none => false
     | some n => decide ((s.mb n).step = 2))

/-- While the link has room the copy goes on, and PROGRESS with it, in MiB (R332). -/
def copyStep (s : State) : State :=
  if !copying s || decide (3 ≤ (s.port 4).mir.length) then s else
  let s := [0, 1, 2].foldl (fun t _ => copyNext t) s
  match s.dup.bindMb with
  | none => s
  | some n => s.setMb n { s.mb n with progress := BitVec.ofNat 32 (s.dup.copied / 8192) }

/-- A window of a fabric port that has neither a replay nor a CONTROL flit to send: an answer, the chosen SEND, or IDLE. -/
def fabricWindow (s : State) (n : Nat) : State :=
  match answerFlit (s.port n) n with
  | some y => s.setPort n y
  | none =>
    let s := scheduled s n
    match chosenSend s n with
    | some o => if s.chan.en then sendDataFlit s n o else s.setPort n (idleFlit (s.port n))
    | none => s.setPort n (idleFlit (s.port n))

/-- What a bind from SOLO has held back finishes once the module is SOLO again (R332, R337). -/
def soloRelease (s : State) : State := if s.dup.st = .solo then releaseMirrored s else s

/-- One flit window of a port that is up (R264, R265): a replayed flit, a CONTROL flit, a DATA flit, or IDLE. -/
def window (s : State) (n : Nat) : State :=
  let x := s.port n
  match x.replaying, x.ctl with
  | r :: l, _ => s.setPort n (sendFlit { x with replaying := l } r)
  | [], c :: l =>
    if x.replay.length < replaySize n then s.setPort n (newFlit { x with ctl := l } 2 0 0 (some c))
    else s.setPort n (idleFlit x)
  | [], [] =>
    if n = 4 then
      let s := copyStep s
      s.setPort 4 (mirrorFlit (s.port 4))
    else fabricWindow s n

/-- FLIT_WINDOW (R264). -/
def execFlitWindow (port : Fin 5) (s : State) : Res := act s (if (s.port port).isUp then window (soloRelease s) port else s)

/-- Flits after an acknowledged one (R264). -/
def ackReplay (ack : BitVec 12) (l : List ReplayEntry) : List ReplayEntry :=
  if l.any fun e => decide (e.lseq = ack) then (l.dropWhile fun e => decide (e.lseq ≠ ack)).drop 1 else l

/-- Credits in a trailer. -/
def addCredits (l : List Nat) (w : BitVec 16) : List Nat :=
  (List.range 4).map fun k => l.getD k 0 + fld w (4 * k + 3) (4 * k)

/-- A CONTROL message waits in a port that is up. -/
def queueCtl (s : State) (n : Nat) (m : OutMsg) : State :=
  if (s.port n).isUp then s.setPort n { s.port n with ctl := (s.port n).ctl ++ [m] } else s

/-- The other end moves a lane to the spare, or goes to half width, and this end follows (R266, log entry 103); or it asks
for the count of applied records (R324, log entry 106). -/
def takeNote (s : State) (n : Nat) : LinkNote → State
  | .spare lane =>
    let x := s.port n
    if x.spare then s else s.setPort n { x with spare := true, laneFailed := setBit x.laneFailed lane.val true }
  | .half => if (s.port n).st = .up then movePort s n .upHalf else s
  | .countAsk k => if n = 4 then queueCtl { s with dup := { s.dup with askUpTo := k } } 4 (.applied s.dup.appliedHere) else s

/-- A flit that passes its CRC on a port that is up: its trailer, then its sequence number (R264, R265). -/
def goodFlit (s : State) (n : Nat) (f : Flit) : State :=
  let x := s.port n
  let left := if f.ackValid || f.nak then ackReplay f.ackLseq x.replay else x.replay
  let x := { x with credits := addCredits x.credits f.credits, replay := left
                    replaying := x.replaying.filter fun e => left.contains e }
  let ahead := (f.lseq - x.rxSeq).toNat
  let fresh := decide (f.ftype ≠ 0) && decide (ahead = 0)
  let x :=
    if f.ftype = 0 then x
    else if ahead = 0 then
      let freed := if f.ftype = 1 then x.freed.set f.cls.toNat (x.freed.getD f.cls.toNat 0 + 1) else x.freed
      { x with rxSeq := x.rxSeq + 1, ackOwed := true, freed := freed }
    else if 2048 ≤ ahead then { x with ackOwed := true }
    else { x with nakOwed := true }
  let s := s.setPort n x
  let s :=
    match f.link with
    | none => s
    | some k => if fresh && decide (f.ftype = 2) then takeNote s n k else s
  if f.nak then replayFrom s n else s

/-- A flit is received (R264 to R266); a reserved type counts as failing its CRC. -/
def receiveFlit (s : State) (n : Nat) (f : Flit) : State :=
  let x := s.port n
  let ok := f.good && decide (f.ftype.toNat ≤ 2)
  if x.st = .training ∧ x.trained = true then
    (if !ok then s.setPort n { x with good := 0 }
     else if 63 ≤ x.good then portUp s n
     else s.setPort n { x with good := x.good + 1 })
  else if x.isUp then (if ok then goodFlit s n f else s.setPort n { x with nakOwed := true })
  else s

/-- FLIT_RECEIVED (R265). -/
def execFlitReceived (port : Fin 5) (f : Flit) (s : State) : Res := act s (receiveFlit s port f)

/-- LINK_REPLAY_TIMEOUT (R265): 1 µs without acknowledgement. -/
def execLinkReplayTimeout (port : Fin 5) (s : State) : Res :=
  act s (if (s.port port).isUp then replayFrom s port else s)

/-! ## Link states (R266) -/

/-- A lane is active: a numbered lane, or the spare once in use, that has not failed. -/
def laneActive (x : Port) (n lane : Nat) : Bool :=
  !bitOf x.laneFailed lane && (decide (lane < spareLane n) || (decide (lane = spareLane n) && x.spare))

/-- The other end of a link is told of a change (R266). -/
def tellLink (s : State) (n : Nat) (m : OutMsg) : State := s.setPort n { s.port n with ctl := (s.port n).ctl ++ [m] }

/-- A lane of a port fails (R266, R323): the two ends agree through a CONTROL flit. -/
def laneFails (s : State) (n lane : Nat) : State :=
  let x := s.port n
  if !x.isUp || !laneActive x n lane then s else
  let s := s.setPort n { x with laneFailed := setBit x.laneFailed lane true, laneFails := satInc x.laneFails }
  if x.st = .upHalf then portDown s n lane
  else if x.spare then card (movePort (tellLink s n .halfWidth) n .upHalf) (160 + n) 4 0 lane 0
  else
    let s := tellLink s n (.spareLane lane)
    let y := s.port n
    let s := s.setPort n { y with spare := true, replaying := y.replay }
    let s := if n = 4 then raise s 278 else s
    card (movePort s n .up) (160 + n) 2 0 lane 0

/-- LANE_FAILURE (R266). A lane number that the port does not have is no command. -/
def execLaneFailure (port : Fin 5) (lane : Fin 9) (s : State) : Res :=
  if lane.val ≤ spareLane port then act s (laneFails s port lane) else .refused .illFormed

/-- LINK_SILENCE_TIMEOUT (R266). -/
def execLinkSilenceTimeout (port : Fin 5) (s : State) : Res :=
  act s (if (s.port port).isUp then portDown s port 0 else s)

/-- TRAINING_COMPLETE (R266): 64 good flits then take the port UP; a training that fails leaves it DOWN. -/
def execTrainingComplete (port : Fin 5) (ok : Bool) (s : State) : Res :=
  let x := s.port port
  act s (if x.st ≠ .training then s
    else if ok then s.setPort port { x with trained := true, good := 0 }
    else portDown s port 0)

/-- A DOWN port that is enabled trains (R266); port M has no enable. -/
def train (s : State) (n : Nat) : State :=
  let x := s.port n
  if x.st = .down ∧ (x.en = true ∨ n = 4) then movePort (s.setPort n { x with trained := false, good := 0 }) n .training else s

/-- RETRAIN_TIMER (R266). -/
def execRetrainTimer (port : Fin 5) (s : State) : Res := act s (train s port)

/-! ## Root ports (R271, R272) -/

/-- An MSI-X message (R214): data 0 to 127 raises its source, other data is counted. -/
def msix (s : State) (port : Bool) (data : BitVec 32) : State :=
  if data.toNat < 128 then raise s (512 + 128 * b2n port + data.toNat)
  else { s with ert := { s.ert with msidrop := satInc s.ert.msidrop } }

/-- MSIX_WRITE (R213, R214). -/
def execMsixWrite (port : Bool) (data : BitVec 32) (s : State) : Res := act s (msix s port data)

/-- The last completion. -/
def complete (s : State) (c : Cpl) : State := { s with bus := { s.bus with cpl := c } }

/-- An inbound request of a root port (R272). -/
def inbound (s : State) (port : Bool) : PcieReq → State
  | .read a n => complete s (if s.inMemory a.toNat n then .bytes (Memory.bytes s.mem a.toNat n) else .unsupported)
  | .write a l =>
    if a = 0xFEE00000#64 ∧ l.length = 4 then msix s port (BitVec.ofNat 32 (leNat l))
    else if s.inMemory a.toNat l.length then agentStore s 0 a.toNat l
    else complete s .unsupported

/-- The bytes of an inbound request: 1 to 512 (R271). -/
def pcieSize : PcieReq → Nat
  | .read _ n => n
  | .write _ l => l.length

/-- PCIE_INBOUND_REQUEST (R272). Without a credit the request has not entered its queue and is sent again (R12). -/
def execPcieInboundRequest (port : Bool) (req : PcieReq) (s : State) : Res :=
  if 1 ≤ pcieSize req ∧ pcieSize req ≤ 512 then
    act s (if noCredit s .pcieInbound (b2n port) 0 then s else inbound s port req)
  else .refused .illFormed

/-- A link change or an error at a root port (R236, R272). -/
def rootEvent (s : State) (port : Bool) (ev : RootEv) (requester : BitVec 16) : State :=
  let src := 165 + b2n port
  let id := requester.toNat
  let s := raise s (285 + b2n port)
  let set (t : State) (up : Bool) : State :=
    { t with chan := { t.chan with rootUp0 := if port then t.chan.rootUp0 else up
                                   rootUp1 := if port then up else t.chan.rootUp1 } }
  match ev with
  | .linkUp => set s true
  | .linkDown => card (set s false) src 3 0 0 id
  | .correctable => card s src 1 0 0 id
  | .nonFatal => card s src 2 0 0 id
  | .fatal => card s src 3 0 0 id

/-- ROOT_PORT_LINK_EVENT (R272). -/
def execRootPortLinkEvent (port : Bool) (ev : RootEv) (requester : BitVec 16) (s : State) : Res :=
  act s (rootEvent s port ev requester)

/-- MGPERST (R385): only the management link is reset; it carries nothing while the ball is asserted. -/
def execMgperst (asserted : Bool) (s : State) : Res := done { s with chan := { s.chan with mgmtUp := !asserted } }

end Sys2Proof.Machine
end

