-- ==== Sys2Proof/Machine/Duplex.lean ====
section
/-! DEFINITION. The duplex engine (16): records, heartbeats, binding, checkpoints, takeover. -/
namespace Sys2Proof.Machine

/-! ## Messages of port M -/

/-- STATE as DUPX_STATE numbers it (R340). -/
def DupSt.code : DupSt → Nat
  | .unbound => 0
  | .syncing => 1
  | .primary => 2
  | .backup => 3
  | .partnerLost => 4
  | .takingOver => 5
  | .solo => 6
  | .fenced => 7

/-- A HEARTBEAT goes to the partner (R325). -/
def sendHeartbeat (s : State) : State :=
  queueCtl s 4 (.heartbeat s.dup.role s.chan.modid (BitVec.ofNat 3 s.dup.st.code))

/-! ## The backup's side of mirroring (R324) -/

/-- The module applies mirror records: as BACKUP, and while it is synchronised as one. -/
def applies (s : State) : Bool := decide (s.dup.st = .backup) || (decide (s.dup.st = .syncing) && s.dup.role)

/-- One more record is applied; the count goes back every 256 records, and at once while the partner's DUPX_SYNC read waits
for it (R324). -/
def countApplied (s : State) : State :=
  let n := s.dup.appliedHere + 1
  let s := { s with dup := { s.dup with appliedHere := n } }
  if n % 256 = 0 ∨ n ≤ s.dup.askUpTo then queueCtl s 4 (.applied n) else s

/-- A record's bytes are written under the L3 mask of instance 0 (R326); nothing goes back to the partner. -/
def applyBytes (s : State) (a : Nat) (l : List Byte) : State :=
  let s := unpoison { drainLines s a l.length with mem := Memory.writes s.mem a l } a l.length
  (linesOf a l.length).foldl (fun t ln => l3Insert (dropOthers t 99 ln) ln 0 true) s

/-- The sectors of a record are written in ascending order (R324). -/
def applySectors (mask : BitVec 8) (line : Nat) : List Nat → List Byte → State → State
  | [], _, s => s
  | j :: r, data, s =>
    if bitOf mask j then applySectors mask line r (data.drop 16) (applyBytes s (line * 128 + 16 * j) (data.take 16))
    else applySectors mask line r data s

/-- A record is dropped, counted and reported with the partner's module ID (R236, R324, R340). -/
def dropRecord (s : State) : State :=
  card { s with dup := { s.dup with dropped := satInc s.dup.dropped } } 308 1 0 0 s.dup.partner.toNat

/-- A checkpoint slot that is written again is not committed until its next CKPT_COMMIT (R333, R334). -/
def uncommit (s : State) (line : Nat) : State :=
  let base := fld s.dup.ckptBase 51 14 * 2 ^ 14
  let off := line * 128 - base
  if line * 128 < base ∨ 2 ^ 14 ≤ off then s else
  { s with dup := { s.dup with commits := s.dup.commits.filter fun e =>
      !(decide (e.ctx = off / 512) && e.buf == decide (off / 256 % 2 = 1)) } }

/-- A WRITE record: a whole line is one write; a record for an address that holds nothing fails (R236, R407). -/
def applyWrite (s : State) (line : Nat) (mask : BitVec 8) (data : List Byte) : State :=
  if s.inMemory (line * 128) 128 then
    let s := uncommit s line
    countApplied (if mask = 0xFF#8 then applyBytes s (line * 128) data else applySectors mask line (List.range 8) data s)
  else dropRecord s

/-- Sectors in a mask. -/
def sectors (mask : BitVec 8) : Nat := ((List.range 8).filter fun j => bitOf mask j).length

/-- MIRROR_WRITE (R324, R326): a WRITE record, which carries 16 bytes for each sector of its mask, or a record of a reserved
type; JHEAD and CKPT_COMMIT are commands of their own. -/
def execMirrorWrite (line : Line) (mask : BitVec 8) (data : List Byte) (s : State) (rtype : BitVec 4 := 1) : Res :=
  if rtype = 2 ∨ rtype = 3 then .refused .illFormed
  else if rtype ≠ 1 then act s (if applies s then dropRecord s else s)
  else if data.length = 16 * sectors mask then act s (if applies s then applyWrite s line mask data else s)
  else .refused .illFormed

/-- MIRROR_JHEAD (R324). -/
def execMirrorJhead (inst : BitVec 8) (head : BitVec 24) (s : State) : Res :=
  act s (if applies s then
      countApplied { s with dup := { s.dup with jheads := s.dup.jheads.set inst.toNat head } }
    else s)

/-- MIRROR_CKPT_COMMIT (R324, R333). -/
def execMirrorCkptCommit (buf : Bool) (c : Fin 32) (s : State) : Res :=
  act s (if applies s then
      let e : Commit := { ctx := c, buf := buf }
      countApplied { s with dup := { s.dup with commits := e :: s.dup.commits.filter fun k => decide (k ≠ e) } }
    else s)

/-! ## The primary's side -/

/-- The count that DUPX_SYNC returns (R330). -/
def appliedCount (s : State) : Word := w64 (s.dup.partnerApplied - s.dup.sentBase)

/-- Reads of DUPX_SYNC that wait are answered with all ones when the partner is lost (R330). -/
def syncLost (s : State) : State :=
  if s.dup.syncWaiters = [] then s
  else complete { s with dup := { s.dup with syncWaiters := [] } } (.data 0xFFFFFFFFFFFFFFFF#64)

/-- Reads of DUPX_SYNC whose records are applied return (R330). -/
def syncServe (s : State) : State :=
  let due := s.dup.syncWaiters.filter fun w => decide (w.2 ≤ s.dup.partnerApplied)
  let keep := s.dup.syncWaiters.filter fun w => decide (s.dup.partnerApplied < w.2)
  if due = [] then s else complete { s with dup := { s.dup with syncWaiters := keep } } (.data (appliedCount s))

/-- A relinquishing primary whose held operations have all been mirrored sends its final HEARTBEAT, FENCED (R338). -/
def relinquishIfQuiet (s : State) : State :=
  let held := s.chan.sends.any (fun o => decide (o.st = .heldBack)) || !s.chan.rxHeld.isEmpty
  if s.dup.relinquishing && !held && decide (s.dup.st = .primary) then
    sendHeartbeat (dupMove { s with dup := { s.dup with relinquishing := false } } .fenced)
  else s

/-- APPLIED_COUNT (R324): the partner's cumulative count since the bind. -/
def execAppliedCount (n : BitVec 64) (s : State) : Res :=
  act s (if mirroring s then
      let v := max s.dup.partnerApplied (min s.dup.sent (s.dup.sentBase + n.toNat))
      relinquishIfQuiet (releaseMirrored (syncServe { s with dup := { s.dup with partnerApplied := v } }))
    else s)

/-- HEARTBEAT_SEND (R325). -/
def execHeartbeatSend (s : State) : Res := act s (sendHeartbeat s)

/-! ## Takeover (R334, R335, R338) -/

/-- The partner's loss is reported (R335). -/
def reportLoss (s : State) : State := card (raise s 276) 308 2 0 0 s.dup.partner.toNat

/-- CLAIM goes out on each fabric port that is UP (R334). -/
def sendClaims (s : State) : State :=
  [0, 1, 2, 3].foldl (fun t n => queueCtl t n (.claim t.chan.modid)) s

/-- Step 4 of R334 for one subchannel: mirrored ones are bound with FRESH = 0, the others become UNBOUND. -/
def takeSub (s : State) (sub : Nat) : State :=
  let st := sdState s sub
  if st = 0 then s
  else if sdMirror s sub then startSync s sub
  else setSdState s sub 0

/-- Steps 1 to 4 of R334. -/
def startTakeover (s : State) : State :=
  let s := dupMove { s with dup := { s.dup with fromBackup := true, relAsked := false, resolved := 0 } } .takingOver
  let s := sendClaims { s with chan := { s.chan with modid := s.dup.partner } }
  let s := s.dup.jheads.foldl (fun t p => t.setJour p.1 { t.jour p.1 with head := p.2 }) s
  (List.range 65536).foldl takeSub s

/-- Address of a checkpoint slot (R333). -/
def slotAddr (s : State) (c : Nat) (buf : Bool) : Nat := fld s.dup.ckptBase 51 14 * 2 ^ 14 + 512 * c + 256 * b2n buf

/-- Word k of a checkpoint slot. -/
def slotWord (s : State) (c : Nat) (buf : Bool) (k : Nat) : Word := readWord s (slotAddr s c buf + 8 * k)

/-- The committed slot of a context with the higher sequence number (R334). -/
def bestSlot (s : State) (c : Nat) : Option Bool :=
  let ok (b : Bool) : Bool := s.dup.commits.contains { ctx := c, buf := b } && decide (slotWord s c b 0 ≠ 0)
  if ok false && ok true then some (decide (slotWord s c false 0 < slotWord s c true 0))
  else if ok false then some false
  else if ok true then some true
  else none

/-- The registers of a checkpoint slot (R333). -/
def loadSlot (s : State) (c : Nat) (b : Bool) : Ctx :=
  let w := slotWord s c b
  { Ctx.reset with
    pc := evenPc (w 1), a := w 2, x := w 3, y := w 4, su := w 5, ss := w 6, sh := w 7, ps := setFld (w 8) 31 24 0, fpsr := w 9
    vbaseS := w 10, vbaseH := w 11, ttb := w 12, fresh := false }

/-- Step 5 of R334 for one context. -/
def takeContext (s : State) (c : Nat) : State :=
  let left (t : State) : State := { t with dup := { t.dup with leftStopped := satInc t.dup.leftStopped } }
  match bestSlot s c with
  | none => left s
  | some b =>
    let o := fld (slotWord s c b 13) 7 0
    if !(s.inst o).present then left s else
    let s := ertCtxReset s c
    let s := s.setCtx c (loadSlot s c b)
    let s := { s with insts := { s.insts with ctxown := s.insts.ctxown.set c (BitVec.ofNat 8 o) } }
    releaseCtx s c

/-- The contexts of DUPX_CKPTMASK. -/
def ckptCtxs (s : State) : List Nat := ctxNums.filter fun c => bitOf s.dup.ckptMask c

/-- Steps 5 and 6 of R334; the command that asked for the takeover ends. -/
def finishTakeover (s : State) : State :=
  let s := (ckptCtxs s).foldl takeContext s
  let s := releaseMirrored (raise (dupMove s .solo) 277)
  match s.dup.takeMb with
  | none => s
  | some n => mbDone { s with dup := { s.dup with takeMb := none } } n 0 [w64 s.dup.resolved.toNat]

/-- TAKEOVER_COMPLETE (R334, R335). -/
def execTakeoverComplete (s : State) : Res := act s (if s.dup.st = .takingOver then finishTakeover s else s)

/-- RELINQUISH_TIMEOUT (R338): the takeover proceeds as for a lost partner. -/
def execRelinquishTimeout (s : State) : Res :=
  act s (if s.dup.st = .backup ∧ s.dup.relAsked = true then startTakeover (reportLoss s) else s)

/-! ## Heartbeats -/

/-- A bind fails in its mailbox and leaves SYNCING (R332). -/
def bindFails (s : State) (code : Nat) : State :=
  match s.dup.bindMb with
  | none => soloRelease (bindEnd s)
  | some n => mbFail (soloRelease (bindEnd s)) n code []

/-- The zone table as R332 compares it. -/
def zoneTable (s : State) : List (Word × Word) := (List.range 64).map fun z => (s.dup.zbase.get z 0, s.dup.zsize.get z 0)

/-- The partner's bind agrees with this one (R332): each names the other, in the other role, with the same heartbeat period,
zone table and DUPX_CKPTBASE. -/
def bindAgrees (s : State) (role : Bool) (modid : BitVec 14) (b : BindInfo) : Bool :=
  decide (modid = s.dup.partner) && decide (b.partner = s.chan.modid) && decide (role ≠ s.dup.role) &&
    decide (b.period = s.dup.period) && decide (b.zones = zoneTable s) && decide (b.ckptBase = s.dup.ckptBase)

/-- The partner has sent its DUPLEX_BIND and this module has taken it (R332). -/
def bindTaken (s : State) : Bool :=
  match s.dup.bindMb with
  | none => false
  | some n => decide ((s.mb n).step = 2)

/-- A HEARTBEAT during a bind (R332): the first with the partner's bind is compared with this one; a partner that has then
gone back to UNBOUND or SOLO has ended the bind (log entry 107). -/
def bindHeard (s : State) (role : Bool) (modid : BitVec 14) (st : BitVec 3) (bind : Option BindInfo) : State :=
  match s.dup.bindMb, bind with
  | some n, some b =>
    if bindTaken s then s
    else if bindAgrees s role modid b then s.setMb n { s.mb n with step := 2 }
    else bindFails s 0x5B
  | _, _ => if bindTaken s ∧ (st = 0 ∨ st = 6) then bindFails s 0x5A else s

/-- HEARTBEAT (R325, R332, R334, R338). -/
def execHeartbeat (role : Bool) (modid : BitVec 14) (st : BitVec 3) (s : State) (bind : Option BindInfo := none) : Res :=
  let s' := { s with dup := { s.dup with lost := false } }
  act s (match s.dup.st with
    | .takingOver => queueCtl s' 4 .fenceFlit
    | .solo => if s.dup.fromBackup then queueCtl s' 4 .fenceFlit else s'
    | .syncing => bindHeard s' role modid st bind
    | .backup => if s.dup.relAsked && decide (st = 7) then startTakeover s' else s'
    | _ => s')

/-- The partner is declared lost (R325, R331, R335, R337). -/
def partnerLoss (s : State) : State :=
  match s.dup.st with
  | .primary =>
    let s := syncLost { s with dup := { s.dup with relinquishing := false } }
    if s.dup.onLoss then releaseMirrored (dupMove (reportLoss s) .solo) else dupMove (reportLoss s) .partnerLost
  | .backup =>
    if s.dup.lost then s
    else if s.dup.autoTakeover then startTakeover (reportLoss s)
    else reportLoss { s with dup := { s.dup with lost := true } }
  | .syncing => bindFails (reportLoss (syncLost s)) 0x5A
  | _ => s

/-- PARTNER_LOSS (R325). -/
def execPartnerLoss (s : State) : Res := act s (partnerLoss s)

/-- FENCE_FLIT (R331): a primary without a backup has been replaced. -/
def execFenceFlit (s : State) : Res := act s (if s.dup.st = .partnerLost then dupMove s .fenced else s)

/-- RELINQUISH (R338). -/
def execRelinquish (s : State) : Res :=
  act s (if s.dup.st = .primary then relinquishIfQuiet { s with dup := { s.dup with relinquishing := true } } else s)

/-- DUPX_CFG.SOLO written in PARTNER_LOST (R331, R337). -/
def enterSolo (s : State) : State := if s.dup.st = .partnerLost then releaseMirrored (dupMove s .solo) else s

/-! ## Checkpoints (R333) -/

/-- The 32 words of a checkpoint. -/
def ckptWords (s : State) (c seq : Nat) : List Word :=
  let x := s.ctx c
  [w64 seq, x.pc, x.a, x.x, x.y, x.su, x.ss, x.sh, psOf s c, x.fpsr, x.vbaseS, x.vbaseH, x.ttb, w64 (s.owner c)] ++
    todWords s.tod ++ List.replicate 16 0#64

/-- A checkpoint: the slot is written, and three WRITE records, word 0 last, and CKPT_COMMIT go to the partner in class 1. -/
def checkpointWrite (s : State) (c : Nat) : State :=
  let seq := s.dup.ckptSeq.get c 0 + 1
  let a := slotAddr s c (decide (seq % 2 = 1))
  let l := wordsBytes (ckptWords s c seq)
  let s := if s.inMemory a 256 then applyBytes s a l else s
  let s := sendRecords s [.write 1 (a / 128) 0xFE#8 ((l.take 128).drop 16), .write 1 (a / 128 + 1) 0xFF#8 (l.drop 128),
    .write 1 (a / 128) 0x01#8 (l.take 16), .commit (decide (seq % 2 = 1)) c]
  { s with dup := { s.dup with ckptSeq := s.dup.ckptSeq.set c seq } }

/-- A context can be held for a checkpoint at its boundary, outside a prefix unit and with an empty ERT stack. -/
def ckptReady (s : State) (c : Nat) (boundary : Bool) : Bool :=
  boundary && !(s.ctx c).rep && (stackOf s c).isEmpty && !(s.ctx c).entering && !(s.ctx c).fresh

/-- CHECKPOINT (R333): skipped where no boundary of the period serves; CKPT_MS = 0 stops checkpoints. -/
def execCheckpoint (c : Fin 32) (boundary : Bool) (s : State) : Res :=
  if s.dup.st ≠ .primary ∨ bitOf s.dup.ckptMask c = false ∨ s.dup.ckptMs = 0 then act s s
  else if !ckptReady s c boundary then act s { s with dup := { s.dup with skipped := satInc s.dup.skipped } }
  else act s (checkpointWrite s c)

/-! ## Binding (R332) -/

/-- Every byte of an area lies in a mirror zone (R329). -/
def zoned (s : State) (a n : Nat) : Bool :=
  (List.range ((a + n + 65535) / 65536 - a / 65536)).all fun k => inZone s ((a / 65536 + k) * 512)

/-- The areas of R329 lie in zones. -/
def zonesHold (s : State) : Bool :=
  zoned s (sdAddr s 0) (64 * 65536) &&
    (s.chan.jour.all fun p =>
      match ringBits s p.1 with
      | none => true
      | some k => zoned s (ringBase s p.1) (128 * 2 ^ k)) &&
    (s.chan.sends.all fun o => !sdMirror s o.s || (zoned s o.opb 128 && zoned s o.buffer o.length)) &&
    s.chan.recvs.all fun o => !sdMirror s o.s || zoned s o.opb 128

/-- Bytes in the enabled zones. -/
def zoneBytes (s : State) : Nat :=
  (List.range 64).foldl (fun a z =>
    if bitOf (s.dup.zbase.get z 0) 0 then a + fld (s.dup.zsize.get z 0) 51 16 * 65536 else a) 0

/-- The duplex engine starts a bind (R331, R332). -/
def bindBegin (s : State) (n : Nat) (role : Bool) (partner : BitVec 14) (period : Nat) : State :=
  let d := s.dup
  dupMove { s with dup := { d with role := role, partner := partner, period := period, fromSolo := decide (d.st = .solo)
                                   fromBackup := false, relAsked := false, bindMb := some n, sentBase := d.sent
                                   partnerApplied := d.sent, appliedHere := 0, jheads := [], commits := [], copied := 0
                                   askUpTo := 0, lost := false } } .syncing

/-- The checks of R332, in order. -/
def duplexBind (s : State) (x : Mailbox) (n : Nat) : State :=
  let role := x.arg 1
  let partner : BitVec 14 := (x.arg 2).extractLsb' 0 14
  let period := if x.arg 3 = 0 then 1000 else (x.arg 3).toNat
  let isBackup := decide (role = 1)
  if stray x [(2, 0x3FFF#64)] || decide (1 < role.toNat) || decide (partner = s.chan.modid) ||
      decide (period < 100) || decide (2000 < period) || !zonesHold s then badArg s n
  else if s.dup.st = (if isBackup then DupSt.backup else DupSt.primary) ∧ s.dup.partner = partner ∧ s.dup.period = period then
    already s n
  else if !([DupSt.unbound, .solo, .fenced].contains s.dup.st) then mbFail s n 0x5C []
  else if (s.dup.st = .solo ∧ isBackup = true) ∨ (s.dup.st = .fenced ∧ isBackup = false) then badArg s n
  else if !(s.port 4).isUp then mbFail s n 0x5A []
  else bindBegin s n isBackup partner period

/-- DUPLEX_BIND (R332). -/
def execDuplexBind (mb : Fin 64) (s : State) : Res := takeUp s mb 0x0701 fun t x => duplexBind t x mb

/-- DUPLEX_BIND_TIMEOUT (R332): no bind of the partner within 1 s. -/
def execDuplexBindTimeout (s : State) : Res :=
  act s (match s.dup.bindMb with
    | none => s
    | some n => if s.dup.st = .syncing ∧ (s.mb n).step = 1 then bindFails s 0x5A else s)

/-- The last zone is copied (R332): the sender counts the records of the copy that no window has carried, a backup's
contexts are held STOPPED (R333). -/
def syncDone (s : State) (n : Nat) : State :=
  let left := if s.dup.role then 0 else zoneBytes s / 128 - s.dup.copied
  let s := { s with dup := { s.dup with bindMb := none, sent := s.dup.sent + left, copied := s.dup.copied + left } }
  let s := dupMove s (if s.dup.role then .backup else .primary)
  let hold (t : State) (c : Nat) : State := t.setCtx c { t.ctx c with run := .stopped, entering := false }
  let s := if s.dup.role then (ckptCtxs s).foldl hold s else s
  mbDone (mbProgress s n (zoneBytes s / 2 ^ 20)) n 0 (w64 s.dup.partner.toNat :: todWords s.tod)

/-- DUPLEX_SYNC_COMPLETE (R332): it follows the partner's bind. -/
def execDuplexSyncComplete (s : State) : Res :=
  act s (match s.dup.bindMb with
    | none => s
    | some n => if s.dup.st = .syncing ∧ bindTaken s = true then syncDone s n else s)

/-- A takeover asked for by command (R39, R338): a primary that has been declared lost is not asked. -/
def duplexTakeover (s : State) (n : Nat) : State :=
  if (s.dup.st = .takingOver ∨ s.dup.st = .solo) ∧ s.dup.fromBackup = true then already s n
  else if s.dup.st = .unbound then mbFail s n 0x5E []
  else if s.dup.st ≠ .backup then mbFail s n 0x5D []
  else
    let s := { s with dup := { s.dup with takeMb := some n } }
    if s.dup.lost then startTakeover s
    else queueCtl { s with dup := { s.dup with relAsked := true } } 4 .relinquish

/-- DUPLEX_TAKEOVER (R334, R338). -/
def execDuplexTakeover (mb : Fin 64) (s : State) : Res := takeUp s mb 0x0702 fun t _ => duplexTakeover t mb

end Sys2Proof.Machine
end

