-- ==== Sys2Proof/Machine/Mailbox.lean ====
section
/-! DEFINITION. The mailbox hardware (R31 to R36): the actions of MBn_GO, MBn_STATUS and MBn_CTRL. -/
namespace Sys2Proof.Machine

/-- MBn_STATUS with a PROGRESS (R34). -/
def Mailbox.statusAt (x : Mailbox) (progress : Nat) : Word :=
  w64 (b2n x.phase * 2 ^ 63 + x.st.code * 2 ^ 56 + x.code.toNat * 2 ^ 48 + x.tag.toNat * 2 ^ 32 + progress)

/-- MBn_STATUS (R34): the PROGRESS of a running INSTANCE_RESET counts the work that has ended so far (R321). -/
def mbStatusVal (s : State) (n : Nat) : Word :=
  let x := s.mb n
  x.statusAt (match instWaiting s n with
    | none => x.progress.toNat
    | some i => max x.progress.toNat (workEnded s i))

/-- MBn_CTRL (R32). -/
def Mailbox.ctrl (x : Mailbox) : Word := w64 (b2n x.goIgnored * 2 ^ 16 + b2n x.evtEn * 2 ^ 8 + x.owner.toNat)

/-- A write to MBn_CTRL outside the unlock (R8, R32). -/
def Mailbox.setCtrl (x : Mailbox) (v : Word) : Mailbox :=
  { x with evtEn := bitOf v 8, goIgnored := x.goIgnored && !bitOf v 16 }

/-- OWNER admits a requester (R32). -/
def Mailbox.admits (s : State) (x : Mailbox) (r : Req) : Bool :=
  let o := x.owner.toNat
  if o = 0 then true
  else if o = 1 then decide (r = .mgmt)
  else
    match r with
    | .ctx c => decide (4 ≤ o) && decide (s.owner c = o - 4)
    | _ => false

/-- The command area as words (R36). -/
def Mailbox.area (x : Mailbox) : List Word := (List.range 32).map fun k => x.cmd.get k 0

/-- An action is ignored (R35). -/
def goIgnore (s : State) (n : Nat) : State := s.setMb n { s.mb n with goIgnored := true }

/-- START (R35, R36): the command area is captured and the result area cleared (R34). -/
def goStart (s : State) (n : Nat) (r : Req) : State :=
  let x := s.mb n
  match x.st with
  | .accepted => goIgnore s n
  | .running => goIgnore s n
  | .partialSt => goIgnore s n
  | _ =>
    let h := x.cmd.get 0 0
    let s := { s with sp := { s.sp with nextOrder := s.sp.nextOrder + 1 } }
    s.setMb n { x with
      res := [], phase := !x.phase, st := .accepted, code := 0, tag := h.extractLsb' 32 16, progress := 0
      cap := some { words := x.area, req := r, inst := reqInst s r }, start := h, order := s.sp.nextOrder, checked := false, chunk := true
      lastSeen := false, buf := [], out := [], step := 0, aux := 0, picked := [] }

/-- CONTINUE (R35): the command area is captured and the command runs on. -/
def goContinue (s : State) (n : Nat) (r : Req) : State :=
  let x := s.mb n
  if x.st ≠ .partialSt then goIgnore s n
  else s.setMb n { x with cap := some { words := x.area, req := r, inst := reqInst s r }, st := .running, chunk := true }

/-- Commands that an ABORT ends while they run (R44): a rebuild, a steer, a bind that synchronises. -/
def abortable (s : State) (x : Mailbox) : Bool :=
  decide (x.opcode = 0x0202) || decide (x.opcode = 0x0501) || (decide (x.opcode = 0x0701) && decide (s.dup.st = .syncing))

/-- ABORT (R35); a bind that it ends from SOLO leaves what it held back to finish (R337). -/
def goAbort (s : State) (n : Nat) : State :=
  let x := s.mb n
  match x.st with
  | .accepted => mbEnd s n 7
  | .partialSt => mbEnd s n 7
  | .running => if abortable s x then soloRelease (mbEnd s n 7) else goIgnore s n
  | _ => goIgnore s n

/-- A write to MBn_GO (R35). -/
def goWrite (s : State) (n : Nat) (r : Req) (v : Word) : State :=
  match fld v 7 0 with
  | 1 => goStart s n r
  | 2 => goContinue s n r
  | 3 => goAbort s n
  | _ => goIgnore s n

end Sys2Proof.Machine
end

