-- ==== Sys2Proof/Machine/Qcp.lean ====
section
/-! DEFINITION. The QCP block format (13): format tables, columns, prediction, the coder and the decoder, over bytes and
bits only. -/
namespace Sys2Proof.Machine

/-! ## Format tables (R274, R275) -/

/-- A field of a format table. -/
structure QField where
  off : Nat
  width : Nat
  isBytes : Bool
  pred : Nat
  prefixed : Bool
  ptab : Nat
  deriving DecidableEq, Repr

/-- Word k of a table. -/
def tabWord (t : List Byte) (k : Nat) : Word := w64 (leNat ((t.drop (8 * k)).take 8))

def tabRlen (t : List Byte) : Nat := fld (tabWord t 0) 12 0
def tabFields (t : List Byte) : Nat := fld (tabWord t 0) 22 16
def tabPrefixes (t : List Byte) : Nat := fld (tabWord t 0) 25 24

/-- Field f of a table. -/
def fieldOf (t : List Byte) (f : Nat) : QField :=
  let w := tabWord t (1 + f)
  { off := fld w 12 0, width := fld w 28 16, isBytes := bitOf w 29, pred := fld w 34 32, prefixed := bitOf w 36
    ptab := fld w 38 37 }

/-- The fields of a table, in order. -/
def fieldsOf (t : List Byte) : List QField := (List.range (tabFields t)).map (fieldOf t)

/-- The code lengths of prefix table k. -/
def prefixLens (t : List Byte) (k : Nat) : List Nat :=
  ((t.drop (8 * (1 + tabFields t) + 256 * k)).take 256).map (·.toNat)

/-- A prefix table is complete and has an escape (R274, R275). -/
def prefixOk (l : List Nat) : Bool :=
  l.all (fun n => decide (n ≤ 15)) &&
    decide ((l.map fun n => if n = 0 then 0 else 2 ^ (15 - n)).foldl (· + ·) 0 = 2 ^ 15) && decide (l.getD 255 0 ≠ 0)

/-- The fields tile the record from an offset on (R275). -/
def tiles (rlen : Nat) : Nat → List QField → Bool
  | a, [] => decide (a = rlen)
  | a, f :: r => decide (f.off = a) && tiles rlen (a + f.width) r

/-- One field's rules (R274, R275). -/
def fieldOk (np : Nat) (f : QField) : Bool :=
  (if f.isBytes then decide (1 ≤ f.width) && decide (f.width ≤ 4096) else [1, 2, 4, 8].contains f.width) &&
    decide (f.pred ≤ 4) && (!f.prefixed || decide (f.ptab < np))

/-- A table that FORMAT_LOAD accepts (R274, R275). -/
def tableOk (t : List Byte) : Bool :=
  let n := tabFields t
  let np := tabPrefixes t
  decide (t.length = 8 * (1 + n) + 256 * np) && decide (1 ≤ tabRlen t) && decide (tabRlen t ≤ 4096) && decide (1 ≤ n) &&
    decide (n ≤ 64) && decide (tabWord t 0 &&& ~~~0x37F1FFF#64 = 0) &&
    ((List.range n).all fun f => decide (tabWord t (1 + f) &&& ~~~0x773FFF1FFF#64 = 0)) &&
    (fieldsOf t).all (fieldOk np) && tiles (tabRlen t) 0 (fieldsOf t) &&
    ((List.range np).all fun k => prefixOk (prefixLens t k))

/-! ## Columns and prediction (R276) -/

/-- A column: its bytes in the record, the bytes that LEFT reads, its prediction and its coder; lens is [] for Rice. -/
structure QCol where
  off : Nat
  w : Nat
  leftOff : Nat
  leftW : Nat
  pred : Nat
  lens : List Nat
  deriving DecidableEq, Repr

/-- b of a column. -/
def QCol.b (c : QCol) : Nat := 8 * c.w

/-- The columns of a field; prev is the field before it. -/
def colsOf (t : List Byte) (prev : Option QField) (f : QField) : List QCol :=
  let lens := if f.prefixed then prefixLens t f.ptab else []
  if f.isBytes then
    (List.range f.width).map fun i =>
      { off := f.off + i, w := 1, leftOff := f.off + i - 1, leftW := if i = 0 then 0 else 1, pred := f.pred, lens := lens }
  else
    [{ off := f.off, w := f.width, leftOff := (prev.map (·.off)).getD 0, leftW := (prev.map (·.width)).getD 0, pred := f.pred
       lens := lens }]

/-- The columns of a list of fields, in table order (R279). -/
def columnsFrom (t : List Byte) : Option QField → List QField → List QCol
  | _, [] => []
  | p, f :: r => colsOf t p f ++ columnsFrom t (some f) r

def columns (t : List Byte) : List QCol := columnsFrom t none (fieldsOf t)

/-- Value of a column in a record. -/
def colVal (c : QCol) (rec' : List Byte) : Nat := leNat ((rec'.drop c.off).take c.w)

/-- LEFT of a column in a record. -/
def colLeft (c : QCol) (rec' : List Byte) : Nat := leNat ((rec'.drop c.leftOff).take c.leftW) % 2 ^ c.b

/-- The prediction of a column (R276) from the record, the one before it and the one before that. -/
def predict (c : QCol) (cur prev prev2 : List Byte) : Nat :=
  let m := 2 ^ c.b
  if c.pred = 0 then 0
  else if c.pred = 1 then colLeft c cur
  else if c.pred = 2 then colVal c prev
  else if c.pred = 3 then (colVal c prev + colLeft c cur + m - colLeft c prev) % m
  else (2 * colVal c prev + m - colVal c prev2) % m

/-- The zigzag symbol of a residue in b bits (R276). -/
def zigzag (b r : Nat) : Nat := if r < 2 ^ (b - 1) then 2 * r else 2 * (2 ^ b - r) - 1

/-- The residue of a zigzag symbol, modulo 2^b. -/
def unzigzag (b z : Nat) : Nat := if z % 2 = 0 then z / 2 % 2 ^ b else (2 ^ b - (z / 2 + 1) % 2 ^ b) % 2 ^ b

/-- The symbols of a column over the records of a chunk. -/
def colSymbols (c : QCol) : List Byte → List Byte → List (List Byte) → List Nat
  | _, _, [] => []
  | prev, prev2, x :: r =>
    zigzag c.b ((colVal c x + 2 ^ c.b - predict c x prev prev2) % 2 ^ c.b) :: colSymbols c x prev r

/-! ## Coding (R279, R280) -/

/-- n bits of a number, least significant first. -/
def bitsOf (n v : Nat) : List Bool := (List.range n).map fun i => v.testBit i

/-- A Rice symbol. -/
def riceBits (b k z : Nat) : List Bool :=
  let q := z >>> k
  if q < 32 then List.replicate q true ++ false :: bitsOf k z else List.replicate 32 true ++ bitsOf b z

/-- Coded length of a Rice symbol. -/
def riceLen (b k z : Nat) : Nat := if z >>> k < 32 then (z >>> k) + 1 + k else 32 + b

/-- Coded length of a Rice column. -/
def riceCost (b k : Nat) (l : List Nat) : Nat := (l.map (riceLen b k)).foldl (· + ·) 0

/-- The smallest k below b that makes the column shortest (R280, R287). -/
def bestK (b : Nat) (l : List Nat) : Nat :=
  (List.range b).foldl (fun k j => if riceCost b j l < riceCost b k l then j else k) 0

/-- The canonical code of symbol v: symbols in order of length, then of value (R275). -/
def codeOf (lens : List Nat) (v : Nat) : Nat :=
  let n := lens.getD v 0
  let before := (List.range 256).filter fun u =>
    let m := lens.getD u 0
    decide (m ≠ 0) && (decide (m < n) || (decide (m = n) && decide (u < v)))
  ((before.map fun u => 2 ^ (15 - lens.getD u 0)).foldl (· + ·) 0) >>> (15 - n)

/-- A code, most significant bit first. -/
def codeBits (lens : List Nat) (v : Nat) : List Bool := (bitsOf (lens.getD v 0) (codeOf lens v)).reverse

/-- A prefix symbol; one without a code is escaped. -/
def prefixBits (lens : List Nat) (b z : Nat) : List Bool :=
  if z < 255 ∧ lens.getD z 0 ≠ 0 then codeBits lens z else codeBits lens 255 ++ bitsOf b z

/-- A column of a chunk (R279). -/
def columnBits (c : QCol) (prev prev2 : List Byte) (recs : List (List Byte)) : List Bool :=
  let l := colSymbols c prev prev2 recs
  if c.lens = [] then
    let k := bestK c.b l
    bitsOf 6 k ++ l.flatMap (riceBits c.b k)
  else l.flatMap (prefixBits c.lens c.b)

/-- A chunk (R279). -/
def chunkBits (t : List Byte) (prev prev2 : List Byte) (recs : List (List Byte)) : List Bool :=
  bitsOf 6 recs.length ++ (columns t).flatMap fun c => columnBits c prev prev2 recs

/-- Bits as whole bytes, and the bits that do not yet form one (fuel: a bound on the bytes). -/
def packBits : Nat → List Bool → List Byte × List Bool
  | 0, l => ([], l)
  | k + 1, l =>
    if l.length < 8 then ([], l)
    else
      let byte : Byte := BitVec.ofNat 8 ((List.range 8).foldl (fun a i => a + b2n (l.getD i false) * 2 ^ i) 0)
      let (r, rest) := packBits k (l.drop 8)
      (byte :: r, rest)

/-- Bits padded with zeros to whole bytes. -/
def padBits (l : List Bool) : List Bool := l ++ List.replicate ((8 - l.length % 8) % 8) false

/-- The header of a block (R278). -/
def blockHeader (table : Nat) (crc : BitVec 32) : List Byte :=
  leBytes 8 (0x51C7 + 2 ^ 16 + table * 2 ^ 20 + crc.toNat * 2 ^ 32)

/-- The end of a block: count 0, TAIL, padding, the tail's bytes, padding to 8 bytes, the trailer (R278, R279). done:
whole bytes of the block so far; pend: bits after them. crc, len: of the block's original bytes, the tail included. -/
def closeBytes (done : Nat) (pend : List Bool) (tail : List Byte) (crc : BitVec 32) (len : Nat) : List Byte :=
  let bits := padBits (pend ++ bitsOf 6 0 ++ bitsOf 12 tail.length)
  let body := (packBits bits.length bits).1 ++ tail
  body ++ List.replicate ((8 - (done + body.length) % 8) % 8) 0#8 ++ leBytes 8 ((~~~crc).toNat + len * 2 ^ 32)

/-! ## Decoding (R279, R287) -/

/-- Why decoding stops: the input ends, the block is malformed, or a line of the input is poisoned. -/
inductive QErr where
  | short | bad | poison
  deriving DecidableEq, Repr

/-- A bit of the input, or why there is none. -/
abbrev BitSrc := Nat → Except QErr Bool

/-- n bits from a position, least significant first. -/
def getBits (src : BitSrc) (pos : Nat) : Nat → Except QErr Nat
  | 0 => .ok 0
  | n + 1 =>
    match src pos with
    | .error e => .error e
    | .ok b =>
      match getBits src (pos + 1) n with
      | .error e => .error e
      | .ok v => .ok (b2n b + 2 * v)

/-- One-bits from a position, at most n. -/
def countOnes (src : BitSrc) (pos : Nat) : Nat → Except QErr Nat
  | 0 => .ok 0
  | n + 1 =>
    match src pos with
    | .error e => .error e
    | .ok false => .ok 0
    | .ok true =>
      match countOnes src (pos + 1) n with
      | .error e => .error e
      | .ok v => .ok (v + 1)

/-- A Rice symbol and the position after it. -/
def getRice (src : BitSrc) (b k pos : Nat) : Except QErr (Nat × Nat) :=
  match countOnes src pos 32 with
  | .error e => .error e
  | .ok q =>
    let (from', n) := if q = 32 then (pos + 32, b) else (pos + q + 1, k)
    match getBits src from' n with
    | .error e => .error e
    | .ok v => .ok (if q = 32 then v else q * 2 ^ k + v, from' + n)

/-- The symbol whose code the next bits are; at most 15 bits (R274). -/
def getCode (src : BitSrc) (lens : List Nat) : Nat → Nat → Nat → Nat → Except QErr (Nat × Nat)
  | 0, _, _, _ => .error .bad
  | fuel + 1, len, acc, pos =>
    match src pos with
    | .error e => .error e
    | .ok b =>
      let acc := 2 * acc + b2n b
      let len := len + 1
      match (List.range 256).find? fun v => decide (lens.getD v 0 = len) && decide (codeOf lens v = acc) with
      | some v => .ok (v, pos + 1)
      | none => getCode src lens fuel len acc (pos + 1)

/-- A prefix symbol and the position after it. -/
def getPrefix (src : BitSrc) (lens : List Nat) (b pos : Nat) : Except QErr (Nat × Nat) :=
  match getCode src lens 15 0 0 pos with
  | .error e => .error e
  | .ok (v, p) =>
    if v = 255 then
      match getBits src p b with
      | .error e => .error e
      | .ok z => .ok (z, p + b)
    else .ok (v, p)

/-- A symbol of a column whose k is known. -/
def getSymbol (src : BitSrc) (c : QCol) (k pos : Nat) : Except QErr (Nat × Nat) :=
  if c.lens = [] then getRice src c.b k pos else getPrefix src c.lens c.b pos

/-- The symbols of a column give each record its next bytes. -/
def getColumn (src : BitSrc) (c : QCol) (k : Nat) : List Byte → List Byte → Nat → List (List Byte) →
    Except QErr (List (List Byte) × Nat)
  | _, _, pos, [] => .ok ([], pos)
  | prev, prev2, pos, x :: r =>
    match getSymbol src c k pos with
    | .error e => .error e
    | .ok (z, p) =>
      let x := x ++ leBytes c.w ((predict c x prev prev2 + unzigzag c.b z) % 2 ^ c.b)
      match getColumn src c k x prev p r with
      | .error e => .error e
      | .ok (l, q) => .ok (x :: l, q)

/-- The k of a Rice column; a prefix column has none. -/
def getK (src : BitSrc) (c : QCol) (pos : Nat) : Except QErr (Nat × Nat) :=
  if c.lens ≠ [] then .ok (0, pos) else
  match getBits src pos 6 with
  | .error e => .error e
  | .ok k => if c.b ≤ k then .error .bad else .ok (k, pos + 6)

/-- The columns of a chunk in table order. -/
def getColumns (src : BitSrc) (prev prev2 : List Byte) : List QCol → Nat → List (List Byte) →
    Except QErr (List (List Byte) × Nat)
  | [], pos, recs => .ok (recs, pos)
  | c :: r, pos, recs =>
    match getK src c pos with
    | .error e => .error e
    | .ok (k, p) =>
      match getColumn src c k prev prev2 p recs with
      | .error e => .error e
      | .ok (l, q) => getColumns src prev prev2 r q l

/-- Every bit from a position is zero. -/
def zeroBits (src : BitSrc) (pos n : Nat) : Except QErr Unit :=
  match getBits src pos n with
  | .error e => .error e
  | .ok v => if v = 0 then .ok () else .error .bad

/-- n bytes from a byte-aligned position. -/
def getBytes (src : BitSrc) (pos n : Nat) : Except QErr (List Byte) :=
  match getBits src pos (8 * n) with
  | .error e => .error e
  | .ok v => .ok (leBytes n v)

/-- The end of a block: its tail, its trailer, and the position after it. done bytes of the block lie before bit
position base. -/
def getClose (src : BitSrc) (rlen inLen base done pos : Nat) : Except QErr (List Byte × Nat × Nat) :=
  match getBits src pos 12 with
  | .error e => .error e
  | .ok n =>
    if rlen ≤ n ∨ 65536 < inLen + n then .error .bad else
    let p := (pos + 12 + 7) / 8 * 8
    match zeroBits src (pos + 12) (p - (pos + 12)) with
    | .error e => .error e
    | .ok _ =>
      match getBytes src p n with
      | .error e => .error e
      | .ok tail =>
        let q := p + 8 * n
        let pad := (64 - (q - base + 8 * done) % 64) % 64
        match zeroBits src q pad with
        | .error e => .error e
        | .ok _ =>
          match getBits src (q + pad) 64 with
          | .error e => .error e
          | .ok v => if v / 2 ^ 49 ≠ 0 then .error .bad else .ok (tail, v, q + pad + 64)

end Sys2Proof.Machine
end

