-- ==== Sys2Proof/Machine/Zip.lean ====
section
/-! DEFINITION. The compression engines (13): submission, dispatch, one chunk of a job, contexts, endings. -/
namespace Sys2Proof.Machine

/-! ## Tables -/

/-- Table t of engine n. -/
def zipTable (s : State) (n t : Nat) : Option FmtTable := (s.zip n).tables.get t none

/-- FORMAT_LOAD of table t on engine n is in RUNNING or PARTIAL (R275): its mailbox keeps mask and table number. -/
def formatLoading (s : State) (n t : Nat) : Bool :=
  mbNums.any fun m =>
    let x := s.mb m
    let w := if x.step = 0 then x.arg 1 else w64 x.aux
    x.busy && decide (x.opcode = 0x0302) && bitOf w n && decide (fld w 20 16 = t)

/-! ## Queue (R283, R315) -/

/-- Jobs of an instance on an engine. -/
def zipJobs (s : State) (n i : Nat) : List ZJob := (s.zip n).queue.filter fun j => decide (j.inst.toNat = i)

/-- Replace a job. -/
def setZJob (s : State) (n : Nat) (j : ZJob) : State :=
  s.setZip n { s.zip n with queue := swapFirst (fun k => decide (k.desc = j.desc) && decide (k.inst = j.inst)) j (s.zip n).queue }

/-- An instance gains work on an engine after having none (R315). -/
def zipJoin (s : State) (n i : Nat) : State :=
  if zipJobs s n i ≠ [] then s else
  let z := s.zip n
  let vt (k : Nat) : Nat := z.vt.get k 0
  match pickSmallest vt (z.queue.map fun j => j.inst.toNat) with
  | none => s
  | some m => s.setZip n { z with vt := z.vt.set i (max (vt i) (vt m)) }

/-- A submitted job. A descriptor that lies in no memory tells nothing of SIGNAL: a free value. -/
def newZJob (s : State) (desc i : Nat) : ZJob :=
  { desc := desc, inst := BitVec.ofNat 8 i, innings := s.inningsOf i, started := false, compress := true, flush := false
    signal := if s.inMemory desc 64 then bitOf (Memory.word s.mem desc) 6 else Config.freeBool s.free
    table := bif s.inMemory desc 64 then fld (Memory.word s.mem desc) 12 8 else 0
    src := 0, srcLen := 0, dst := 0, dstLen := 0, ctxAddr := 0, inPos := 0, outPos := 0, goodIn := 0, goodOut := 0
    earlier := 0, stream := .fresh true 0 }

/-- A submission (R283, R321): the 17th job of an instance, or one while a drain is in progress, ends QUEUE_FULL. -/
def zipSubmit (s : State) (r : Req) (n : Nat) (v : Word) (off : Nat) : State :=
  if v &&& 0xFFF000000000003F#64 ≠ 0 then accessCard s r 0x0E off
  else
    let i := reqInst s r
    let j := newZJob s v.toNat i
    let s := s.drawn
    if 16 ≤ (zipJobs s n i).length ∨ s.refusesWork i = true then
      let s := zipWriteEnd s j 7 false 0 0 0
      if j.signal then raiseFor s (268 + n) i j.innings else s
    else
      let s := zipJoin s n i
      s.setZip n { s.zip n with queue := (s.zip n).queue ++ [j] }

/-! ## Contexts (R285, log entry 16) -/

/-- The stream that the bytes of a context of another origin describe; none where its check fails (R285). -/
def foreignCtx (l : List Byte) : Option ZStream :=
  let f (k : Nat) : Nat := Config.ctxField l k
  if f 0 = 0 then none
  else
    some { compress := decide (f 1 = 1), openBlock := decide (f 2 = 1), table := f 3 % 32, tableCrc := BitVec.ofNat 32 (f 4)
           inLen := f 5 % 65537, crc := BitVec.ofNat 32 (f 6), bits := bitsOf (f 7 % 8) (f 8), bitOff := f 7 % 8
           rec1 := f 9, rec2 := f 10, recs := f 11, partAddr := f 12, partLen := f 13 % 4096, padTo := f 14 % 8 }

/-- The stream of the context that an area holds: one that this module has saved, or one of another origin (R285). -/
def loadCtx (s : State) (a : Nat) : Option ZStream :=
  let l := readBytes s a 512
  match s.zctx.find? fun c => decide (c.bytes = l) with
  | some c => some c.stream
  | none => foreignCtx l

/-- A context is written: 512 bytes that the spec gives no layout. -/
def saveCtx (s : State) (j : ZJob) : State :=
  let l := freeBytes s.free 512
  let s := agentStoreFor s.drawn j.inst j.innings j.ctxAddr l
  { s with zctx := { bytes := l, stream := j.stream } :: s.zctx }

/-! ## Waiting for a table (R275) -/

/-- The table that a block header names, where the input holds the whole header. -/
def headerTable (s : State) (a len : Nat) : Option Nat :=
  if 8 ≤ len ∧ s.inMemory a 8 then some (fld (Memory.word s.mem a) 24 20) else none

/-- The table that a job uses next: a COMPRESS job its descriptor's, a DECOMPRESS job that of its open block or of the
header that it reads next. -/
def waitTable (s : State) (j : ZJob) : Option Nat :=
  if j.started then
    (if j.compress then some j.table
     else if j.stream.openBlock then some j.stream.table
     else headerTable s (j.src + j.inPos) (j.srcLen - j.inPos))
  else if !s.inMemory j.desc 64 then none
  else
    let w (k : Nat) : Word := Memory.word s.mem (j.desc + 8 * k)
    let header := headerTable s (fld (w 1) 51 0) (fld (w 2) 31 0)
    if fld (w 0) 3 0 = 1 then some (fld (w 0) 12 8)
    else if bitOf (w 0) 5 then
      match loadCtx s (fld (w 5) 51 0) with
      | none => none
      | some z => if z.openBlock then some z.table else header
    else header

/-- The job an instance would run next, unless it waits for a FORMAT_LOAD of its table (R275). -/
def nextZJob (s : State) (n i : Nat) : Option ZJob :=
  match zipJobs s n i with
  | [] => none
  | j :: _ =>
    match waitTable s j with
    | none => some j
    | some t => if formatLoading s n t then none else some j

/-- The instance that the engine serves next (R284, R314, R315). -/
def zipChoose (s : State) (n : Nat) : Option Nat :=
  pickSmallest (fun i => (s.zip n).vt.get i 0)
    ((List.range 256).filter fun i => admitted s i (1 + n) && (nextZJob s n i).isSome)

/-- The engine has served some bytes of an instance (R284, R314, R315). -/
def zipCharge (s : State) (n i bytes : Nat) : State :=
  let s := charge s i (1 + n) bytes
  let z := s.zip n
  s.setZip n { z with vt := z.vt.set i (z.vt.get i 0 + vtStep bytes (weightOf s i 1)) }

/-! ## Endings (R282, R285) -/

/-- A job ends with its block open, or for lack of space (R285): the context is written first. -/
def zipEndOpen (s : State) (n : Nat) (j : ZJob) (status : Nat) : State :=
  zipEnd (saveCtx s j) n j status (j.stream.openBlock || decide (status = 1)) j.earlier j.inPos j.outPos

/-- A job ends with nothing to resume. -/
def zipEndShut (s : State) (n : Nat) (j : ZJob) (status : Nat) : State :=
  zipEnd s n j status false (if j.compress then 0 else j.earlier) j.inPos j.outPos

/-- A read of n bytes meets poison, or leaves usable memory (R282). -/
def badRead (s : State) (a n : Nat) : Bool := decide (n ≠ 0) && (!s.inMemory a n || poisoned s a n)

/-- OUT_FULL (R285): the output of COMPRESS beyond what counts is undefined. -/
def zipFull (s : State) (n : Nat) (j : ZJob) : State :=
  let s := if j.compress then spoil s j.inst j.innings (j.dst + j.outPos) (j.dstLen - j.outPos) else s
  zipEndOpen s n j 2

/-- MEMORY_ERROR at a chunk boundary. -/
def zipMemError (s : State) (n : Nat) (j : ZJob) : State :=
  if j.started && j.stream.openBlock then zipEndOpen s n j 0x0A else zipEndShut s n j 0x0A

/-! ## Starting a job (R282, R286) -/

/-- Some field of a descriptor breaks R282. -/
def badZDesc (w : Nat → Word) : Bool :=
  let op := fld (w 0) 3 0
  decide (w 0 &&& ~~~0x1F7F#64 ≠ 0) || !(op == 1 || op == 2) || (decide (op = 2) && decide (fld (w 0) 12 8 ≠ 0)) ||
    decide (w 1 &&& 0xFFF0000000000000#64 ≠ 0) || decide (w 2 &&& 0xFFFFFFFF00000000#64 ≠ 0) ||
    decide (w 3 &&& 0xFFF0000000000000#64 ≠ 0) || decide (w 4 &&& 0xFFFFFFFF00000000#64 ≠ 0) ||
    decide (w 5 &&& 0xFFF00000000001FF#64 ≠ 0) || decide (w 5 = 0)

/-- The fields of a descriptor. -/
def fillZJob (j : ZJob) (w : Nat → Word) : ZJob :=
  let c := decide (fld (w 0) 3 0 = 1)
  { j with compress := c, flush := bitOf (w 0) 4, signal := bitOf (w 0) 6, table := fld (w 0) 12 8, src := fld (w 1) 51 0
           srcLen := fld (w 2) 31 0, dst := fld (w 3) 51 0, dstLen := fld (w 4) 31 0, ctxAddr := fld (w 5) 51 0
           started := true, stream := .fresh c (fld (w 0) 12 8) }

/-- The job's stream: new, or resumed from its context (R286); none for CONTEXT_INVALID. -/
def zipStream (s : State) (j : ZJob) (cont : Bool) : Option ZStream :=
  if !cont then some j.stream else
  match loadCtx s j.ctxAddr with
  | none => none
  | some z => if z.compress = j.compress then some z else none

/-- The table of a COMPRESS job is loaded and, where it continues, is the one of its context (R282). -/
def zipTableOk (s : State) (n : Nat) (j : ZJob) (cont : Bool) : Bool :=
  match zipTable s n j.table with
  | none => false
  | some t => !cont || (decide (j.stream.table = j.table) && decide (t.crc = j.stream.tableCrc))

/-- A new COMPRESS stream knows its table's CRC from the start (R285). -/
def withTable (s : State) (n : Nat) (j : ZJob) (cont : Bool) : ZJob :=
  if j.compress && !cont then
    { j with stream := { j.stream with tableCrc := ((zipTable s n j.table).map (·.crc)).getD 0 } }
  else j

/-- The oldest job of an instance starts: none when it ended at once. -/
def zipStart (s : State) (n : Nat) (j : ZJob) : State × Option ZJob :=
  if staleInnings s j.inst j.innings then (zipReset s n j, none)
  else if !s.inMemory j.desc 64 then (zipEndShut s n j 0x0A, none)
  else if poisoned s j.desc 64 then (zipEndShut s n j 0x0A, none)
  else
    let w (k : Nat) : Word := Memory.word s.mem (j.desc + 8 * k)
    let j := fillZJob j w
    if badZDesc w then (zipEndShut s n j 6, none)
    else if !s.inMemory j.src j.srcLen || !s.inMemory j.dst j.dstLen || !s.inMemory j.ctxAddr 512 ||
        (bitOf (w 0) 5 && poisoned s j.ctxAddr 512) then (zipEndShut s n j 0x0A, none)
    else
      match zipStream s j (bitOf (w 0) 5) with
      | none => (zipEndShut s n j 8, none)
      | some z =>
        let j := { j with stream := z, earlier := if j.compress then 0 else z.inLen }
        if j.compress && !zipTableOk s n j (bitOf (w 0) 5) then (zipEndShut s n j 5, none)
        else
          let j := withTable s n j (bitOf (w 0) 5)
          let s := s.setZip n { s.zip n with running := some j.inst }
          (setZJob s n j, some j)

/-! ## One chunk of a COMPRESS job (R280, R281, R285) -/

/-- The bytes of a record back of the block; zeros before its first (R277). -/
def prevRec (s : State) (rlen : Nat) (there : Bool) (addr : Nat) : List Byte :=
  if there then readBytes s addr rlen else List.replicate rlen 0

/-- The last record of the block, and the one before it (R276). -/
def ZStream.back1 (s : State) (z : ZStream) (rlen : Nat) : List Byte := prevRec s rlen (decide (1 ≤ z.recs)) z.rec1
def ZStream.back2 (s : State) (z : ZStream) (rlen : Nat) : List Byte := prevRec s rlen (decide (2 ≤ z.recs)) z.rec2

/-- A record back of the block cannot be read. -/
def ZStream.badBack (s : State) (z : ZStream) (rlen : Nat) : Bool :=
  (decide (1 ≤ z.recs) && badRead s z.rec1 rlen) || (decide (2 ≤ z.recs) && badRead s z.rec2 rlen)

/-- Record i of the input that a job has not consumed: its address and bytes; a pending partial record comes first. -/
def inputRec (s : State) (j : ZJob) (rlen i : Nat) : Nat × List Byte :=
  let p := j.stream.partLen
  if i = 0 ∧ p ≠ 0 then
    (j.stream.partAddr, readBytes s j.stream.partAddr p ++ Memory.bytes s.mem (j.src + j.inPos) (rlen - p))
  else (j.src + j.inPos + i * rlen - p, Memory.bytes s.mem (j.src + j.inPos + i * rlen - p) rlen)

/-- The output of a step of COMPRESS: whole bytes, the bits left, bytes of the block so far. -/
structure ZOut where
  bytes : List Byte
  pend : List Bool
  done : Nat
  deriving DecidableEq, Repr

/-- Bits follow what a block holds so far. -/
def ZOut.bits (o : ZOut) (l : List Bool) : ZOut :=
  let (b, rest) := packBits (o.pend.length + l.length) (o.pend ++ l)
  { bytes := o.bytes ++ b, pend := rest, done := o.done + b.length }

/-- A block opens with its header. -/
def ZOut.header (o : ZOut) (table : Nat) (crc : BitVec 32) : ZOut :=
  { bytes := o.bytes ++ blockHeader table crc, pend := [], done := 8 }

/-- A block closes. -/
def ZOut.close (o : ZOut) (tail : List Byte) (crc : BitVec 32) (len : Nat) : ZOut :=
  { bytes := o.bytes ++ closeBytes o.done o.pend tail crc len, pend := [], done := 0 }

/-- What an open block holds so far. -/
def ZStream.out (z : ZStream) : ZOut := { bytes := [], pend := z.bits, done := z.padTo }

/-- The stream after its block has closed. -/
def ZStream.shut (z : ZStream) : ZStream := { ZStream.fresh z.compress z.table with tableCrc := z.tableCrc }

/-- A block is open, after the header where one has to open. -/
def openFor (z : ZStream) (o : ZOut) (table : Nat) (crc : BitVec 32) : ZStream × ZOut :=
  if z.openBlock then (z, o)
  else ({ ZStream.fresh true table with openBlock := true, tableCrc := crc, partAddr := z.partAddr, partLen := z.partLen }, o.header table crc)

/-- A job goes on with a new stream, its output written; the charge is the input it consumed. -/
def zipAdvance (s : State) (n : Nat) (j : ZJob) (z : ZStream) (o : ZOut) (consumed : Nat) : State × ZJob :=
  let s := agentStoreFor s j.inst j.innings (j.dst + j.outPos) o.bytes
  let j := { j with inPos := j.inPos + consumed, outPos := j.outPos + o.bytes.length
                    stream := { z with bits := o.pend, padTo := o.done % 8 } }
  (zipCharge (setZJob s n j) n j.inst.toNat consumed, j)

/-- The records that the next chunk takes (R280, R281): at most 32, and none past 65,536 bytes of the block. -/
def chunkCount (rlen inLen whole : Nat) : Nat := min (min 32 whole) ((65536 - inLen) / rlen)

/-- A chunk of records; a full block closes before it, and a block opens where none is (R281). -/
def compressChunk (s : State) (n : Nat) (j : ZJob) (t : FmtTable) (whole : Nat) : State :=
  let rlen := tabRlen t.bytes
  let z := j.stream
  let o := z.out
  let full := z.openBlock && decide (65536 < z.inLen + rlen)
  let (z, o) := if full then ({ z.shut with partAddr := z.partAddr, partLen := z.partLen }, o.close [] z.crc z.inLen) else (z, o)
  let (z, o) := openFor z o j.table t.crc
  let k := chunkCount rlen z.inLen whole
  let recs := (List.range k).map (inputRec s j rlen)
  let l := recs.map (·.2)
  let o := o.bits (chunkBits t.bytes (z.back1 s rlen) (z.back2 s rlen) l)
  let used := k * rlen - j.stream.partLen
  let bad := badRead s (j.src + j.inPos) used || badRead s j.stream.partAddr j.stream.partLen || z.badBack s rlen
  if bad then zipMemError s n j
  else if j.dstLen < j.outPos + o.bytes.length then zipFull s n j
  else
    let at' (i : Nat) : Nat := (recs.getD i (0, [])).1
    let z := { z with inLen := z.inLen + k * rlen, crc := crcRun z.crc l.flatten, recs := z.recs + k, partLen := 0, partAddr := 0
                      rec1 := at' (k - 1), rec2 := if 2 ≤ k then at' (k - 2) else z.rec1 }
    (zipAdvance s n j z o used).1

/-- The end of the input of a job with FLUSH = 1 (R281): the block closes with the partial record as its tail. -/
def compressFlush (s : State) (n : Nat) (j : ZJob) (t : FmtTable) : State :=
  let z := j.stream
  let left := j.srcLen - j.inPos
  let tail := readBytes s z.partAddr z.partLen ++ Memory.bytes s.mem (j.src + j.inPos) left
  if badRead s (j.src + j.inPos) left || badRead s z.partAddr z.partLen then zipMemError s n j
  else if !z.openBlock && tail.isEmpty then zipEndShut s n j 1
  else
    let o := z.out
    let full := z.openBlock && decide (65536 < z.inLen + tail.length)
    let (z, o) := if full then (z.shut, o.close [] z.crc z.inLen) else (z, o)
    let (z, o) := openFor z o j.table t.crc
    let o := o.close tail (crcRun z.crc tail) (z.inLen + tail.length)
    if j.dstLen < j.outPos + o.bytes.length then zipFull s n j
    else
      let (s, j) := zipAdvance s n j z.shut o left
      zipEndShut s n j 1

/-- The end of the input of a job with FLUSH = 0 (R281, R285): the partial record stays pending in the context, and its
bytes are charged as consumed (R314). -/
def compressPause (s : State) (n : Nat) (j : ZJob) : State :=
  let z := j.stream
  let left := j.srcLen - j.inPos
  let z := { z with partAddr := if z.partLen = 0 then j.src + j.inPos else z.partAddr, partLen := z.partLen + left }
  zipEndOpen (zipCharge s n j.inst.toNat left) n { j with stream := z, inPos := j.srcLen } 1

/-- One chunk of a COMPRESS job. -/
def compressStep (s : State) (n : Nat) (j : ZJob) : State :=
  match zipTable s n j.table with
  | none => zipEndShut s n j 5
  | some t =>
    let whole := (j.stream.partLen + (j.srcLen - j.inPos)) / tabRlen t.bytes
    if whole ≠ 0 then compressChunk s n j t whole
    else if j.flush then compressFlush s n j t
    else compressPause s n j

/-! ## One chunk of a DECOMPRESS job (R285, R287, R288) -/

/-- The bits of a job's input, from bit 0 of SRC; a poisoned line gives none (R282). -/
def jobBits (s : State) (j : ZJob) : BitSrc := fun p =>
  if 8 * j.srcLen ≤ p then .error .short
  else if poisoned s (j.src + p / 8) 1 then .error .poison
  else .ok (bitOf (Memory.read s.mem (j.src + p / 8)) (p % 8))

/-- FORMAT_ERROR (R287), counted (R290). -/
def formatError (s : State) (n : Nat) (j : ZJob) : State :=
  zipEndShut (s.setZip n { s.zip n with formatErr := satInc (s.zip n).formatErr }) n j 4

/-- The input ends before the chunk or the header does: an error with FLUSH = 1, otherwise the job stops at its start, DONE
with OPEN_BLOCK = 1 (R285). -/
def inputShort (s : State) (n : Nat) (j : ZJob) : State := if j.flush then formatError s n j else zipEndOpen s n j 1

/-- The input ends at a block end (R285): OPEN_BLOCK follows FLUSH. -/
def inputDone (s : State) (n : Nat) (j : ZJob) : State := if j.flush then zipEndShut s n j 1 else zipEndOpen s n j 1

def decodeStop (s : State) (n : Nat) (j : ZJob) : QErr → State
  | .short => inputShort s n j
  | .bad => formatError s n j
  | .poison => zipMemError s n j

/-- Position of the next input bit. -/
def ZJob.bitPos (j : ZJob) : Nat := 8 * j.inPos + j.stream.bitOff

/-- Output of a decoded chunk or tail. -/
def zipOutput (s : State) (n : Nat) (j : ZJob) (z : ZStream) (pos : Nat) (l : List Byte) : State × ZJob :=
  let s := agentStoreFor s j.inst j.innings (j.dst + j.outPos) l
  let z := { z with bitOff := pos % 8, padTo := (z.padTo + (pos / 8 - j.inPos)) % 8 }
  let j := { j with inPos := pos / 8, outPos := j.outPos + l.length, stream := z }
  (zipCharge (setZJob s n j) n j.inst.toNat l.length, j)

/-- A trailer that does not match (R288). -/
def checkFail (s : State) (n : Nat) (j : ZJob) : State :=
  let s := s.setZip n { s.zip n with checkFail := satInc (s.zip n).checkFail }
  let s := card s (300 + n) 1 j.inst.toNat 0 j.desc
  zipEnd s n j 3 false j.earlier j.goodIn j.goodOut

/-- The end of a block (R279, R288). -/
def decodeClose (s : State) (n : Nat) (j : ZJob) (t : FmtTable) (pos : Nat) : State :=
  let z := j.stream
  match getClose (jobBits s j) (tabRlen t.bytes) z.inLen (8 * j.inPos) z.padTo pos with
  | .error e => decodeStop s n j e
  | .ok (tail, w, q) =>
    let crc := ~~~(crcRun z.crc tail)
    let len := z.inLen + tail.length
    if w % 2 ^ 32 ≠ crc.toNat ∨ w / 2 ^ 32 % 2 ^ 17 ≠ len then checkFail s n j
    else if j.dstLen < j.outPos + tail.length then zipEndOpen s n j 2
    else
      let (s, j) := zipOutput s n j z q tail
      let j := { j with stream := .fresh false 0, goodIn := j.inPos, goodOut := j.outPos, earlier := 0 }
      let s := setZJob s n j
      if j.inPos = j.srcLen then inputDone s n j else s

/-- A chunk of records of an open block. -/
def decodeChunk (s : State) (n : Nat) (j : ZJob) (t : FmtTable) : State :=
  let z := j.stream
  let rlen := tabRlen t.bytes
  let src := jobBits s j
  match getBits src j.bitPos 6 with
  | .error e => decodeStop s n j e
  | .ok 0 => decodeClose s n j t (j.bitPos + 6)
  | .ok k =>
    if 32 < k then formatError s n j
    else if z.badBack s rlen then zipMemError s n j
    else
    match getColumns src (z.back1 s rlen) (z.back2 s rlen) (columns t.bytes) (j.bitPos + 6) (List.replicate k []) with
    | .error e => decodeStop s n j e
    | .ok (recs, pos) =>
      if 65536 < z.inLen + k * rlen then formatError s n j
      else if j.dstLen < j.outPos + k * rlen then zipEndOpen s n j 2
      else
        let l := recs.flatten
        let last := j.dst + j.outPos + (k - 1) * rlen
        let z := { z with inLen := z.inLen + k * rlen, crc := crcRun z.crc l, recs := z.recs + k, rec1 := last
                          rec2 := if 2 ≤ k then last - rlen else z.rec1 }
        (zipOutput s n j z pos l).1

/-- A block header (R278, R287), then the block's first chunk. -/
def decodeHeader (s : State) (n : Nat) (j : ZJob) : State :=
  match getBits (jobBits s j) (8 * j.inPos) 64 with
  | .error e => decodeStop s n j e
  | .ok h =>
    let w := w64 h
    if fld w 15 0 ≠ 0x51C7 ∨ fld w 19 16 ≠ 1 ∨ fld w 31 25 ≠ 0 then formatError s n j
    else
      match zipTable s n (fld w 24 20) with
      | none => zipEndShut s n j 5
      | some t =>
        if t.crc.toNat ≠ fld w 63 32 then zipEndShut s n j 5
        else
          let z := { ZStream.fresh false (fld w 24 20) with openBlock := true, tableCrc := t.crc }
          let j := { j with inPos := j.inPos + 8, stream := z }
          decodeChunk (setZJob s n j) n j t

/-- One chunk of a DECOMPRESS job. -/
def decompressStep (s : State) (n : Nat) (j : ZJob) : State :=
  if j.stream.openBlock then
    match zipTable s n j.stream.table with
    | none => zipEndShut s n j 5
    | some t => if t.crc ≠ j.stream.tableCrc then zipEndShut s n j 5 else decodeChunk s n j t
  else if j.inPos = j.srcLen then inputDone s n j
  else decodeHeader s n j

/-! ## ZIP_CHUNK (R284, R288) -/

/-- One chunk of a job. -/
def zipStep (s : State) (n : Nat) (j : ZJob) : State := if j.compress then compressStep s n j else decompressStep s n j

/-- An internal error in a job's chunk (R288): counted and reported; the job runs again from its last chunk boundary. -/
def zipInternal (s : State) (n : Nat) (j : ZJob) : State :=
  card (s.setZip n { s.zip n with restarts := satInc (s.zip n).restarts }) (300 + n) 2 j.inst.toNat 0 j.desc

/-- The engine serves one chunk of the instance it chooses; with an internal error, once more (R288). -/
def zipServe (s : State) (n : Nat) (internalError : Bool) : State :=
  let retry (t : State) (j : ZJob) : State := if internalError then zipInternal t n j else t
  match zipChoose s n with
  | none => s
  | some i =>
    match nextZJob s n i with
    | none => s
    | some j =>
      if j.started then zipStep (retry (s.setZip n { s.zip n with running := some j.inst }) j) n j
      else
        match zipStart s n j with
        | (s, none) => s
        | (s, some j) => zipStep (retry s j) n j

/-- ZIP_CHUNK (R284, R285, R288). -/
def execZipChunk (n : Fin 4) (internalError : Bool) (s : State) : Res :=
  act s (if (s.zip n).en then zipServe s n internalError else s)

end Sys2Proof.Machine
end

