-- ==== Sys2Proof/Machine/Regs.lean ====
section
/-! DEFINITION. The registers of control space (R24) and where each lies: R31, R178, R185, R210, R212, R232, R248, R273,
R290, R308, R322, R340, R353, R372, R373, R400. -/
namespace Sys2Proof.Machine

/-- A register of control space. -/
inductive Reg where
  | mbCmd (n k : Nat) | mbRes (n k : Nat) | mbStatus (n : Nat) | mbGo (n : Nat) | mbCtrl (n : Nat)
  | ertCtl | ertMsidrop | ertPend (k : Nat) | ertMaskset (k : Nat) | ertMaskclr (k : Nat) | ertInsvc (k : Nat)
  | ertSwraise | ertAckc (c : Nat) | ertEoic (c : Nat) | ertCstatc (c : Nat) | ertSrc (n : Nat)
  | ertAck | ertEoi | ertCstat
  | fcrOpen | fcrClose | fcrPin | fcrMcttgt | fcrForcecfg | fcrLogstat | fcrLast (k : Nat) | fcrCard (sev k : Nat)
  | fcrForce (k : Nat) | fcrReact (n : Nat) | fcrCnt (n : Nat)
  | pairState (p : Nat) | pairLetcnt (p : Nat) | pairDivcnt (p : Nat) | pairLastlet (p : Nat)
  | slot (p : Nat) (k : Bool) (off : Nat)
  | cacheL3ctl | cacheCtxcls (k : Nat) | cacheL2mask (k : Nat) | cachePctl (p : Nat) | cacheL2lock | cacheL3lock
  | cacheL2del (p : Nat) | cacheL3del (n : Nat) | cacheL3mask (i : Nat)
  | memcChstate | memcCfg | memcRebuild | memcSize | memcErr (n : Nat)
  | chanCtl | chanModid | chanSdtbase | chanCfg | chanClswt | chanSeqstat | chanBind | chanBindstat | chanPort (n : Nat)
  | chanPerr (n : Nat) | chanJbase (i : Nat) | chanJcfg (i : Nat) | chanJhead (i : Nat) | chanJtail (i : Nat)
  | chanDb (n : Nat) | chanCgcnt (g : Nat)
  | zipCtl (n : Nat) | zipStat (n : Nat) | zipTloaded (n : Nat) | zipErr (n : Nat) | zipTcrc (n t : Nat) | zipSubmit (n : Nat)
  | ciphCtl | ciphCfg | ciphAlarm | ciphAlarmen | ciphLanefail | ciphErr | ciphRange (i : Nat) | ciphSlot (n : Nat)
  | ciphSubmit (k : Nat)
  | instExist (k : Nat) | instCtxown (c : Nat) | instState (i : Nat) | instWeight (i : Nat) | instBktch (i : Nat)
  | instBktz (i : Nat) | instBktk (i : Nat) | instThrch (i : Nat) | instThrz (i : Nat) | instThrk (i : Nat)
  | instDbgrant (k : Nat) | instCggrant (g : Nat)
  | dupxState | dupxCfg | dupxSync | dupxStat | dupxCkptbase | dupxCkptmask | dupxErr | dupxZbase (z : Nat)
  | dupxZsize (z : Nat)
  | timeStat | timeCfg | timeTrim | timePpscapf | timePpscaps | timeDlbits | timeDlarm | timeEstat | timeSteer
  | timeSteerp | timeDls (k : Nat) | timeDlf (k : Nat) | timeNowf | timeNows
  | crpPllstat | crpRstcause | crpBrst | crpBrstat | crpCtxrst | crpCtxstart | crpCtxwake | crpGatecfg | crpPwrstat
  | sensVal (n : Nat) | sensThr (n : Nat) | sensTrip | sensCal
  | audCtl | audLogcnt | audFwver | audMr (k j : Nat) | audLog (e w : Nat)
  | dbgCtl | dbgHalt | dbgHstat | dbgBpaddr (b : Nat) | dbgBpctl (b : Nat)
  deriving DecidableEq, Repr

/-- Element of an array of registers at an offset. -/
def elem (o base stride count : Nat) : Option Nat :=
  if base ≤ o ∧ o < base + stride * count ∧ (o - base) % stride = 0 then some ((o - base) / stride) else none

/-- R31. -/
def mbReg (n o : Nat) : Option Reg :=
  if o < 0x100 then some (.mbCmd n (o / 8))
  else if o < 0x300 then some (.mbRes n ((o - 0x100) / 8))
  else if o = 0x300 then some (.mbStatus n)
  else if o = 0x308 then some (.mbGo n)
  else if o = 0x310 then some (.mbCtrl n)
  else none

/-- R232. -/
def ertReg (o : Nat) : Option Reg :=
  if o = 0 then some .ertCtl
  else if o = 8 then some .ertMsidrop
  else if o = 0x400 then some .ertSwraise
  else if o = 0x8000 then some .ertAck
  else if o = 0x8008 then some .ertEoi
  else if o = 0x8010 then some .ertCstat
  else (elem o 0x100 8 16).map .ertPend <|> (elem o 0x200 8 16).map .ertMaskset <|> (elem o 0x280 8 16).map .ertMaskclr <|>
    (elem o 0x300 8 16).map .ertInsvc <|> (elem o 0x800 0x40 32).map .ertAckc <|> (elem o 0x808 0x40 32).map .ertEoic <|>
    (elem o 0x810 0x40 32).map .ertCstatc <|> (elem o 0x2000 8 1024).map .ertSrc

/-- R248. -/
def fcrReg (o : Nat) : Option Reg :=
  if o < 0x40 then
    [Reg.fcrOpen, .fcrClose, .fcrPin, .fcrMcttgt, .fcrForcecfg, .fcrLogstat, .fcrLast 0, .fcrLast 1][o / 8]?
  else if 0x100 ≤ o ∧ o < 0x200 then some (.fcrCard ((o - 0x100) / 0x40) (o % 0x40 / 8))
  else (elem o 0x400 8 8).map .fcrForce <|> (elem o 0x1000 8 512).map .fcrReact <|> (elem o 0x2000 8 512).map .fcrCnt

/-- R210, R212. -/
def pairReg (p o : Nat) : Option Reg :=
  if o < 0x20 then [Reg.pairState p, .pairLetcnt p, .pairDivcnt p, .pairLastlet p][o / 8]?
  else if 0x8000 ≤ o then some (.slot p (decide (0xC000 ≤ o)) (o % 0x4000))
  else none

/-- R178. -/
def cacheReg (o : Nat) : Option Reg :=
  if o < 0x18 then [Reg.cacheL3ctl, .cacheCtxcls 0, .cacheCtxcls 1][o / 8]?
  else if o = 0x300 then some .cacheL2lock
  else if o = 0x308 then some .cacheL3lock
  else (elem o 0x100 8 16).map .cacheL2mask <|> (elem o 0x200 8 18).map .cachePctl <|> (elem o 0x400 8 18).map .cacheL2del <|>
    (elem o 0x500 8 16).map .cacheL3del <|> (elem o 0x1000 8 256).map .cacheL3mask

/-- R185. -/
def memcReg (o : Nat) : Option Reg :=
  if o < 0x20 then [Reg.memcChstate, .memcCfg, .memcRebuild, .memcSize][o / 8]?
  else (elem o 0x100 8 12).map .memcErr

/-- R273. -/
def chanReg (o : Nat) : Option Reg :=
  if o < 0x40 then
    [Reg.chanCtl, .chanModid, .chanSdtbase, .chanCfg, .chanClswt, .chanSeqstat, .chanBind, .chanBindstat][o / 8]?
  else (elem o 0x100 8 4).map .chanPort <|> (elem o 0x200 8 4).map .chanPerr <|> (elem o 0x1000 0x20 256).map .chanJbase <|>
    (elem o 0x1008 0x20 256).map .chanJcfg <|> (elem o 0x1010 0x20 256).map .chanJhead <|>
    (elem o 0x1018 0x20 256).map .chanJtail <|> (elem o 0x100000 8 65536).map .chanDb <|>
    (elem o 0x200000 0x1000 256).map .chanCgcnt

/-- R290. -/
def zipReg (n o : Nat) : Option Reg :=
  if o < 0x20 then [Reg.zipCtl n, .zipStat n, .zipTloaded n, .zipErr n][o / 8]?
  else if o = 0x8000 then some (.zipSubmit n)
  else (elem o 0x100 8 32).map (.zipTcrc n)

/-- R308. CIPH_RANGEi exists for i = 4 to 255. -/
def ciphReg (o : Nat) : Option Reg :=
  if o < 0x30 then [Reg.ciphCtl, .ciphCfg, .ciphAlarm, .ciphAlarmen, .ciphLanefail, .ciphErr][o / 8]?
  else (elem o 0x120 8 252).map (fun i => .ciphRange (i + 4)) <|> (elem o 0x8000 8 2).map .ciphSubmit <|>
    (elem o 0x10000 8 4096).map .ciphSlot

/-- R322. -/
def instReg (o : Nat) : Option Reg :=
  if o < 0x20 then some (.instExist (o / 8))
  else if 0x1000 ≤ o ∧ o < 0x5000 then
    let i := (o - 0x1000) / 0x40
    [Reg.instState i, .instWeight i, .instBktch i, .instBktz i, .instBktk i, .instThrch i, .instThrz i,
      .instThrk i][o % 0x40 / 8]?
  else (elem o 0x100 8 32).map .instCtxown <|> (elem o 0x5000 8 128).map .instDbgrant <|>
    (elem o 0x6000 8 256).map .instCggrant

/-- R340. -/
def dupxReg (o : Nat) : Option Reg :=
  if o < 0x38 then
    [Reg.dupxState, .dupxCfg, .dupxSync, .dupxStat, .dupxCkptbase, .dupxCkptmask, .dupxErr][o / 8]?
  else (elem o 0x100 0x10 64).map .dupxZbase <|> (elem o 0x108 0x10 64).map .dupxZsize

/-- R353. -/
def timeReg (o : Nat) : Option Reg :=
  if o < 0x50 then
    [Reg.timeStat, .timeCfg, .timeTrim, .timePpscapf, .timePpscaps, .timeDlbits, .timeDlarm, .timeEstat, .timeSteer,
      .timeSteerp][o / 8]?
  else if o = 0x8000 then some .timeNowf
  else if o = 0x8008 then some .timeNows
  else (elem o 0x100 0x10 64).map .timeDls <|> (elem o 0x108 0x10 64).map .timeDlf

/-- R372. -/
def crpReg (o : Nat) : Option Reg :=
  [Reg.crpPllstat, .crpRstcause, .crpBrst, .crpBrstat, .crpCtxrst, .crpCtxstart, .crpCtxwake, .crpGatecfg,
    .crpPwrstat][o / 8]?

/-- R373. -/
def sensReg (o : Nat) : Option Reg :=
  if o = 0x200 then some .sensTrip
  else if o = 0x208 then some .sensCal
  else (elem o 0 8 32).map .sensVal <|> (elem o 0x100 8 32).map .sensThr

/-- R400. -/
def audReg (o : Nat) : Option Reg :=
  if o < 0x18 then [Reg.audCtl, .audLogcnt, .audFwver][o / 8]?
  else if 0x100 ≤ o ∧ o < 0x200 then (if o % 0x40 < 0x30 then some (.audMr ((o - 0x100) / 0x40) (o % 0x40 / 8)) else none)
  else if 0x1000 ≤ o ∧ o < 0x21000 then some (.audLog ((o - 0x1000) / 0x40) (o % 0x40 / 8))
  else none

/-- R400. -/
def dbgReg (o : Nat) : Option Reg :=
  if o < 0x18 then [Reg.dbgCtl, .dbgHalt, .dbgHstat][o / 8]?
  else (elem o 0x100 0x10 8).map .dbgBpaddr <|> (elem o 0x108 0x10 8).map .dbgBpctl

/-- The register at an offset that is a multiple of 8 (R24). -/
def regAt (off : Nat) : Option Reg :=
  let m := off / 0x1000000
  let o := off % 0x1000000
  if m = 0 then
    (if o < 0x10000 then mbReg (o / 0x400) (o % 0x400)
     else if o / 0x100000 = 1 then ertReg (o % 0x100000)
     else if o / 0x100000 = 2 then fcrReg (o % 0x100000)
     else none)
  else if m = 1 then (if o / 0x10000 < 18 then pairReg (o / 0x10000) (o % 0x10000) else none)
  else if m = 2 then cacheReg o
  else if m = 3 then memcReg o
  else if m = 4 then chanReg o
  else if m = 5 then (if o / 0x10000 < 4 then zipReg (o / 0x10000) (o % 0x10000) else none)
  else if m = 6 then ciphReg o
  else if m = 7 then instReg o
  else if m = 8 then dupxReg o
  else if m = 9 then timeReg o
  else if m = 10 then crpReg o
  else if m = 11 then sensReg o
  else if m = 12 then audReg o
  else if m = 15 then dbgReg o
  else none

/-- A slot window is mapped: its slot holds a context (R212). -/
def regMapped (s : State) : Reg → Bool
  | .slot p k off => slotMapped off && (slotCtx s p k).isSome
  | _ => true

/-- A register of the DBG block. -/
def Reg.isDbg : Reg → Bool
  | .dbgCtl => true
  | .dbgHalt => true
  | .dbgHstat => true
  | .dbgBpaddr _ => true
  | .dbgBpctl _ => true
  | _ => false

/-- A register of the AUD block. -/
def Reg.isAud : Reg → Bool
  | .audCtl => true
  | .audLogcnt => true
  | .audFwver => true
  | .audMr _ _ => true
  | .audLog _ _ => true
  | _ => false

/-- A valid grant names an instance (R312, R322). -/
def grantedTo (w : Word) (i : Nat) : Bool := bitOf w 8 && decide (fld w 7 0 = i)

/-- The pages granted to an instance 4 to 255 (R312). -/
def granted (s : State) (i : Nat) : Reg → Bool
  | .chanDb n => grantedTo (s.insts.dbgrant.get (n / 512) 0) i
  | .chanCgcnt g => grantedTo (s.insts.cggrant.get g 0) i
  | .zipSubmit _ => (s.inst i).present
  | .ciphSubmit _ => (s.inst i).present
  | .timeNowf => (s.inst i).present
  | .timeNows => (s.inst i).present
  | .ertAck => true
  | .ertEoi => true
  | .ertCstat => true
  | _ => false

/-- The requester may reach a register (R27, R32, R232, R283, R302, R312, R396, R399). -/
def permitted (s : State) (r : Req) (write : Bool) (g : Reg) : Bool :=
  match r with
  | .ctx c =>
    if s.owner c < 4 then
      (match g with
       | .mbCmd n _ => !write || (s.mb n).admits s r
       | .mbGo n => !write || (s.mb n).admits s r
       | .slot p k off => !write || slotHeld s p || !slotLocked s p k off
       | _ => !(g.isDbg && s.aud.sealed))
    else granted s (s.owner c) g
  | .mgmt =>
    match g with
    | .mbCmd n _ => !write || (s.mb n).admits s r
    | .mbGo n => !write || (s.mb n).admits s r
    | .slot p k off => !write || slotHeld s p || !slotLocked s p k off
    | .ertAck => false
    | .ertEoi => false
    | .ertCstat => false
    | .zipSubmit _ => !write
    | .ciphSubmit _ => !write
    | _ => !(g.isDbg && s.aud.sealed)
  | .jtag => g.isAud || (g.isDbg && !s.aud.sealed)

end Sys2Proof.Machine
end

