-- ==== Sys2Proof/Machine/Control.lean ====
section
/-! DEFINITION. Accesses to control space (R22 to R29): the checks of R26, what a read of each register returns and
clears, what a write of each register does, and what LK_WRITE may write (R45). -/
namespace Sys2Proof.Machine

/-! ## Values -/

/-- STATE of CHAN_PORTn (R273). -/
def PortSt.code : PortSt → Nat
  | .down => 0
  | .training => 1
  | .up => 2
  | .upHalf => 3

/-- PHASE of INST_STATEi (R322). -/
def InstPhase.code : InstPhase → Nat
  | .idle => 0
  | .resetting => 1
  | .draining => 2
  | .squashing => 3

/-- A channel's state (R185). -/
def ChSt.code : ChSt → Nat
  | .online => 0
  | .offline => 1
  | .rebuilding => 2

/-- A number from truth values, bit 0 first. -/
def bitsNat (n : Nat) (f : Nat → Bool) : Nat := (List.range n).foldl (fun a i => a + b2n (f i) * 2 ^ i) 0

/-- FCR_OPEN (R248). -/
def fcrOpenVal (s : State) : Word :=
  w64 (bitsNat 4 (fun v => (openCard s v).isSome) +
    2 ^ 8 * bitsNat 4 fun v =>
      match openCard s v with
      | none => false
      | some o => o.ovf)

/-- Word k of FCR_CARDs (R248). -/
def fcrCardVal (s : State) (sev k : Nat) : Word :=
  match openCard s sev with
  | none => 0
  | some o => (cardWords o ++ todWords o.tod ++ mlogWords o).getD k 0

/-- CHAN_PORTn (R273). -/
def portVal (x : Port) : Word :=
  w64 (x.st.code + b2n x.en * 8 + b2n x.spare * 16 + x.laneFailed.toNat % 32 * 2 ^ 8)

/-- DUPX_CFG (R340). -/
def dupxCfgVal (s : State) : Word :=
  w64 (s.dup.ckptMs.toNat * 2 ^ 32 + b2n s.dup.onLoss * 2 + b2n s.dup.autoTakeover)

/-- TIME_STAT (R353). -/
def timeStatVal (s : State) : Word :=
  let t := s.time
  w64 (t.steps.toNat * 2 ^ 48 + t.ppsRej.toNat * 2 ^ 32 + b2n t.clkfault * 8 + b2n t.holdover * 4 + b2n t.locked * 2 + b2n t.set)

/-- TIME_CFG (R353). -/
def timeCfgVal (s : State) : Word :=
  let t := s.time
  w64 (t.ppsWin.toNat * 2 ^ 8 + b2n t.ppsEdge * 4 + b2n t.ppsoutEn * 2 + b2n t.disc)

/-- AUD_CTL (R400). -/
def audCtlVal (s : State) : Word :=
  w64 (b2n s.crp.kept.sealFuse * 8 + b2n s.aud.debugUsed * 4 + b2n s.aud.overflow * 2 + b2n s.aud.sealed)

/-- Word w of log entry e (R400). -/
def audLogVal (s : State) (e w : Nat) : Word :=
  match s.aud.log[e]? with
  | none => 0
  | some x => w64 (leNat ((x.bytes.drop (8 * w)).take 8))

/-- Whole GiB in units of MiB rebuilt since offset 0 (R184, R185): a stripe holds 128 bytes of each channel. -/
def rebuiltMiB (s : State) : Nat := s.memc.ptr.get s.memc.rebuildCh.toNat 0 / 8192

/-- The module is bound to no partner (R331): UNBOUND, SOLO and FENCED, where DUPX settings may be written (R340). -/
def dupxUnbound (s : State) : Bool := [DupSt.unbound, .solo, .fenced].contains s.dup.st

/-- DUPX_SYNC returns all ones once the partner is declared lost (R330). -/
def partnerGone (s : State) : Bool := [DupSt.partnerLost, .takingOver, .solo, .fenced].contains s.dup.st

/-- The 64-bit value of a register for a requester, before any clearing. -/
def regVal (s : State) (r : Req) : Reg → Word
  | .mbCmd n k => (s.mb n).cmd.get k 0
  | .mbRes n k => (s.mb n).res.get k 0
  | .mbStatus n => mbStatusVal s n
  | .mbGo _ => 0
  | .mbCtrl n => (s.mb n).ctrl
  | .ertCtl => w64 (b2n s.ert.en)
  | .ertMsidrop => w64 s.ert.msidrop.toNat
  | .ertPend k => w64 (bitsNat 64 fun j => isPending s (64 * k + j))
  | .ertMaskset k => wordOf s.ert.mask k
  | .ertMaskclr k => wordOf s.ert.mask k
  | .ertInsvc k => w64 (bitsNat 64 fun j => inService s (64 * k + j))
  | .ertSwraise => 0
  | .ertAckc c => ertAck s c
  | .ertEoic _ => 0
  | .ertCstatc c => ertCstat s c
  | .ertSrc n => srcOf s n
  | .ertAck =>
    match r with
    | .ctx c => Sys2Proof.Machine.ertAck s c
    | _ => 0
  | .ertEoi => 0
  | .ertCstat =>
    match r with
    | .ctx c => Sys2Proof.Machine.ertCstat s c
    | _ => 0
  | .fcrOpen => fcrOpenVal s
  | .fcrClose => 0
  | .fcrPin => w64 (b2n (s.fcr.hold || s.fcr.pulse) * 4 + b2n s.fcr.pulse * 2 + b2n s.fcr.hold)
  | .fcrMcttgt => w64 s.fcr.mcttgt.toNat
  | .fcrForcecfg => s.fcr.forcecfg
  | .fcrLogstat => w64 (s.fcr.nextSeq.toNat + s.fcr.log.length * 2 ^ 32 + s.fcr.lost.toNat * 2 ^ 43)
  | .fcrLast k => if k = 0 then s.fcr.last0 else s.fcr.last1
  | .fcrCard sev k => fcrCardVal s sev k
  | .fcrForce _ => 0
  | .fcrReact n => reactOf s n
  | .fcrCnt n => w64 (s.fcr.cnt.get n 0#32).toNat
  | .pairState p => pairStateVal s p
  | .pairLetcnt p => w64 (s.pair p).letcnt.toNat
  | .pairDivcnt p => w64 (s.pair p).divcnt.toNat
  | .pairLastlet p => lastletVal (s.pair p).lastlet
  | .slot p k off =>
    match slotCtx s p k with
    | none => 0
    | some c => slotRead s c off
  | .cacheL3ctl => l3ctlRead s
  | .cacheCtxcls k => if k = 0 then s.caches.ctxcls0 else s.caches.ctxcls1
  | .cacheL2mask k => w64 (s.caches.l2mask.get k 0xFFFF#16).toNat
  | .cachePctl p => pctlRead s p
  | .cacheL2lock => w64 s.caches.l2lock.toNat
  | .cacheL3lock => w64 s.caches.l3lock.toNat
  | .cacheL2del p => w64 (s.caches.l2del.get p 0#32).toNat
  | .cacheL3del n => w64 (s.caches.l3del.get n 0#32).toNat
  | .cacheL3mask i => w64 (s.caches.l3mask.get i 0xFFFFFFFF#32).toNat
  | .memcChstate => w64 ((List.range 12).foldl (fun a n => a + (s.chst n).code * 4 ^ n) 0)
  | .memcCfg => s.memc.cfg
  | .memcRebuild => w64 (s.memc.rebuildCh.toNat + rebuiltMiB s % 2 ^ 24 * 2 ^ 8)
  | .memcSize => w64 s.memc.sizeGiB.toNat
  | .memcErr n => w64 (s.memc.err.get n 0#32).toNat
  | .chanCtl => w64 (b2n s.chan.en)
  | .chanModid => w64 s.chan.modid.toNat
  | .chanSdtbase => s.chan.sdtbase
  | .chanCfg => s.chan.cfg
  | .chanClswt => s.chan.clswt
  | .chanSeqstat => w64 s.chan.seqstat.toNat
  | .chanBind => 0
  | .chanBindstat => bindStat s
  | .chanPort n => portVal (s.port n)
  | .chanPerr n =>
    w64 ((s.port n).replays.toNat + (s.port n).laneFails.toNat * 2 ^ 32 + (s.port n).losses.toNat * 2 ^ 48)
  | .chanJbase i => (s.jour i).base
  | .chanJcfg i => (s.jour i).cfg
  | .chanJhead i => w64 (s.jour i).head.toNat
  | .chanJtail i => w64 (s.jour i).tail.toNat
  | .chanDb _ => 0
  | .chanCgcnt g => w64 (s.chan.cgcnt.get g 0#32).toNat
  | .zipCtl n => w64 (b2n (s.zip n).en)
  | .zipStat n =>
    let z := s.zip n
    w64 (b2n z.running.isSome + (z.running.getD 0).toNat * 2 ^ 8 + z.ended.toNat * 2 ^ 32)
  | .zipTloaded n => w64 (bitsNat 32 fun t => (zipTable s n t).isSome)
  | .zipErr n =>
    let z := s.zip n
    w64 (z.checkFail.toNat + z.restarts.toNat * 2 ^ 16 + z.formatErr.toNat * 2 ^ 32)
  | .zipTcrc n t => w64 (((zipTable s n t).map fun x => x.crc.toNat).getD 0)
  | .zipSubmit _ => 0
  | .ciphCtl => w64 s.ciph.en.toNat
  | .ciphCfg => w64 s.ciph.ratio.toNat
  | .ciphAlarm => alarmWord s
  | .ciphAlarmen => w64 s.ciph.alarmen.toNat
  | .ciphLanefail => w64 s.ciph.lanefail.toNat
  | .ciphErr => w64 (s.ciph.laneErr.toNat + s.ciph.tagFail.toNat * 2 ^ 16 + s.ciph.keyInvalid.toNat * 2 ^ 32)
  | .ciphRange i => s.ciph.range.get i 0
  | .ciphSlot n => slotReg s n
  | .ciphSubmit _ => 0
  | .instExist k => w64 (bitsNat 64 fun j => (s.inst (64 * k + j)).present)
  | .instCtxown c => w64 (s.owner c)
  | .instState i =>
    let x := s.inst i
    w64 (x.innings.toNat + b2n x.present * 2 ^ 16 + x.phase.code * 2 ^ 17)
  | .instWeight i => (s.inst i).weight
  | .instBktch i => (s.inst i).bktch
  | .instBktz i => (s.inst i).bktz
  | .instBktk i => (s.inst i).bktk
  | .instThrch i => w64 (s.inst i).thrch.toNat
  | .instThrz i => w64 (s.inst i).thrz.toNat
  | .instThrk i => w64 (s.inst i).thrk.toNat
  | .instDbgrant k => s.insts.dbgrant.get k 0
  | .instCggrant g => s.insts.cggrant.get g 0
  | .dupxState => w64 (s.dup.st.code + b2n s.dup.role * 8 + (if dupxUnbound s then 0 else s.dup.partner.toNat) * 2 ^ 16)
  | .dupxCfg => dupxCfgVal s
  | .dupxSync => if partnerGone s then 0xFFFFFFFFFFFFFFFF#64 else appliedCount s
  | .dupxStat => w64 (s.dup.sent % 2 ^ 32 + s.dup.resolved.toNat * 2 ^ 32)
  | .dupxCkptbase => s.dup.ckptBase
  | .dupxCkptmask => w64 s.dup.ckptMask.toNat
  | .dupxErr => w64 (s.dup.skipped.toNat + s.dup.leftStopped.toNat * 2 ^ 16 + s.dup.dropped.toNat * 2 ^ 32)
  | .dupxZbase z => s.dup.zbase.get z 0
  | .dupxZsize z => s.dup.zsize.get z 0
  | .timeStat => timeStatVal s
  | .timeCfg => timeCfgVal s
  | .timeTrim => w64 s.time.trim.toNat
  | .timePpscapf => s.time.capF
  | .timePpscaps => s.time.capS
  | .timeDlbits => s.time.dlbits
  | .timeDlarm => 0
  | .timeEstat =>
    w64 (b2n s.time.srcOk + b2n s.time.drbgOk * 2 + s.time.rct.toNat * 2 ^ 8 + s.time.apt.toNat * 2 ^ 16)
  | .timeSteer => w64 s.time.steer.toNat
  | .timeSteerp => w64 (lowBits 32 s.time.steerOff + s.time.steerDone.toNat * 2 ^ 32)
  | .timeDls k => s.time.dls.get k 0
  | .timeDlf k => s.time.dlf.get k 0
  | .timeNowf => (readNowf s r 0).2
  | .timeNows => readNows s r
  | .crpPllstat => w64 s.crp.pll.toNat
  | .crpRstcause => w64 (s.crp.cause.toNat + s.crp.resets.toNat * 2 ^ 32)
  | .crpBrst => 0
  | .crpBrstat => w64 s.crp.brstat.toNat
  | .crpCtxrst => 0
  | .crpCtxstart => 0
  | .crpCtxwake => 0
  | .crpGatecfg => w64 (s.crp.auto.toNat + s.crp.delay.toNat * 2 ^ 32 + b2n s.crp.notify * 2 ^ 48)
  | .crpPwrstat => w64 (bitsNat 18 fun p => (s.pair p).gated)
  | .sensVal n =>
    let x := s.sens n
    w64 (x.value.toNat + x.raw.toNat * 2 ^ 32 + b2n x.valid * 2 ^ 63)
  | .sensThr n => (s.sens n).thr
  | .sensTrip => w64 s.crp.sensTrip.toNat
  | .sensCal => w64 (bitsNat 32 fun n => (s.crp.kept.curves.get n none).isSome)
  | .audCtl => audCtlVal s
  | .audLogcnt => w64 (s.aud.log.length + s.aud.dropped.toNat * 2 ^ 32)
  | .audFwver => w64 (s.sp.running.toNat + s.crp.kept.rollback.toNat * 2 ^ 32)
  | .audMr k j => w64 (leNat (((mrOf s k).drop (8 * j)).take 8))
  | .audLog e w => audLogVal s e w
  | .dbgCtl => w64 (b2n s.aud.dbgEn)
  | .dbgHalt => w64 s.aud.halt.toNat
  | .dbgHstat => w64 (bitsNat 32 fun c => (s.ctx c).dbgHalted)
  | .dbgBpaddr b => (s.aud.bps.get b { addr := 0, ctl := 0 }).addr
  | .dbgBpctl b => (s.aud.bps.get b { addr := 0, ctl := 0 }).ctl

/-! ## What a read changes -/

/-- A control access to a slot window powers up a gated pair that is not FENCED (R366, R367). -/
def slotTouch (s : State) (p : Nat) : State := if (s.pair p).gated && decide ((s.pair p).st ≠ .fenced) then gateExit s p else s

/-- The state after a read of w bytes from byte lo of a register (R8). -/
def regReadEffect (s : State) (r : Req) (lo w : Nat) : Reg → State
  | .ertMsidrop => { s with ert := { s.ert with msidrop := cleared lo w 0 3 s.ert.msidrop } }
  | .fcrCnt n => { s with fcr := { s.fcr with cnt := s.fcr.cnt.set n (cleared lo w 0 3 (s.fcr.cnt.get n 0#32)) } }
  | .pairLetcnt p => s.setPair p { s.pair p with letcnt := cleared lo w 0 3 (s.pair p).letcnt }
  | .pairDivcnt p => s.setPair p { s.pair p with divcnt := cleared lo w 0 3 (s.pair p).divcnt }
  | .slot p _ _ => slotTouch s p
  | .chanBindstat => drawIf (!s.inMemory (sdAddr s s.chan.bindSub.toNat) 64) s
  | .memcErr n =>
    let v := s.memc.err.get n 0#32
    let v' : BitVec 32 := cleared lo w 2 3 (v.extractLsb' 16 16) ++ cleared lo w 0 1 (v.extractLsb' 0 16)
    { s with memc := { s.memc with err := s.memc.err.set n v' } }
  | .chanPerr n =>
    let x := s.port n
    s.setPort n { x with replays := cleared lo w 0 3 x.replays, laneFails := cleared lo w 4 5 x.laneFails
                         losses := cleared lo w 6 7 x.losses }
  | .zipErr n =>
    let z := s.zip n
    s.setZip n { z with checkFail := cleared lo w 0 1 z.checkFail, restarts := cleared lo w 2 3 z.restarts
                        formatErr := cleared lo w 4 5 z.formatErr }
  | .ciphErr =>
    let x := s.ciph
    { s with ciph := { x with laneErr := cleared lo w 0 1 x.laneErr, tagFail := cleared lo w 2 3 x.tagFail
                              keyInvalid := cleared lo w 4 5 x.keyInvalid } }
  | .instThrch i => s.setInst i { s.inst i with thrch := cleared lo w 0 3 (s.inst i).thrch }
  | .instThrz i => s.setInst i { s.inst i with thrz := cleared lo w 0 3 (s.inst i).thrz }
  | .instThrk i => s.setInst i { s.inst i with thrk := cleared lo w 0 3 (s.inst i).thrk }
  | .dupxErr =>
    let x := s.dup
    { s with dup := { x with skipped := cleared lo w 0 1 x.skipped, leftStopped := cleared lo w 2 3 x.leftStopped
                             dropped := cleared lo w 4 5 x.dropped } }
  | .timeNowf => (readNowf s r 0).1
  | _ => s

/-! ## Writes -/

/-- A write that is dropped whole with kind 0Eh. -/
def dropWhole (s : State) (r : Req) (off : Nat) (bad : Bool) (t : State) : State := if bad then accessCard s r 0x0E off else t

/-- A write of a slot window (R202, R212, R367). -/
def slotWriteReg (s : State) (r : Req) (p : Nat) (k : Bool) (off : Nat) (v : Word) : State :=
  if slotHeld s p then
    s.setPair p { s.pair p with held := (s.pair p).held ++
      [{ req := r, inst := reqInst s r, write := true, off := (if k then 0xC000 else 0x8000) + off, w := 8, v := v }] }
  else slotStore (slotTouch s p) p k off v

/-- EN of a fabric port (R266, R273): 1 trains a DOWN port; 0 takes it DOWN with no fault (log entry 18). -/
def portEnable (s : State) (n : Nat) (en : Bool) : State :=
  let s := s.setPort n { s.port n with en := en }
  if en then train s n else if (s.port n).st = .down then s else sendUnsent (movePort (emptyPort s n) n .down)

/-- RATE and BURST of a bucket (R313, R322). -/
def badBucket (v : Word) (engine : Bool) : Bool :=
  decide (fld v 23 0 = 0) || decide (65536 < fld v 23 0) || (engine && decide (fld v 63 32 = 0))

/-- Buckets of the given keys hold at most their new burst (R314). -/
def capTokens (s : State) (i : Nat) (keys : List Nat) : State :=
  keys.foldl (fun t k => setTokens t i k (min (tokensOf t i k) (burstOf t i k))) s

/-- A weight of 0 or above 64 in one of the three fields of R313. -/
def badWeight (v : Word) : Bool :=
  [0, 8, 16].any fun k => decide (fld v (k + 6) k = 0) || decide (64 < fld v (k + 6) k)

/-- DUPX settings are written only in UNBOUND, SOLO and FENCED (R340). -/
def dupxLocked (s : State) : Bool := !dupxUnbound s

/-- Some ACTION of a reaction word is 101b to 111b (R248). -/
def badReact (v : Word) : Bool := (List.range 4).any fun k => decide (4 < actionOf v k)

/-- A halt request takes effect at the context's next boundary (R398), waking its pair (R364, R367). -/
def haltRequest (s : State) (c : Nat) : State :=
  match placeOf s c with
  | none => s
  | some (p, _) => haltNow (slotTouch s p) c

/-- A halted context is released when its DBG_HALT bit is cleared (R398); one that is held STOPPED for another reason,
on a fenced pair or by a BACKUP, stays so (R204, R333). -/
def haltRelease (s : State) (c : Nat) : State :=
  let x := s.ctx c
  if !x.dbgHalted then s
  else s.setCtx c (if releasable s c then x.unhalt else { x with dbgHalted := false })

/-- DBG_CTL (R398, R400). -/
def dbgCtlStore (s : State) (v : Word) : State :=
  let en := bitOf v 0
  let s := if en && !s.aud.dbgEnSeen then
      let s := measure s 0x0C 3 0 zeroDigest
      { s with aud := { s.aud with dbgEnSeen := true, debugUsed := true } }
    else s
  let s := { s with aud := { s.aud with dbgEn := en } }
  (ctxNums.filter (haltDue s)).foldl haltRequest s

/-- DBG_HALT (R398, R400). -/
def dbgHaltStore (s : State) (v : Word) : State :=
  let was := s.aud.halt
  let s := { s with aud := { s.aud with halt := v.extractLsb' 0 32 } }
  if !s.aud.dbgEn then s
  else
    let s := (ctxNums.filter fun c => bitOf was c && !bitOf v c).foldl haltRelease s
    (ctxNums.filter fun c => bitOf v c).foldl haltRequest s

/-- The blocks of CRP_BRST, by bit (R372). -/
def brstBlocks : List Blk := [.ert, .chan, .zip 0, .zip 1, .zip 2, .zip 3, .ciph, .time, .sp]

/-- Contexts named by a 32-bit mask. -/
def ctxMask (s : State) (v : Word) (f : State → Nat → State) : State := (ctxNums.filter fun c => bitOf v c).foldl f s

/-- W1C of ERT_CSTAT.EOI_UNDERFLOW (R232). -/
def cstatClear (s : State) (c : Nat) (v : Word) : State :=
  if bitOf v 16 then { s with ert := { s.ert with underflow := setBit s.ert.underflow c false } } else s

/-- A value outside its software limits (R371, R373). -/
def outOfRange (thr : Word) (v : BitVec 32) : Bool :=
  decide (v.toInt < (thr.extractLsb' 0 32).toInt) || decide ((thr.extractLsb' 32 32).toInt < v.toInt)

/-- A 64-bit write that has passed the checks of R26: RO, WO-only and LK fields are left as R8 says. -/
def regWrite (s : State) (r : Req) (off : Nat) (v : Word) : Reg → State
  | .mbCmd n k => s.setMb n { s.mb n with cmd := (s.mb n).cmd.set k v }
  | .mbGo n => goWrite s n r v
  | .mbCtrl n => s.setMb n ((s.mb n).setCtrl v)
  | .ertCtl => { s with ert := { s.ert with en := bitOf v 0 } }
  | .ertPend k => pendClr s k v
  | .ertMaskset k => maskSet s k v
  | .ertMaskclr k => maskClr s k v
  | .ertSwraise => swRaise s v
  | .ertEoic c => eoi s c
  | .ertCstatc c => cstatClear s c v
  | .ertSrc n => dropWhole s r off (decide (0xE0 ≤ fld v 47 40)) (setSrc s n v)
  | .ertEoi =>
    match r with
    | .ctx c => eoi s c
    | _ => s
  | .ertCstat =>
    match r with
    | .ctx c => cstatClear s c v
    | _ => s
  | .fcrClose => closeCard s (fld v 1 0)
  | .fcrPin => { s with fcr := { s.fcr with hold := bitOf v 0 } }
  | .fcrMcttgt => { s with fcr := { s.fcr with mcttgt := v.extractLsb' 0 32 } }
  | .fcrReact n => dropWhole s r off (badReact v) { s with fcr := { s.fcr with react := s.fcr.react.set n (v &&& 0x1F1F1F1F#64) } }
  | .slot p k o => slotWriteReg s r p k o v
  | .cacheL3ctl => l3ctlWrite s v
  | .cacheCtxcls k => setCaches s (if k = 0 then { s.caches with ctxcls0 := v } else { s.caches with ctxcls1 := v })
  | .cacheL2mask k => setCaches s { s.caches with l2mask := s.caches.l2mask.set k (v.extractLsb' 0 16) }
  | .cachePctl p => pctlWrite s p v
  | .cacheL2lock => setCaches s { s.caches with l2lock := v.extractLsb' 0 16 }
  | .cacheL3lock => setCaches s { s.caches with l3lock := v.extractLsb' 0 32 }
  | .cacheL3mask i => setCaches s { s.caches with l3mask := s.caches.l3mask.set i (v.extractLsb' 0 32) }
  | .memcCfg => { s with memc := { s.memc with cfg := v &&& 0xFFFF0F#64 } }
  | .chanCtl => { s with chan := { s.chan with en := bitOf v 0 && decide (s.dup.st ≠ .fenced) } }
  | .chanSdtbase => { s with chan := { s.chan with sdtbase := v &&& 0x000FFFFFFFC00000#64 } }
  | .chanCfg => { s with chan := { s.chan with cfg := v &&& 0xFFFFFF00FF00FFFF#64 } }
  | .chanClswt =>
    dropWhole s r off ([0, 8, 16, 24].any fun k => decide (fld v (k + 7) k = 0))
      { s with chan := { s.chan with clswt := v &&& 0xFFFFFFFF#64 } }
  | .chanBind => chanBindWrite s v
  | .chanPort n => portEnable s n (bitOf v 3)
  | .chanJbase i => ringSettle (s.setJour i { s.jour i with base := v &&& 0x000FFFFFFFFFF000#64 }) i
  | .chanJcfg i => ringSettle (s.setJour i { s.jour i with cfg := v &&& 0x00FFFFFF0000001F#64 }) i
  | .chanJtail i => jtailWrite s r i v off
  | .chanDb n => doorbellWrite s r n v off
  | .zipCtl n => s.setZip n { s.zip n with en := bitOf v 0 }
  | .zipSubmit n => Sys2Proof.Machine.zipSubmit s r n v off
  | .ciphCtl => { s with ciph := { s.ciph with en := v.extractLsb' 0 2 } }
  | .ciphAlarm => alarmClear s v
  | .ciphRange i =>
    let f := fld v 11 0
    let n := fld v 28 16
    dropWhole s r off (decide (n ≠ 0) && (decide (f < 256) || decide (4096 < f + n)))
      { s with ciph := { s.ciph with range := s.ciph.range.set i (v &&& 0x1FFF0FFF#64) } }
  | .ciphSubmit k => cipherSubmit s r k v off
  | .instCtxown c =>
    dropWhole s r off (!(s.inst (fld v 7 0)).present)
      { s with insts := { s.insts with ctxown := s.insts.ctxown.set c (v.extractLsb' 0 8) } }
  | .instWeight i => dropWhole s r off (badWeight v) (s.setInst i { s.inst i with weight := v &&& 0x7F7F7F#64 })
  | .instBktch i =>
    dropWhole s r off (badBucket v false)
      (capTokens (s.setInst i { s.inst i with bktch := v &&& 0xFFFFFFFF00FFFFFF#64 }) i [0])
  | .instBktz i =>
    dropWhole s r off (badBucket v true)
      (capTokens (s.setInst i { s.inst i with bktz := v &&& 0xFFFFFFFF00FFFFFF#64 }) i [1, 2, 3, 4])
  | .instBktk i =>
    dropWhole s r off (badBucket v true)
      (capTokens (s.setInst i { s.inst i with bktk := v &&& 0xFFFFFFFF00FFFFFF#64 }) i [5, 6])
  | .instDbgrant k => { s with insts := { s.insts with dbgrant := s.insts.dbgrant.set k (v &&& 0x1FF#64) } }
  | .instCggrant g => { s with insts := { s.insts with cggrant := s.insts.cggrant.set g (v &&& 0x1FF#64) } }
  | .dupxCkptbase =>
    dropWhole s r off (dupxLocked s) { s with dup := { s.dup with ckptBase := v &&& 0x000FFFFFFFFFC000#64 } }
  | .dupxCkptmask => dropWhole s r off (dupxLocked s) { s with dup := { s.dup with ckptMask := v.extractLsb' 0 32 } }
  | .dupxZbase z =>
    dropWhole s r off (dupxLocked s)
      { s with dup := { s.dup with zbase := s.dup.zbase.set z (v &&& 0x000FFFFFFFFF0001#64) } }
  | .dupxZsize z =>
    dropWhole s r off (dupxLocked s)
      { s with dup := { s.dup with zsize := s.dup.zsize.set z (v &&& 0x000FFFFFFFFF0000#64) } }
  | .timeDlarm => armDeadlines s v
  | .timeDls k => { s with time := { s.time with dls := s.time.dls.set k v } }
  | .timeDlf k => { s with time := { s.time with dlf := s.time.dlf.set k v } }
  | .crpBrst =>
    soloRelease (((brstBlocks.zip (List.range 9)).filter fun q => bitOf v q.2).foldl (fun t q => blockReset t q.1) s)
  | .crpCtxrst => ctxMask s v ctxCReset
  | .crpCtxstart => ctxMask s v releaseCtx
  | .crpCtxwake => ctxMask s v wakeLatchSet
  | .crpGatecfg =>
    { s with crp := { s.crp with auto := v.extractLsb' 0 18, delay := v.extractLsb' 32 16, notify := bitOf v 48 } }
  | .sensThr n =>
    let x := s.sens n
    s.setSens n { x with thr := v, outside := !x.valid || outOfRange v x.value }
  | .sensTrip => { s with crp := { s.crp with sensTrip := s.crp.sensTrip &&& ~~~(v.extractLsb' 0 32) } }
  | .dbgCtl => dbgCtlStore s v
  | .dbgHalt => dbgHaltStore s v
  | .dbgBpaddr b =>
    let x := s.aud.bps.get b { addr := 0, ctl := 0 }
    { s with aud := { s.aud with bps := s.aud.bps.set b { x with addr := v &&& 0x01FFFFFFFFFFFFFF#64 } } }
  | .dbgBpctl b =>
    let x := s.aud.bps.get b { addr := 0, ctl := 0 }
    { s with aud := { s.aud with bps := s.aud.bps.set b { x with ctl := v &&& 0x1FFFFFFFF#64 } } }
  | _ => s

/-! ## LK fields (R8, R45) -/

/-- The LK bits of a register; none for a register without an LK field. -/
def lkMask : Reg → Option Word
  | .mbCtrl _ => some 0x7#64
  | .fcrForcecfg => some 0x0FFFFFFFFFFFFFFF#64
  | .fcrForce _ => some 0xFFFFFFFFFFFFFFFF#64
  | .chanModid => some 0x3FFF#64
  | .ciphCfg => some 0xF#64
  | .ciphAlarmen => some 0x7F#64
  | .dupxCfg => some 0x0000FFFF00000007#64
  | .timeCfg => some 0xFF07#64
  | .audCtl => some 0x1#64
  | _ => none

/-- LK bits take a value; a write of 1 to a field that acts when it is written makes it act. -/
def lkStore (s : State) (r : Req) (off : Nat) (v : Word) : Reg → State
  | .mbCtrl n => s.setMb n { s.mb n with owner := v.extractLsb' 0 3 }
  | .fcrForcecfg => { s with fcr := { s.fcr with forcecfg := v } }
  | .fcrForce k => forceCards s k v
  | .chanModid => { s with chan := { s.chan with modid := v.extractLsb' 0 14 } }
  | .ciphCfg => dropWhole s r off (decide (8 < fld v 3 0)) { s with ciph := { s.ciph with ratio := v.extractLsb' 0 4 } }
  | .ciphAlarmen => { s with ciph := { s.ciph with alarmen := v.extractLsb' 0 7 } }
  | .dupxCfg =>
    let s := { s with dup := { s.dup with ckptMs := v.extractLsb' 32 16, onLoss := bitOf v 1, autoTakeover := bitOf v 0 } }
    if bitOf v 2 then enterSolo s else s
  | .timeCfg =>
    { s with time := { s.time with ppsWin := v.extractLsb' 8 8, ppsEdge := bitOf v 2, ppsoutEn := bitOf v 1
                                   disc := bitOf v 0 } }
  | .audCtl => if bitOf v 0 then enterSealed s false else s
  | _ => s

/-! ## Accesses -/

/-- Bytes of an access width (R25). -/
def widthBytes : Width → Nat
  | .w1 => 1
  | .w2 => 2
  | .w4 => 4
  | .w8 => 8

/-- What the checks of R26 say of an access: the kind of the first failure, or the register reached. -/
def ctlCheck (s : State) (r : Req) (write : Bool) (off w : Nat) : Except Nat Reg :=
  if write && decide (w < 8) then .error 0x0A
  else if off % w ≠ 0 ∨ w ∉ [1, 2, 4, 8] then .error 0x0D
  else
    match regAt (off / 8 * 8) with
    | none => .error 0x0B
    | some g => if !regMapped s g then .error 0x0B else if permitted s r write g then .ok g else .error 0x0C

/-- A control-space write of w bytes (R26): a failed check is reported and the write is dropped. -/
def ctlWrite (s : State) (r : Req) (off w : Nat) (v : Word) : State :=
  match ctlCheck s r true off w with
  | .error k => accessCard s r k off
  | .ok g => regWrite s r off v g

/-- The PAIR block that a register belongs to. -/
def Reg.pairNo : Reg → Option Nat
  | .pairState p => some p
  | .pairLetcnt p => some p
  | .pairDivcnt p => some p
  | .pairLastlet p => some p
  | .slot p _ _ => some p
  | _ => none

/-- An earlier access of the requester to the PAIR block of a register is held (R29). -/
def behindHeld (s : State) (r : Req) (g : Reg) : Bool :=
  match g.pairNo with
  | none => false
  | some p => (s.pair p).held.any fun h => decide (h.req = r)

/-- A read waits (R29, R202, R330): for a held slot, behind a held access of its requester to the same block, or for mirror
records that the partner has not applied. -/
def readWaits (s : State) (r : Req) (g : Reg) : Bool :=
  behindHeld s r g ||
  match g with
  | .slot p _ _ => slotHeld s p
  | .dupxSync => mirroring s && !partnerGone s && decide (s.dup.partnerApplied < s.dup.sent)
  | _ => false

/-- The addressed bytes of a register (R25). -/
def bytesOfReg (v : Word) (lo w : Nat) : Word := (v >>> (8 * lo)) &&& w64 (2 ^ (8 * w) - 1)

/-- A control-space read of w bytes (R26): a failed check is reported and returns 0. None while it waits. -/
def ctlRead (s : State) (r : Req) (off w : Nat) : Option (State × Word) :=
  match ctlCheck s r false off w with
  | .error k => some (accessCard s r k off, 0)
  | .ok g =>
    if readWaits s r g then none
    else
      let lo := off % 8
      let t := match g with
        | .slot p _ _ => slotTouch s p
        | _ => s
      some (regReadEffect s r lo w g, bytesOfReg (regVal t r g) lo w)

/-- A DUPX_SYNC read that waits asks the partner for its count at every record (R324, R330; log entry 106). -/
def askCount (s : State) : State :=
  let m := OutMsg.countAsk (s.dup.sent - s.dup.sentBase)
  if m ∈ (s.port 4).ctl then s else queueCtl s 4 m

/-- A read that must wait is kept until it is performed (R29, R202, R330). -/
def keepRead (s : State) (r : Req) (off w : Nat) : State :=
  match (regAt (off / 8 * 8)).bind Reg.pairNo with
  | some p =>
    s.setPair p { s.pair p with held := (s.pair p).held ++
      [{ req := r, inst := reqInst s r, write := false, off := off % 0x10000, w := w, v := 0 }] }
  | none => askCount { s with dup := { s.dup with syncWaiters := s.dup.syncWaiters ++ [(r, s.dup.sent)] } }

/-! ## The control-access queues (R12, R17, R310, R317) -/

/-- The number of a requester among the producers of control accesses (log entry 19). -/
def reqNumber : Req → Nat
  | .ctx c => c
  | .mgmt => 32
  | .jtag => 33

/-- The queue that an access of a requester to an offset goes through (R17). -/
def accQueue (r : Req) (off : Nat) : QueueId := { cls := .controlAccess, producer := reqNumber r, consumer := ctlBlock off }

/-- An access waits at its requester (R12, R15): no credit, or an older one for the block waits. -/
def accWaits (s : State) (r : Req) (off : Nat) : Bool :=
  noCredit s .controlAccess (reqNumber r) (ctlBlock off) ||
    s.bus.waitCtl.any fun a => decide (accQueue a.req a.off = accQueue r off)

/-- An access as its requester issues it: a context's may carry an earlier instance and innings than those of now. -/
def newAcc (s : State) (r : Req) (issued : Option Issue) (write : Bool) (off w : Nat) (v : Word) : CtlAcc :=
  let i :=
    match r, issued with
    | .ctx _, some k => k.inst.toNat
    | _, _ => reqInst s r
  { req := r, inst := i, innings := (issued.map (·.innings)).getD (s.inningsOf i), write := write, off := off, w := w, v := v }

/-- Registers through which work is submitted (R319). -/
def Reg.takesWork : Reg → Bool
  | .chanDb _ => true
  | .zipSubmit _ => true
  | .ciphSubmit _ => true
  | _ => false

/-- A doorbell or submission that was in flight when its instance was reset (R319). -/
def CtlAcc.stale (s : State) (a : CtlAcc) : Bool :=
  a.write && decide (a.innings ≠ s.inningsOf a.inst) && ((regAt a.off).map Reg.takesWork).getD false

/-- An access writes its own context's entry of INST_CTXOWN with the instance that it carries. -/
def CtlAcc.ownsAgain (a : CtlAcc) (c : Nat) : Bool :=
  a.write && decide (a.off = 0x7000100 + 8 * c) && decide (a.w = 8) && decide (a.inst < 4) && decide (fld a.v 7 0 = a.inst)

/-- An access is judged and performed with the instance that it carries since its issue (R310, R311). -/
def asIssued (s : State) (a : CtlAcc) (f : State → State) : State :=
  match a.req with
  | .ctx c =>
    let own (t : State) (b : BitVec 8) : State := { t with insts := { t.insts with ctxown := t.insts.ctxown.set c b } }
    let now := s.insts.ctxown.get c 0#8
    let then' := BitVec.ofNat 8 a.inst
    if now = then' then f s
    else
      let t := f (own s then')
      if t.insts.ctxown.get c 0#8 = then' ∧ a.ownsAgain c = false then own t now else t
  | _ => f s

/-- A write of the JTAG port is complete (R399). -/
def writeDone (s : State) (r : Req) : State :=
  match r with
  | .jtag => { s with aud := { s.aud with csDone := true } }
  | _ => s

/-- A read returns, or is kept while it waits. -/
def readNow (s : State) (r : Req) (off w : Nat) : State :=
  match ctlRead s r off w with
  | some (t, v) => readDone t r v
  | none => keepRead s r off w

/-- The target block performs an access (R25, R26); stale work is dropped at its input (R319). -/
def performAcc (s : State) (a : CtlAcc) : State :=
  if a.stale s then s
  else if a.write then writeDone (asIssued s a fun t => ctlWrite t a.req a.off a.w a.v) a.req
  else asIssued s a fun t => readNow t a.req a.off a.w

/-- Accesses that have waited and whose queue has a credit again are sent, the oldest first (R12, R15). -/
def flushAcc : Nat → State → State
  | 0, s => s
  | k + 1, s =>
    match s.bus.waitCtl.find? fun a => !noCredit s .controlAccess (reqNumber a.req) (ctlBlock a.off) with
    | none => s
    | some a => flushAcc k (performAcc { s with bus := { s.bus with waitCtl := s.bus.waitCtl.erase a } } a)

/-- What has waited at the requesters of control accesses. -/
def flushCtl (s : State) : State := flushAcc s.bus.waitCtl.length s

/-- A requester issues an access; without a credit it waits at the requester. -/
def sendAcc (s : State) (a : CtlAcc) : State :=
  flushCtl (if accWaits s a.req a.off then { s with bus := { s.bus with waitCtl := s.bus.waitCtl ++ [a] } }
    else performAcc s a)

end Sys2Proof.Machine
end

