-- ==== Sys2Proof/Machine/CtlCmds.lean ====
section
/-! DEFINITION. Commands that are one access to control space, and the commands of the queues, of the event router's own
cycle and of the fault lines. -/
namespace Sys2Proof.Machine

/-- A control-space access as a command (R12, R26). -/
def access (s : State) (r : Req) (write : Bool) (off w : Nat) (v : Word) : State := sendAcc s (newAcc s r none write off w v)

/-- A 64-bit control-space write as a command. -/
def ctlCmd (s : State) (r : Req) (off : Nat) (v : Word) : Res := act s (access s r true off 8 v)

/-- A control-space read as a command. -/
def readCmd (s : State) (r : Req) (off w : Nat) : Res := act s (access s r false off w 0)

/-- A doorbell or a submission, which may have been issued before a reset of its instance (R317, R319). -/
def workCmd (s : State) (r : Req) (off : Nat) (v : Word) (issued : Option Issue) : Res :=
  act s (sendAcc s (newAcc s r issued true off 8 v))

/-! ## Control space (01) -/

/-- CONTROL_WRITE (R26). -/
def execControlWrite (r : Req) (off : BitVec 40) (w : Width) (v : Word) (s : State) : Res :=
  act s (access s r true off.toNat (widthBytes w) v)

/-- CONTROL_READ (R25). -/
def execControlRead (r : Req) (off : BitVec 40) (w : Width) (s : State) : Res := readCmd s r off.toNat (widthBytes w)

/-- MGMT_BAR0_REQUEST (R23). -/
def execMgmtBar0Request (write : Bool) (off : BitVec 40) (len : Nat) (v : Word) (s : State) : Res :=
  act s (if !s.chan.mgmtUp then s
    else if 8 < len then complete s .unsupported
    else access s .mgmt write off.toNat len (if write then v else 0))

/-! ## Queues (01) -/

/-- The credits of a producer (R17). Engine memory and engine jobs number the channel 0, Z0 to Z3 1 to 4 and the clusters 5
and 6; a job queue of the channel is that of the subchannel that produces for it. Space for a control read return is
reserved at issue (R14). -/
def fullCredits (s : State) (q : QueueId) : Nat :=
  match q.cls with
  | .lineRequest => pairCredits s q.producer .lineRequest
  | .lineFill => pairCredits s q.consumer .lineFill
  | .writeback => pairCredits s q.producer .writeback
  | .l3Request => 16
  | .l3Data => 64
  | .memRequest => 128
  | .memData => 32
  | .engineMem => if q.producer = 0 then 64 else 32
  | .pcieInbound => 64
  | .controlAccess => 8
  | .controlReturn => 0
  | .engineJob => if q.consumer = 0 then sdDepth s q.producer else 16
  | .event => 64
  | .eventDelivery => 1
  | .faultCard => 4
  | .timeRead => 4
  | .mailbox => 1

/-- A queue, empty and with its producer's count full at first (R17). -/
def queueOf (s : State) (q : QueueId) : Queue :=
  (s.bus.queues.find? fun x => decide (x.id = q)).getD
    { id := q, credits := fullCredits s q, held := 0, reserved := 0, dropping := 0 }

def setQueue (s : State) (x : Queue) : State :=
  { s with bus := { s.bus with queues := x :: s.bus.queues.filter fun y => decide (y.id ≠ x.id) } }

/-- The card of a fault record (R234). -/
def recCard (f : FaultRec) : CardIn :=
  CardIn.listed { source := f.source, kind := f.kind, sev := BitVec.ofNat 2 ((severity f.source f.kind.toNat).getD 0)
                  inst := f.inst, copyLane := f.copyLane, address := f.address, bound := f.bound.map (·.val)
                  forced := false, win := false }

/-- A card names a source and a kind of R236, and is context-bound only where R238 says. -/
def cardListed (f : FaultRec) : Bool :=
  (severity f.source f.kind.toNat).isSome &&
    (match f.bound with
     | none => true
     | some _ => decide (64 ≤ f.source.val) && decide (f.source.val < 82) && decide (f.kind = 6))

/-- A unit is one of a queue's class, between its own producer and consumer. -/
def payloadFits (q : QueueId) : Payload → Bool
  | .event n _ _ => decide (q = { cls := .event, producer := eventBlock n, consumer := 0 }) && blockSource n
  | .card f => decide (q = { cls := .faultCard, producer := (recCard f).block, consumer := 0 }) && cardListed f
  | .ctlWrite r off _ _ => decide (q = accQueue r off.toNat)
  | .ctlRead r off _ => decide (q = accQueue r off.toNat)
  | .time who => decide (q = { cls := .timeRead, producer := readerNumber who, consumer := 0 })
  | .lineReq _ => [QClass.lineRequest, .l3Request, .memRequest].contains q.cls
  | .other => !([QClass.event, .faultCard, .controlAccess, .timeRead].contains q.cls)

/-- What the block does that reports a card and has no command of its own for it: the key store erases a slot whose two
copies have failed (R296, R301), and a firmware error ends its command INTERNAL (R43). -/
def cardEffect (s : State) (f : FaultRec) : State :=
  let n := f.address.toNat
  if f.source = 306 ∧ f.kind = 3 then eraseSlots s n 1
  else if f.source = 320 ∧ f.kind = 1 ∧ n < 64 ∧ (s.mb n).busy = true then soloRelease (mbFail (mbCleanup s n) n 0x0B [])
  else s

/-- What an entry's consumer does with it (R12). -/
def consume (s : State) : Payload → State
  | .event n i k => eventLands s { source := n, work := some (i, k) }
  | .card f => cardEffect { s with fcr := { s.fcr with inbox := s.fcr.inbox ++ [recCard f] } } f
  | .ctlWrite r off w v => performAcc s (newAcc s r none true off.toNat (widthBytes w) v)
  | .ctlRead r off w => performAcc s (newAcc s r none false off.toNat (widthBytes w) 0)
  | .time _ => complete s (.time s.tod s.time.dlbits)
  | .lineReq _ => s
  | .other => s

/-- The fault source of a corrected and of a dropped entry of a queue (R19, R236): its block's own where R236 gives the
block one, else the ring's, with the consumer as ring stop (log entry 19). -/
def queueCard (s : State) (q : QueueId) (dropped : Bool) : State :=
  let k := if dropped then 2 else 1
  match q.cls with
  | .memRequest => card s 140 k 0 0 0
  | .memData => card s 140 k 0 0 0
  | .event => card s 333 k 0 0 0
  | .engineJob =>
    if dropped && decide (q.consumer = 0) then card s 176 3 0 0 q.producer
    else card s 144 (if dropped then 3 else 1) 0 q.consumer 0
  | _ => card s 144 (if dropped then 3 else 1) 0 q.consumer 0

/-- An entry that is uncorrectable is dropped (R19). In a line fill or an event delivery it costs its pair one let; any
other is reported and recovered: its producer sends the unit again (log entry 19). -/
def dropEntry (s : State) (q : QueueId) (pl : Payload) : State :=
  match q.cls with
  | .lineFill => letUnnamed s.drawn (q.consumer % 18) (Config.freeBool s.free)
  | .eventDelivery => letUnnamed s.drawn (pairOf s q.consumer) (decide (slotOf s q.consumer = 1))
  | _ => consume (queueCard s q true) pl

/-- The response to a unit: its queue and the space it takes (R14, R17); 8 sectors of a line, or one of an uncached
request. -/
def responseOf (q : QueueId) : Payload → Option (QueueId × Nat)
  | .ctlRead _ _ _ => some ({ cls := .controlReturn, producer := q.consumer, consumer := q.producer }, 1)
  | .lineReq u =>
    match q.cls with
    | .lineRequest => some ({ cls := .lineFill, producer := q.consumer, consumer := q.producer }, if u then 1 else 8)
    | .l3Request => some ({ cls := .l3Data, producer := q.consumer, consumer := 0 }, if u then 1 else 8)
    | .memRequest => some ({ cls := .memData, producer := q.consumer, consumer := 0 }, 1)
    | _ => none
  | _ => none

/-- The response queue has space for n more units (R14). -/
def roomFor (s : State) (q : QueueId) (n : Nat) : Bool :=
  let x := queueOf s q
  decide (q.cls = .controlReturn) || decide (x.reserved + x.held + n ≤ fullCredits s q)

/-- Space for n units of a response is reserved (R14); it is the only credit of a control read return (R17). -/
def reserve (s : State) (q : QueueId) (n : Nat) : State :=
  let x := queueOf s q
  setQueue s { x with reserved := x.reserved + n, credits := if q.cls = .controlReturn then x.credits + n else x.credits }

/-- A producer can send a unit (R12, R14): it holds a credit, a request has space for its whole response, and a response
its reserved space. -/
def canSend (s : State) (q : QueueId) (pl : Payload) : Bool :=
  let x := queueOf s q
  decide (x.credits ≠ 0) && (!responseClass q.cls || decide (x.reserved ≠ 0)) &&
    (match responseOf q pl with
     | none => true
     | some (a, n) => roomFor s a n)

/-- A unit is sent (R12): a credit is taken; a request reserves its response, a response takes its reserved space. -/
def takeCredit (s : State) (q : QueueId) (pl : Payload) : State :=
  let x := queueOf s q
  let s := setQueue s { x with credits := x.credits - 1, held := x.held + 1
                               reserved := if responseClass q.cls then x.reserved - 1 else x.reserved }
  match responseOf q pl with
  | none => s
  | some (a, n) => reserve s a n

/-- A response to a requester that has been reset since is dropped at its boundary and its credit returned (R20). -/
def dropResponse (s : State) (q : QueueId) : State :=
  let x := queueOf s q
  setQueue s { x with reserved := x.reserved - 1, dropping := x.dropping - 1
                      credits := if q.cls = .controlReturn then x.credits - 1 else x.credits }

/-- QUEUE_ENTRY (R12, R13, R14, R19): a producer without credit sends nothing. -/
def execQueueEntry (q : QueueId) (ecc : Ecc) (pl : Payload) (s : State) : Res :=
  if !payloadFits q pl then .refused .illFormed
  else
    act s (if !canSend s q pl then s
      else if responseClass q.cls && decide ((queueOf s q).dropping ≠ 0) then dropResponse s q
      else
        let s := takeCredit s q pl
        match ecc with
        | .good => consume s pl
        | .corrected => consume (queueCard s q false) pl
        | .uncorrectable => dropEntry s q pl)

/-- Units that waited for a credit of a queue are sent, in the order in which they were made (R12, R15). -/
def releaseWaits (s : State) (q : QueueId) : State :=
  match q.cls with
  | .faultCard =>
    { s with fcr := { s.fcr with inbox := s.fcr.inbox ++ s.bus.waitCards.filter fun c => decide (c.block = q.producer) }
             bus := { s.bus with waitCards := s.bus.waitCards.filter fun c => decide (c.block ≠ q.producer) } }
  | .event =>
    (s.bus.waitEvents.filter fun e => decide (eventBlock e.source = q.producer)).foldl eventLands
      { s with bus := { s.bus with waitEvents := s.bus.waitEvents.filter fun e => decide (eventBlock e.source ≠ q.producer) } }
  | .controlAccess => flushCtl s
  | _ => s

/-- CREDIT_RETURN (R12, R13). The space of a control read return was reserved for it alone (R17). -/
def execCreditReturn (q : QueueId) (s : State) : Res :=
  let x := queueOf s q
  let back := if q.cls = .controlReturn then x.credits else x.credits + 1
  act s (if x.held = 0 then s else releaseWaits (setQueue s { x with credits := back, held := x.held - 1 }) q)

/-! ## Caches, pairs, mailboxes -/

/-- CACHE_PCTL_WRITE (R171, R172). -/
def execCachePctlWrite (r : Req) (p : Fin 18) (v : Word) (s : State) : Res := ctlCmd s r (0x2000200 + 8 * p.val) v

/-- CACHE_L3CTL_WRITE (R171, R172). -/
def execCacheL3ctlWrite (r : Req) (v : Word) (s : State) : Res := ctlCmd s r 0x2000000 v

/-- SLOT_WINDOW_WRITE (R212). -/
def execSlotWindowWrite (r : Req) (p : Fin 18) (slot : Bool) (off : BitVec 14) (v : Word) (s : State) : Res :=
  ctlCmd s r (slotOff p slot off.toNat) v

/-- Offset of MBn_GO (R31). -/
def goOff (n : Nat) : Nat := 0x400 * n + 0x308

/-- MB_GO_START (R35). -/
def execMbGoStart (r : Req) (mb : Fin 64) (s : State) : Res := ctlCmd s r (goOff mb) 1

/-- MB_GO_CONTINUE (R35). -/
def execMbGoContinue (r : Req) (mb : Fin 64) (s : State) : Res := ctlCmd s r (goOff mb) 2

/-- MB_GO_ABORT (R35). -/
def execMbGoAbort (r : Req) (mb : Fin 64) (s : State) : Res := ctlCmd s r (goOff mb) 3

/-! ## Event router (10) -/

/-- EVENT_ARRIVAL (R213, R215, R216): balls come through their filter and software sources through ERT_SWRAISE. -/
def execEventArrival (source : Fin 1024) (inst : BitVec 8) (innings : BitVec 12) (s : State) : Res :=
  act s (if blockSource source then raiseFor s source inst.toNat innings else s)

/-- EVT_BALL_CHANGE (R217, R383): held counts ERT cycles at the ball; N and N + 1 cycles are accepted by their phase. -/
def execEvtBallChange (n : Fin 64) (level : Bool) (held : Nat) (sampled : Bool) (s : State) : Res :=
  let f := fld (srcOf s n) 55 48
  act s (if f + 2 ≤ held ∨ (f ≤ held ∧ sampled = true) then ballAccept s n level else s)

/-- ERT_SELECTION (R220): one ERT cycle. -/
def execErtSelection (s : State) : Res := act s (ertCycle s)

/-- DELIVERY_ARRIVAL (R221, R222). -/
def execDeliveryArrival (c : Fin 32) (s : State) : Res := act s (arrive s c)

/-- DELIVERY_WITHDRAWAL (R223). -/
def execDeliveryWithdrawal (c : Fin 32) (s : State) : Res := act s (if withdrawDue s c then withdraw s c else s)

/-- ERT_MASKSET_WRITE (R224, R232). -/
def execErtMasksetWrite (r : Req) (k : Fin 16) (v : Word) (s : State) : Res := ctlCmd s r (0x100200 + 8 * k.val) v

/-- ERT_MASKCLR_WRITE (R224, R232). -/
def execErtMaskclrWrite (r : Req) (k : Fin 16) (v : Word) (s : State) : Res := ctlCmd s r (0x100280 + 8 * k.val) v

/-- ERT_PEND_WRITE (R218). -/
def execErtPendWrite (r : Req) (k : Fin 16) (v : Word) (s : State) : Res := ctlCmd s r (0x100100 + 8 * k.val) v

/-- ERT_SWRAISE (R213). -/
def execErtSwraise (r : Req) (v : Word) (s : State) : Res := ctlCmd s r 0x100400 v

/-- ERT_SRC_WRITE (R225, R227). -/
def execErtSrcWrite (r : Req) (n : Fin 1024) (v : Word) (s : State) : Res := ctlCmd s r (0x102000 + 8 * n.val) v

/-- ERT_EOI (R229): the context's own page. -/
def execErtEoi (c : Fin 32) (s : State) : Res := ctlCmd s (.ctx c) 0x108008 0

/-- ERT_EOIC (R229). -/
def execErtEoic (r : Req) (c : Fin 32) (s : State) : Res := ctlCmd s r (0x100808 + 0x40 * c.val) 0

/-! ## Fault lines (11) -/

/-- FAULT_CARD (R240). -/
def execFaultCard (f : FaultRec) (s : State) : Res :=
  if cardListed f then act s (cardEffect (sendCard s (recCard f)) f) else .refused .illFormed

/-- FCR_CLOSE (R241). -/
def execFcrClose (r : Req) (v : Word) (s : State) : Res := ctlCmd s r 0x200008 v

/-- FCR_PIN_WRITE (R243). -/
def execFcrPinWrite (r : Req) (v : Word) (s : State) : Res := ctlCmd s r 0x200010 v

/-- NERR_PULSE_END (R243). -/
def execNerrPulseEnd (s : State) : Res := done { s with fcr := { s.fcr with pulse := false } }

/-- MGMT_LINK_ERROR (R236). -/
def execMgmtLinkError (uncorrectable : Bool) (s : State) : Res := act s (card s 167 (if uncorrectable then 2 else 1) 0 0 0)

/-- WATCHDOG_RESTART (R236): the firmware restarts, and its commands end as after an SP block reset (R38; log entry 20). -/
def execWatchdogRestart (s : State) : Res := act s (soloRelease (spReset (card s 320 3 0 0 0)))

/-! ## Channel, engines, instances, time, debug -/

/-- CHAN_DOORBELL (R253). -/
def execChanDoorbell (r : Req) (n : BitVec 16) (v : Word) (s : State) (issued : Option Issue := none) : Res :=
  workCmd s r (0x4100000 + 8 * n.toNat) v issued

/-- CHAN_BIND_FRESH (R250). -/
def execChanBindFresh (r : Req) (n : BitVec 16) (s : State) : Res := ctlCmd s r 0x4000030 (w64 (n.toNat + 0x10000))

/-- CHAN_BIND_SYNC (R250, R262). -/
def execChanBindSync (r : Req) (n : BitVec 16) (s : State) : Res := ctlCmd s r 0x4000030 (w64 n.toNat)

/-- CHAN_UNBIND (R250). -/
def execChanUnbind (r : Req) (n : BitVec 16) (s : State) : Res := ctlCmd s r 0x4000030 (w64 (n.toNat + 0x20000))

/-- CHAN_JTAIL_WRITE (R258). -/
def execChanJtailWrite (r : Req) (i : Fin 256) (v : Word) (s : State) : Res := ctlCmd s r (0x4001018 + 0x20 * i.val) v

/-- DUPX_SYNC_READ (R330). -/
def execDupxSyncRead (r : Req) (s : State) : Res := readCmd s r 0x8000010 8

/-- ZIP_SUBMIT (R283). -/
def execZipSubmit (r : Req) (n : Fin 4) (v : Word) (s : State) (issued : Option Issue := none) : Res :=
  workCmd s r (0x5008000 + 0x10000 * n.val) v issued

/-- CIPH_SUBMIT (R302). -/
def execCiphSubmit (r : Req) (k : Fin 2) (v : Word) (s : State) (issued : Option Issue := none) : Res :=
  workCmd s r (0x6008000 + 8 * k.val) v issued

/-- CIPH_ALARM_CLEAR (R307). -/
def execCiphAlarmClear (r : Req) (v : Word) (s : State) : Res := ctlCmd s r 0x6000010 v

/-- INST_CTXOWN_WRITE (R310). -/
def execInstCtxownWrite (r : Req) (c : Fin 32) (v : Word) (s : State) : Res := ctlCmd s r (0x7000100 + 8 * c.val) v

/-- TIME_DLARM_WRITE (R349). -/
def execTimeDlarmWrite (r : Req) (v : Word) (s : State) : Res := ctlCmd s r 0x9000030 v

/-- TIME_NOWF_READ (R342, R343): lag counts the TOD cycles by which a core's copy is behind. -/
def execTimeNowfRead (r : Req) (lag : Fin 3) (s : State) : Res :=
  act s (if accWaits s r 0x9008000 then access s r false 0x9008000 8 0
    else match ctlCheck s r false 0x9008000 8 with
    | .error k => complete (accessCard s r k 0x9008000) (.data 0)
    | .ok _ => complete (readNowf s r lag).1 (.data (readNowf s r lag).2))

/-- DBG_CTL_WRITE (R398). -/
def execDbgCtlWrite (r : Req) (v : Word) (s : State) : Res := ctlCmd s r 0xF000000 v

/-- DBG_HALT_WRITE (R398). -/
def execDbgHaltWrite (r : Req) (v : Word) (s : State) : Res := ctlCmd s r 0xF000008 v

/-- The first CSACC since the last P or M reset is measured (R399, R400). -/
def csaccFirst (s : State) : State :=
  if s.aud.csaccSeen then s
  else
    let s := measure s 0x0C 3 1 zeroDigest
    { s with aud := { s.aud with csaccSeen := true, debugUsed := true } }

/-- CSACC (R399): it acts while the port holds the instruction and the audit unit is not SEALED (R388). -/
def execCsacc (write : Bool) (off : BitVec 40) (data : Word) (s : State) : Res :=
  act s (if s.aud.ir ≠ .csacc ∨ s.aud.sealed = true then s
    else
      let s := csaccFirst s
      access { s with aud := { s.aud with csDone := false } } .jtag write off.toNat 8 data)

end Sys2Proof.Machine
end

