-- ==== Sys2Proof/Machine/Dcs.lean ====
section
/-! DEFINITION. The commands of the Dwegata Command Set (R37 to R48): checks, dispatch, and what each command does. -/
namespace Sys2Proof.Machine

/-! ## Checks (R37, R43, R405) -/

/-- A row of the command tables: opcode, admitted requesters (bit 4 the management link, bits 0 to 3 the instances),
minimum of ARG_WORDS, chunked input. -/
structure CmdRow where
  op : Nat
  who : Nat
  args : Nat
  chunked : Bool
  deriving DecidableEq, Repr

/-- The commands of R44. -/
def cmdRows : List CmdRow :=
  [⟨0x0100, 0x13, 1, false⟩, ⟨0x0101, 0x11, 1, false⟩, ⟨0x0102, 0x11, 1, false⟩, ⟨0x0200, 0x13, 2, false⟩,
    ⟨0x0201, 0x13, 1, false⟩, ⟨0x0202, 0x13, 1, false⟩, ⟨0x0300, 0x11, 2, false⟩, ⟨0x0301, 0x13, 2, false⟩,
    ⟨0x0302, 0x13, 2, true⟩, ⟨0x0400, 0x11, 8, false⟩, ⟨0x0401, 0x11, 1, false⟩, ⟨0x0500, 0x12, 3, false⟩,
    ⟨0x0501, 0x12, 3, false⟩, ⟨0x0502, 0x10, 1, false⟩, ⟨0x0600, 0x12, 1, true⟩, ⟨0x0601, 0x12, 1, false⟩,
    ⟨0x0602, 0x1F, 4, false⟩, ⟨0x0603, 0x16, 3, false⟩, ⟨0x0700, 0x11, 0, false⟩, ⟨0x0701, 0x18, 3, false⟩,
    ⟨0x0702, 0x18, 0, false⟩, ⟨0x0800, 0x11, 3, false⟩]

/-- The requester of a command is in its From column (R44): a context by the instance that its write of MBn_GO carried
(R310, R311). -/
def fromAdmits (who : Nat) (c : Captured) : Bool :=
  match c.req with
  | .mgmt => who.testBit 4
  | .ctx _ => decide (c.inst < 4) && who.testBit c.inst
  | .jtag => false

/-- The first refusal that applies to a captured command, in the order of R37; none when it passes. -/
def refusal (s : State) (x : Mailbox) : Option Nat :=
  match cmdRows.find? fun r => decide (r.op = x.opcode) with
  | none => some 2
  | some r =>
    if fld x.header 22 0 ≠ 0 ∨ 31 < x.argWords ∨ (x.last && !r.chunked) ∨ x.argWords < r.args then some 3
    else if !((x.cap.map (fromAdmits r.who)).getD false) then some 4
    else if s.aud.sealed && (decide (x.opcode = 0x0502) || (decide (x.opcode = 0x0800) && decide ((x.arg 1).toNat / 2 ^ 24 = 15)))
    then some 5
    else none

/-- The firmware runs and is not switching images (R37, R47). -/
def fwRuns (s : State) : Bool := decide (s.sp.fw = .running)

/-- COMMAND_CHECK (R37): REFUSED, or confirmed with CODE = WAITING. The command comes through the mailbox's queue (R12). -/
def execCommandCheck (mb : Fin 64) (s : State) : Res :=
  let x := s.mb mb
  act s (if x.st ≠ .accepted ∨ x.checked = true ∨ fwRuns s = false ∨ noCredit s .mailbox mb 0 = true then s
    else
      match refusal s x with
      | some k => mbMove s mb x .refused k
      | none => s.setMb mb { x with checked := true, code := 0x0C#8 })

/-! ## Dispatch (R42) -/

/-- Ranges of slots overlap. -/
def overlap (a n b m : Nat) : Bool := decide (a < b + m) && decide (b < a + n)

/-- First slot and count of a key command (R42). -/
def keyRange (x : Mailbox) : Nat × Nat :=
  if x.opcode = 0x0300 then (fld (x.arg 1) 11 0, 1) else ((x.arg 1).toNat, (x.arg 2).toNat)

/-- Engine mask and table of a FORMAT_LOAD. -/
def fmtTarget (x : Mailbox) : Nat × Nat :=
  let v := if x.step = 0 then (x.arg 1).toNat else x.aux
  (v % 16, v / 2 ^ 16 % 32)

/-- The cache way of a WAY_DELETE: the word naming the cache without COPY, and the way. -/
def wayKey (x : Mailbox) : Nat × Nat :=
  let w := x.arg 1
  (if fld w 1 0 = 2 then 2 + fld w 12 8 * 4 else 3 + fld w 23 20 * 4, (x.arg 2).toNat)

/-- Two commands need the same resource (R42). -/
def conflict (x y : Mailbox) : Bool :=
  let a := x.opcode
  let b := y.opcode
  let g (l : List Nat) : Bool := l.contains a && l.contains b
  if g [0x0100, 0x0101, 0x0102] then decide (x.arg 1 = y.arg 1)
  else if g [0x0200] then decide (wayKey x = wayKey y)
  else if g [0x0201, 0x0202] then true
  else if g [0x0300, 0x0301] then overlap (keyRange x).1 (keyRange x).2 (keyRange y).1 (keyRange y).2
  else if g [0x0302] then
    decide ((fmtTarget x).1 &&& (fmtTarget y).1 ≠ 0) && decide ((fmtTarget x).2 = (fmtTarget y).2)
  else if g [0x0400, 0x0401] then decide (fld (x.arg 1) 7 0 = fld (y.arg 1) 7 0)
  else if g [0x0500, 0x0501] then true
  else if g [0x0701, 0x0702] then true
  else g [0x0600, 0x0601, 0x0700]

/-- Work of an instance is in flight under an innings (R320). -/
def inFlight (s : State) (i : Nat) (n : BitVec 12) : Bool :=
  let b := BitVec.ofNat 8 i
  (List.range 4).any (fun z => (s.zip z).queue.any fun j => decide (j.inst = b) && decide (j.innings = n)) ||
    [0, 1].any (fun k => (cipherQueue s k).any fun j => decide (j.inst = b) && decide (j.innings = n)) ||
    (s.chan.sends.any fun o => decide (o.inst = b) && decide (o.innings = n)) ||
    s.chan.recvs.any fun o => decide (o.inst = b) && decide (o.innings = n)

/-- An INSTANCE_RESET waits while its new innings is in use (R320). -/
def resetWaits (s : State) (x : Mailbox) : Bool :=
  let i := fld (x.arg 1) 7 0
  decide (x.opcode = 0x0401) && inFlight s i (s.inningsOf i + 1)

/-- Commands in RUNNING or PARTIAL. -/
def busyMbs (s : State) : List Nat := mbNums.filter fun n => (s.mb n).busy

/-- The resource of a waiting command is free: held neither by a running command nor by an older waiting one. -/
def resourceFree (s : State) (n : Nat) : Bool :=
  let x := s.mb n
  let older (m : Nat) : Bool :=
    decide ((s.mb m).st = .accepted) && (s.mb m).checked && decide ((s.mb m).order < x.order)
  !(mbNums.any fun m => ((s.mb m).busy || older m) && conflict (s.mb m) x) && !resetWaits s x

/-- The oldest waiting command whose resource is free. -/
def nextCommand (s : State) : Option Nat :=
  let l := mbNums.filter fun n => decide ((s.mb n).st = .accepted) && (s.mb n).checked && resourceFree s n
  l.foldl (fun a n =>
    match a with
    | none => some n
    | some m => if (s.mb n).order < (s.mb m).order then some n else some m) none

/-! ## Firmware activation (R47, R270) -/

/-- The other mailboxes whose command has not ended. -/
def others (s : State) (n : Nat) : List Nat := (mbActive s).filter fun m => decide (m ≠ n)

/-- The switch point (R47 step 3): every other command ends RETRY_AFTER_UPDATE and the image switch begins. -/
def switchPoint (s : State) (n : Nat) : State :=
  let l := others s n
  let s := soloRelease (l.foldl (fun t m => mbEnd t m 8) s)
  { s with sp := { s.sp with fw := .switching, retried := l.length } }

/-- The drain has ended (R47 step 2): no other command is in RUNNING or PARTIAL. -/
def drained (s : State) (n : Nat) : Bool := (busyMbs s).all fun m => decide (m = n)

/-- The drain's end is noticed. -/
def drainCheck (s : State) : State :=
  match s.sp.activateMb with
  | none => s
  | some n => if fwRuns s && decide ((s.mb n).step = 1) && drained s n then switchPoint s n else s

/-- FW_ACTIVATE as it is taken up (R39, R47). -/
def fwActivateStart (s : State) (x : Mailbox) (n : Nat) : State :=
  if 1000000 < (x.arg 1).toNat then badArg s n
  else
    match s.sp.staged with
    | none => if s.sp.lastActivated = some s.sp.running then already s n else mbFail s n 0x58 []
    | some _ =>
      drainCheck { s with sp := { s.sp with activateMb := some n, old := s.sp.running, retried := 0, seqDone := 0 } }

/-! ## Warm reset (R44, R360) -/

/-- The warm reset begins (R360 step 1). -/
def warmBegin (s : State) (n k : Nat) : State :=
  let s := s.setMb n { s.mb n with step := 2, aux := k }
  warmStops { s with sp := { s.sp with warmMb := some n } }

/-- A WARM_RESET that waits proceeds once no other command is in RUNNING or PARTIAL (R44). -/
def warmCheck (s : State) : State :=
  match mbNums.find? fun n => running s n 0x0700 && decide ((s.mb n).step = 1) with
  | none => s
  | some n => if drained s n then warmBegin s n 0 else s

/-! ## Attestation report (R397) -/

/-- The report without its signature (R397). -/
def reportBody (s : State) (nonce : List Word) : List Byte :=
  let n := s.aud.log.length
  let flags := b2n s.aud.sealed + b2n s.aud.overflow * 2 + b2n s.aud.debugUsed * 4 + b2n s.time.set * 8 +
    b2n s.crp.kept.sealFuse * 64 + s.crp.kept.rollback.toNat * 2 ^ 32
  let staged := (s.sp.staged.map fun p => p.version.toNat).getD 0
  wordsBytes [w64 (1 + (376 + 64 * n) * 2 ^ 32),
      w64 (0x4800 + s.crp.kept.revision.toNat * 2 ^ 16 + s.crp.kept.serial.toNat * 2 ^ 32)] ++
    wordsBytes nonce ++ wordsBytes (todWords s.tod) ++
    wordsBytes [w64 flags, w64 (s.sp.running.toNat + staged * 2 ^ 32)] ++
    (mrOf s 0 ++ mrOf s 1 ++ mrOf s 2 ++ mrOf s 3) ++ wordsBytes [w64 (n + s.aud.dropped.toNat * 2 ^ 32)] ++
    s.aud.log.flatMap (·.bytes)

/-- The report (R397): the body and its signature. -/
def report (s : State) (nonce : List Word) : List Byte :=
  let b := reportBody s nonce
  b ++ bytesOf (Config.signByte b) 96

/-- A command starts (R37); an ATTEST takes its snapshot as it leaves ACCEPTED (R397). -/
def startCommand (s : State) (n : Nat) : State :=
  let x := s.mb n
  let r := if x.opcode = 0x0602 then report s [x.arg 1, x.arg 2, x.arg 3, x.arg 4] else []
  s.setMb n { x with st := .running, code := 0, out := bytesWords r.length r }

/-- COMMAND_DISPATCH (R42): when a place is free, the oldest waiting command whose resource is free starts; where none
starts, a drain or a wait that has ended is noticed (R44, R47). -/
def execCommandDispatch (s : State) : Res :=
  act s (if !fwRuns s then s
    else if 8 ≤ (busyMbs s).length then s
    else
      match nextCommand s with
      | none => warmCheck (drainCheck s)
      | some n => startCommand s n)

/-! ## Core pairs (R44, R200, R206, R208) -/

/-- The pair a command names; none for a number above 17. -/
def argPair (x : Mailbox) : Option Nat := if (x.arg 1).toNat < 18 then some (x.arg 1).toNat else none

/-- SUBSTITUTE (R200, R205): it waits while its pair is already being substituted. -/
def substituteStart (s : State) (x : Mailbox) (n : Nat) : State :=
  match argPair x with
  | none => badArg s n
  | some p =>
    match (s.pair p).st with
    | .fenced => already s n
    | .split => mbFail s n 0x42 []
    | .active => if (benchPair s).isNone && !substServed s then mbFail (stopPair s p) n 0x41 [] else beginSubst s p (some n)
    | _ => mbFail s n 0x40 []

/-- The pair named by a SUBSTITUTE is being substituted for another cause (R205). -/
def substWaits (s : State) (mb : Nat) : Bool :=
  match argPair (s.mb mb) with
  | none => false
  | some p => decide ((s.pair p).st = .substituting)

/-- SUBSTITUTE. -/
def execSubstitute (mb : Fin 64) (s : State) : Res :=
  if substWaits s mb then act s s else takeUp s mb 0x0100 fun t x => substituteStart t x mb

/-- A split or join begins (R206, R208). -/
def handoverStart (s : State) (p n : Nat) (toSplit : Bool) : State :=
  movePair (s.setPair p { s.pair p with handover := some { toSplit := toSplit, mb := n } }) p .handover

/-- SPLIT_PAIR. -/
def execSplitPair (mb : Fin 64) (s : State) : Res :=
  takeUp s mb 0x0101 fun t x =>
    match argPair x with
    | none => badArg t mb
    | some p =>
      match (t.pair p).st with
      | .split => already t mb
      | .active => handoverStart t p mb true
      | _ => mbFail t mb 0x40 []

/-- JOIN_PAIR. -/
def execJoinPair (mb : Fin 64) (s : State) : Res :=
  takeUp s mb 0x0102 fun t x =>
    match argPair x with
    | none => badArg t mb
    | some p =>
      match (t.pair p).st with
      | .active => already t mb
      | .split => handoverStart t p mb false
      | _ => mbFail t mb 0x44 []

/-! ## Caches and memory (R44, R177, R183, R184) -/

/-- Lines of a way of an L2 or of an L3 slice. -/
def inWay (l3 : Bool) (unit way : Nat) (l : CLine) : Bool :=
  decide (l.way = way) && decide ((if l3 then homeSlice l.line else l.owner % 18) = unit)

/-- The repair list and the registers show the deletion (R177, R178). -/
def markDeleted (s : State) (l3 : Bool) (unit bit : Nat) : State :=
  if l3 then
    let t := s.caches.l3del.set unit (setBit (s.caches.l3del.get unit 0#32) bit true)
    { s with caches := { s.caches with l3del := t }, crp := { s.crp with kept := { s.crp.kept with l3del := t } } }
  else
    let t := s.caches.l2del.set unit (setBit (s.caches.l2del.get unit 0#32) bit true)
    { s with caches := { s.caches with l2del := t }, crp := { s.crp with kept := { s.crp.kept with l2del := t } } }

/-- The way's dirty lines are written back, its clean lines discarded (R161), and the way is emptied. -/
def emptyWay (s : State) (l3 : Bool) (unit way : Nat) : State :=
  if l3 then setCaches s { s.caches with l3 := s.caches.l3.filter fun l => !inWay true unit way l }
  else
    let out := s.caches.l2.filter (inWay false unit way)
    out.foldl (fun t l => writeBack (dropL2 t l.owner l.line) l) s

/-- Ways of a cache that are not deleted. -/
def waysLeft (s : State) (l3 : Bool) (unit : Nat) : Nat :=
  if l3 then ((List.range 32).filter fun w => !bitOf (s.caches.l3del.get unit 0#32) w).length
  else ((List.range 16).filter fun w => !l2Deleted s unit w).length

/-- WAY_DELETE (R44, R177). An L2 way has 2,048 lines and a way of an L3 slice 16,384. -/
def wayDeleteStart (s : State) (x : Mailbox) (n : Nat) : State :=
  let w := x.arg 1
  let l3 := decide (fld w 1 0 = 3)
  let unit := if l3 then fld w 21 20 * 4 + fld w 23 22 else fld w 12 8
  let way := (x.arg 2).toNat
  if stray x [(1, 0xF11F03#64)] || decide (fld w 1 0 < 2) || (!l3 && decide (17 < unit)) ||
      decide ((if l3 then 32 else 16) ≤ way) then badArg s n
  else if (if l3 then bitOf (s.caches.l3del.get unit 0#32) way else l2Deleted s unit way) then already s n
  else if waysLeft s l3 unit = 1 then mbFail s n 0x45 []
  else
    let lines := (if l3 then s.caches.l3 else s.caches.l2).filter (inWay l3 unit way)
    let isLocked := if l3 then bitOf s.caches.l3lock way else bitOf s.caches.l2lock way
    if isLocked && !lines.isEmpty then mbFail s n 0x46 []
    else
      let s := markDeleted (emptyWay s l3 unit way) l3 unit (if l3 then way else way + 16 * b2n (bitOf w 16))
      mbDone (mbProgress s n (if l3 then 16384 else 2048)) n 0 [w64 (lines.filter (·.dirty)).length]

/-- WAY_DELETE. -/
def execWayDelete (mb : Fin 64) (s : State) : Res := takeUp s mb 0x0200 fun t x => wayDeleteStart t x mb

/-- MEM_CHANNEL_OFFLINE. -/
def execMemChannelOffline (mb : Fin 64) (s : State) : Res :=
  takeUp s mb 0x0201 fun t x =>
    let n := (x.arg 1).toNat
    if 11 < n then badArg t mb
    else if t.chst n = .offline then already t mb
    else if !othersOnline t n then mbFail t mb 0x48 []
    else mbDone (setCh t n .offline) mb 0 []

/-- The stripe pointer of a rebuild: the MiB of the channel below it (R185). -/
def ptrAdvance (s : State) (n mib : Nat) : State :=
  { s with memc := { s.memc with ptr := s.memc.ptr.set n (s.memc.ptr.get n 0 + mib * 8192) } }

/-- The stripe that stopped an earlier run is passed over, its line written poisoned (R184). -/
def rebuildSkip (s : State) (n : Nat) : State :=
  match s.memc.skip.get n 0 with
  | 0 => s
  | k + 1 =>
    let s := card (addPoison s k) (128 + n) 5 0 0 (k * 128)
    { s with memc := { s.memc with skip := s.memc.skip.set n 0, ptr := s.memc.ptr.set n (stripeOf k + 1) } }

/-- The rebuild meets a stripe whose line here cannot be reconstructed (R184); a parity line is none (log entry 113). -/
def rebuildStops (s : State) (mb n rebuilt other : Nat) : State :=
  if channelOf rebuilt ≠ n ∨ stripeOf rebuilt ≠ stripeOf other ∨ rebuilt = other then s
  else
    let s := if other ∈ s.caches.poison then s else poisonLine s other
    let s := { s with memc := { s.memc with ptr := s.memc.ptr.set n (stripeOf rebuilt), skip := s.memc.skip.set n (rebuilt + 1) } }
    mbFail (setCh s n .offline) mb 0x4A [w64 (rebuilt * 128), w64 (other * 128)]

/-- One event of a running rebuild: step 1 trains, step 2 writes; out holds the errors corrected (R44). -/
def rebuildEvent (s : State) (mb : Nat) (ev : RebuildEv) : State :=
  let x := s.mb mb
  let n := x.aux
  if !running s mb 0x0202 then s
  else if x.step = 1 then
    match ev with
    | .trained => rebuildSkip (s.setMb mb { x with step := 2 }) n
    | .trainingFailed => rebuildFails s n 8 noLine 0
    | _ => s
  else
    match ev with
    | .advance mib corrected =>
      let s := s.setMb mb { x with out := [x.out.getD 0 0 + w64 corrected] }
      mbProgress (ptrAdvance s n mib) mb (x.progress.toNat + mib)
    | .linkFailed => rebuildFails s n 7 noLine 0
    | .unreconstructable rebuilt other => rebuildStops s mb n rebuilt other
    | .finished =>
      let s := setCh { s with memc := { s.memc with ptr := s.memc.ptr.set n 0, skip := s.memc.skip.set n 0 } } n .online
      mbDone s mb 0 [w64 x.progress.toNat, x.out.getD 0 0]
    | _ => s

/-- MEM_CHANNEL_REBUILD as it is taken up. -/
def rebuildStart (s : State) (x : Mailbox) (mb : Nat) : State :=
  let n := (x.arg 1).toNat
  if 11 < n then badArg s mb
  else
    match s.chst n with
    | .online => already s mb
    | .rebuilding => mbFail s mb 0x49 []
    | .offline =>
      let s := s.setMb mb { s.mb mb with aux := n, out := [0] }
      setCh { s with memc := { s.memc with rebuildCh := BitVec.ofNat 4 n } } n .rebuilding

/-- MEM_CHANNEL_REBUILD (R183, R184): taken up, then one event of its run. -/
def execMemChannelRebuild (mb : Fin 64) (ev : RebuildEv) (s : State) : Res :=
  if running s mb 0x0202 && decide ((s.mb mb).step = 0) then
    takeUp s mb 0x0202 fun t x => rebuildEvent (rebuildStart t x mb) mb ev
  else act s (rebuildEvent s mb ev)

/-! ## Keys (R296 to R299) -/

/-- The key-encryption key that a KEY_LOAD names. -/
def kekOf (s : State) (k : Nat) : Option (List Byte) :=
  if k = 0x8000 then some (bytesOf Config.deviceKeyByte 32) else (keySlot s k).map (·.key)

/-- Bytes of the wrapped key of a type (R298). -/
def wrappedLen (ty : Nat) : Nat := if ty = 0 then 24 else if ty = 3 then 72 else 40

/-- KEY_LOAD (R298). -/
def keyLoadStart (s : State) (x : Mailbox) (n : Nat) : State :=
  let w := x.arg 1
  let slot := fld w 11 0
  let ty := fld w 19 16
  let kek := (x.arg 2).toNat
  if stray x [(1, 0xF0FFF#64), (2, 0xFFFF#64)] || decide (3 < ty) || decide (x.argWords ≠ 2 + wrappedLen ty / 8) ||
      (decide (slot < 256) && decide (2 ≤ ty)) || (decide (256 ≤ kek) && decide (kek ≠ 0x8000)) then badArg s n
  else
    match (if inAlarm s || s.ciph.erasing then none else kekOf s kek) with
    | none => mbFail s n 0x4D []
    | some k =>
      match kwUnwrap k (wordsBytes (x.argsFrom 3)) with
      | none => mbFail s n 0x4B []
      | some key =>
        if 2 ≤ ty ∧ key.take (key.length / 2) = key.drop (key.length / 2) then badArg s n
        else
          match keySlot s slot with
          | some old => if old.key = key ∧ old.ktype.toNat = ty then already s n else mbFail s n 0x4C []
          | none =>
            let e : KeySlot := { ktype := BitVec.ofNat 4 ty, key := key, counter := 1, kcv := kcvOf ty key }
            let s := { s with ciph := { s.ciph with slots := s.ciph.slots.set slot (some e) } }
            let s := measure s 6 2 slot (sha384 (wordsBytes [x.arg 1, x.arg 2] ++ leBytes 3 e.kcv.toNat))
            mbDone s n 0 []

/-- KEY_LOAD. -/
def execKeyLoad (mb : Fin 64) (s : State) : Res := takeUp s mb 0x0300 fun t x => keyLoadStart t x mb

/-- KEY_ERASE (R299, R303): jobs under an erased slot end KEY_ERASED. -/
def keyEraseStart (s : State) (x : Mailbox) (n : Nat) : State :=
  let a := (x.arg 1).toNat
  let k := (x.arg 2).toNat
  if k = 0 ∨ 4096 < a + k then badArg s n
  else
    let s := eraseSlots s a k
    let s := raise (measure s 7 2 0 (sha384 (wordsBytes [x.arg 1, x.arg 2]))) 274
    mbDone (mbProgress s n k) n 0 [w64 k]

/-- KEY_ERASE. -/
def execKeyErase (mb : Fin 64) (s : State) : Res := takeUp s mb 0x0301 fun t x => keyEraseStart t x mb

/-! ## Chunked input (R46) -/

/-- What a captured chunk does to a transfer of a stated length. -/
inductive ChunkEnd where
  | bad
  | more (buf : List Byte)
  | complete (buf : List Byte)
  deriving DecidableEq, Repr

/-- A chunk of words joins the bytes received. -/
def takeChunk (got : List Byte) (words : List Word) (len : Nat) (last : Bool) : ChunkEnd :=
  let buf := (got ++ wordsBytes words).take len
  if words ≠ [] ∧ len ≤ got.length + 8 * (words.length - 1) then .bad
  else if !last then .more buf
  else if buf.length < len then .bad
  else .complete buf

/-- The next chunk of a transfer in mailbox n, whose length stands in out: BAD_CONTINUE, PARTIAL, or its completion. -/
def inputChunk (s : State) (n k : Nat) (finish : State → List Byte → State) : State :=
  let x := s.mb n
  match takeChunk x.buf (x.argsFrom k) (x.out.getD 0 0).toNat x.last with
  | .bad => mbFail (mbCleanup s n) n 9 []
  | .more b => mbPartial (mbProgress (s.setMb n { x with buf := b }) n b.length) n false []
  | .complete b => finish (mbProgress (s.setMb n { x with buf := b }) n b.length) b

/-- A started job uses a table: a COMPRESS job its descriptor's, a DECOMPRESS job that of its open block (R44, R275). -/
def usesTable (t : Nat) (j : ZJob) : Bool :=
  j.started && (if j.compress then decide (j.table = t) else j.stream.openBlock && decide (j.stream.table = t))

/-- A job of an engine of the mask is using the table (R44). -/
def tableInUse (s : State) (mask t : Nat) : Bool :=
  (List.range 4).any fun n => mask.testBit n && (s.zip n).queue.any (usesTable t)

/-- The last chunk of a FORMAT_LOAD has come (R274, R275). -/
def formatDone (s : State) (n : Nat) (b : List Byte) : State :=
  let mask := (fmtTarget (s.mb n)).1
  let t := (fmtTarget (s.mb n)).2
  if !tableOk b then mbFail s n 0x4E []
  else
    let e : FmtTable := { bytes := b, crc := crc32c b }
    let put (u : State) (z : Nat) : State :=
      if mask.testBit z then u.setZip z { u.zip z with tables := (u.zip z).tables.set t (some e) } else u
    let s := (List.range 4).foldl put s
    mbDone (measure s 5 2 (mask + t * 16) (sha384 b)) n 0 [w64 e.crc.toNat]

/-- FORMAT_LOAD (R46, R274, R275). -/
def execFormatLoad (mb : Fin 64) (s : State) : Res :=
  if running s mb 0x0302 && decide ((s.mb mb).step = 0) then
    takeUp s mb 0x0302 fun t x =>
      if stray x [(1, 0x1F000F#64)] then badArg t mb
      else if tableInUse t ((x.arg 1).toNat % 16) ((x.arg 1).toNat / 2 ^ 16) then mbFail t mb 0x4F []
      else inputChunk (t.setMb mb { x with aux := (x.arg 1).toNat, out := [x.arg 2] }) mb 3 fun u b => formatDone u mb b
  else
    act s (if chunkDue s mb 0x0302 then consumeChunk s mb fun t => inputChunk t mb 1 fun u b => formatDone u mb b else s)

/-- The last chunk of an FW_STAGE has come (R44, R394). -/
def stageDone (s : State) (n : Nat) (b : List Byte) : State :=
  let empty := { s with sp := { s.sp with staged := none } }
  let v := Config.packageVersion b
  if !Config.packageSigned b then mbFail empty n 0x55 []
  else if v.toNat < s.crp.kept.rollback.toNat then mbFail empty n 0x57 []
  else
    mbDone { s with sp := { s.sp with staged := some { bytes := b, version := v, minimum := Config.packageMinimum b } } } n 0
      [w64 v.toNat]

/-- FW_STAGE (R44, R46): at most 8 MiB. -/
def execFwStage (mb : Fin 64) (s : State) : Res :=
  if running s mb 0x0600 && decide ((s.mb mb).step = 0) then
    takeUp s mb 0x0600 fun t x =>
      if 8388608 < (x.arg 1).toNat then mbFail { t with sp := { t.sp with staged := none } } mb 0x56 []
      else inputChunk (t.setMb mb { x with out := [x.arg 1] }) mb 2 fun u b => stageDone u mb b
  else
    act s (if chunkDue s mb 0x0600 then consumeChunk s mb fun t => inputChunk t mb 1 fun u b => stageDone u mb b else s)

/-! ## Instances (R309, R313, R317 to R321) -/

/-- A bucket register from a rate and a burst (R313, R322). -/
def bucketWord (rate burst : Word) : Word := w64 (rate.toNat * 2 ^ 32 + burst.toNat)

/-- INSTANCE_CREATE (R313). -/
def instanceCreateStart (s : State) (x : Mailbox) (n : Nat) : State :=
  let i := (x.arg 1).toNat
  let b (k : Nat) : Word := bucketWord (x.arg k) (x.arg (k + 1))
  if stray x [(2, 0x7F7F7F#64), (3, 0xFFFFFFFF#64), (4, 0xFFFFFF#64), (5, 0xFFFFFFFF#64), (6, 0xFFFFFF#64),
      (7, 0xFFFFFFFF#64), (8, 0xFFFFFF#64)] || decide (i < 4) || decide (255 < i) || badWeight (x.arg 2) ||
      badBucket (b 3) false || badBucket (b 5) true || badBucket (b 7) true then badArg s n
  else
    let e := s.inst i
    if e.present then
      (if e.weight = x.arg 2 ∧ e.bktch = b 3 ∧ e.bktz = b 5 ∧ e.bktk = b 7 then already s n else mbFail s n 0x50 [])
    else
      let s := s.setInst i { e with present := true, weight := x.arg 2, bktch := b 3, bktz := b 5, bktk := b 7 }
      let s := [0, 1, 2, 3, 4, 5, 6].foldl (fun t k => setTokens t i k (burstOf t i k)) s
      mbDone s n 0 [w64 e.innings.toNat]

/-- INSTANCE_CREATE. -/
def execInstanceCreate (mb : Fin 64) (s : State) : Res := takeUp s mb 0x0400 fun t x => instanceCreateStart t x mb

/-- The innings advances (R317). The RECEIVEs of a privileged instance that are still posted stay so, those of an ordinary
one no longer are (R319, R321). -/
def inningsAdvance (s : State) (i : Nat) : State :=
  let new := (s.inst i).innings + 1
  let recvs :=
    if i < 4 then s.chan.recvs.map fun o => if o.inst.toNat = i then { o with innings := new } else o
    else s.chan.recvs.filter fun o => decide (o.inst.toNat ≠ i)
  { s.setInst i { s.inst i with innings := new } with chan := { s.chan with recvs := recvs } }

/-- The contexts of an instance are reset, and its reset is over (R318). -/
def instResetEnds (s : State) (i : Nat) : State :=
  let s := s.setInst i { s.inst i with phase := .idle, drainMb := none }
  (ctxNums.filter fun c => decide (s.owner c = i)).foldl ctxIReset s

/-- RECEIVEs of an instance that are posted. -/
def recvCount (s : State) (i : Nat) : Nat := (s.chan.recvs.filter fun o => decide (o.inst.toNat = i)).length

/-- SQUASH of a privileged instance's work (R321). -/
def squashWork (s : State) (i : Nat) : State :=
  let s := (List.range 4).foldl (fun t z => (zipJobs t z i).foldl (fun u j => zipReset u z j) t) s
  let s := cipherStopAll s (fun j => decide (j.inst.toNat = i)) 8
  cancelRecvs s fun o => decide (o.inst.toNat = i)

/-- The work of a privileged instance has ended: its reset completes (R321). -/
def drainDone (s : State) (i : Nat) : State :=
  match (s.inst i).drainMb with
  | none => s
  | some n =>
    if workLeft s i ≠ 0 then s
    else
      let total := (s.inst i).drained
      let s := raise (instResetEnds (inningsAdvance s i) i) 275
      mbDone (mbProgress s n total) n 0 [w64 (s.inst i).innings.toNat]

/-- INSTANCE_RESET (R44, R318, R321). -/
def instanceResetStart (s : State) (x : Mailbox) (n : Nat) : State :=
  let i := fld (x.arg 1) 7 0
  let e := s.inst i
  let guard := bitOf (x.arg 2) 12
  let want : BitVec 12 := (x.arg 2).extractLsb' 0 12
  if stray x [(1, 0x1FF#64), (2, 0x1FFF#64)] then badArg s n
  else if !e.present then mbFail s n 0x52 []
  else if guard && decide (e.innings = want + 1) then already s n
  else if guard && decide (e.innings ≠ want) then mbFail s n 0x51 []
  else if 4 ≤ i then
    let s := inningsAdvance s i
    s.setInst i { s.inst i with phase := .resetting, drainMb := some n }
  else
    let squash := bitOf (x.arg 1) 8
    let total := workLeft s i + (if squash then recvCount s i else 0)
    let s := s.setInst i { e with phase := if squash then .squashing else .draining, drained := total, drainMb := some n }
    drainDone (if squash then squashWork s i else s) i

/-- Every boundary holds the new innings of an ordinary instance (R318 steps 2 to 4): its contexts are reset and the
command is DONE. -/
def resetArrives (s : State) (n : Nat) : State :=
  let i := fld ((s.mb n).arg 1) 7 0
  if (s.inst i).phase = .resetting ∧ (s.inst i).drainMb = some n then
    let s := instResetEnds s i
    mbDone s n 0 [w64 (s.inst i).innings.toNat]
  else s

/-- INSTANCE_RESET (R318, R321): taken up; for an ordinary instance, then the end of its wait for the boundaries. -/
def execInstanceReset (mb : Fin 64) (s : State) : Res :=
  if running s mb 0x0401 && decide ((s.mb mb).step = 0) then takeUp s mb 0x0401 fun t x => instanceResetStart t x mb
  else act s (if running s mb 0x0401 then resetArrives s mb else s)

/-- INSTANCE_DRAIN_COMPLETE (R321). -/
def execInstanceDrainComplete (i : Fin 4) (s : State) : Res := act s (drainDone s i)

/-! ## Time and sensors (R344, R345, R369) -/

/-- TOD_SET (R39, R344). -/
def todSetStart (s : State) (x : Mailbox) (n : Nat) : State :=
  let w := x.arg 3
  let want : BitVec 16 := w.extractLsb' 16 16
  if stray x [(3, 0xFFFF0003#64)] then badArg s n
  else if bitOf w 1 && decide (s.time.steps = want + 1) then already s n
  else if bitOf w 1 && decide (s.time.steps ≠ want) then mbFail s n 0x51 []
  else if bitOf w 0 then { s with time := { s.time with setAtPps := some n } }
  else mbDone (todStep s (x.arg 1 ++ x.arg 2)) n 0 (todWords s.tod)

/-- TOD_SET. -/
def execTodSet (mb : Fin 64) (s : State) : Res := takeUp s mb 0x0500 fun t x => todSetStart t x mb

/-- TOD_SET_NO_PPS (R44): no edge within 2 s. -/
def execTodSetNoPps (mb : Fin 64) (s : State) : Res :=
  act s (if s.time.setAtPps = some mb.val ∧ running s mb 0x0500 = true then
      mbFail { s with time := { s.time with setAtPps := none } } mb 0x53 []
    else s)

/-- TOD_STEER (R345). -/
def todSteerStart (s : State) (x : Mailbox) (n : Nat) : State :=
  let w := x.arg 1
  let off := (x.arg 2).toInt
  let num := (x.arg 3).toNat
  let same := decide (num = s.time.steer.toNat)
  if w ≠ BitVec.ofInt 64 (signedOf 32 w.toNat) ∨ 2 ^ 31 < off.natAbs ∨ num = 0 ∨ 2 ^ 32 ≤ num ∨
      (same = true ∧ off ≠ s.time.steerOff) ∨ (s.time.disc = true ∧ s.time.locked = true) then badArg s n
  else if same && decide (s.time.steerDone.toNat = off.natAbs) then already s n
  else
    let done := if same then s.time.steerDone else 0
    let left := decide (done.toNat < off.natAbs)
    let s := { s with time := { s.time with
      trim := w.extractLsb' 0 32, steer := BitVec.ofNat 32 num, steerOff := off, steerDone := done, slewing := left
      slewFrac := 0, steerMb := some n } }
    let s := mbProgress s n done.toNat
    if left then s else steerReport s

/-- TOD_STEER. -/
def execTodSteer (mb : Fin 64) (s : State) : Res := takeUp s mb 0x0501 fun t x => todSteerStart t x mb

/-- A calibration point (R369). -/
def calPoint (w : Word) : BitVec 16 × BitVec 32 := (w.extractLsb' 0 16, w.extractLsb' 16 32)

/-- RAW rises strictly. -/
def rising : List (BitVec 16 × BitVec 32) → Bool
  | p :: q :: r => decide (p.1 < q.1) && rising (q :: r)
  | _ => true

/-- The values a sensor's curve may take (R368, R369). -/
def calRange (n : Nat) : Int × Int :=
  if n < 6 then (-2000000, 4000000) else if n < 30 then (-55000, 150000) else (-1048576, 1048576)

/-- SENSOR_CALIBRATE (R369). -/
def sensorCalibrateStart (s : State) (x : Mailbox) (n : Nat) : State :=
  let k := (x.arg 1).toNat
  let ws := x.argsFrom 2
  let pts := ws.map calPoint
  let out (p : BitVec 16 × BitVec 32) : Bool := decide (p.2.toInt < (calRange k).1) || decide ((calRange k).2 < p.2.toInt)
  if ws.any (fun w => decide (fld w 63 48 ≠ 0)) || decide (pts.length < 2) || !rising pts || decide (k = 30) ||
      decide (31 < k) then badArg s n
  else if pts.any out then mbFail s n 0x54 []
  else
    let s := { s with crp := { s.crp with kept := { s.crp.kept with curves := s.crp.kept.curves.set k (some pts) } } }
    let s := measure s 9 3 k (sha384 (wordsBytes ws))
    mbDone (mbProgress s n pts.length) n 0 [w64 pts.length]

/-- SENSOR_CALIBRATE. -/
def execSensorCalibrate (mb : Fin 64) (s : State) : Res := takeUp s mb 0x0502 fun t x => sensorCalibrateStart t x mb

/-! ## Firmware -/

/-- FW_ACTIVATE (R47): taken up, or the end of its drain noticed. -/
def execFwActivate (mb : Fin 64) (s : State) : Res :=
  if running s mb 0x0601 && decide ((s.mb mb).step = 0) then takeUp s mb 0x0601 fun t x => fwActivateStart t x mb
  else act s (drainCheck s)

/-- FW_DRAIN_LIMIT_EXPIRY (R47 step 2). -/
def execFwDrainLimitExpiry (s : State) : Res :=
  act s (match s.sp.activateMb with
    | none => s
    | some n => if fwRuns s && decide ((s.mb n).step = 1) then switchPoint s n else s)

/-- The new image runs, or the old one again after a failed self-test (R47 steps 4 and 6, R391). -/
def imageSwitched (s : State) (n : Nat) (p : Package) (ok : Bool) : State :=
  let s := measure s 3 1 0 (bytesOf (Config.imageDigestByte p.version) 48)
  let s := s.setMb n { s.mb n with step := 2 }
  if ok then
    { s with sp := { s.sp with fw := .running, running := p.version }, chan := { s.chan with seqstat := 1 } }
  else
    let s := measure s 4 1 0 (bytesOf (Config.imageDigestByte s.sp.old) 48)
    mbFail { s with sp := { s.sp with fw := .running, activateMb := none } } n 0x59 []

/-- FW_IMAGE_SWITCH_DONE (R47). -/
def execFwImageSwitchDone (ok : Bool) (s : State) : Res :=
  act s (if s.sp.fw ≠ .switching then s
    else
      match s.sp.activateMb, s.sp.staged with
      | some n, some p => imageSwitched s n p ok
      | _, _ => s)

/-- SEQUENCER of the bound subchannels on sequencer q becomes another; home returns each to s mod 8 (R249, R270). -/
def moveSubs (s : State) (q : Nat) (home : Bool) : State :=
  (List.range 65536).foldl (fun t sub =>
    let w := sdWord t sub 6
    if fld w 2 0 = 0 then t
    else if home then (if fld w 10 8 = sub % 8 then t else setSd t sub 6 (setFld w 10 8 (sub % 8)))
    else if fld w 10 8 = q then setSd t sub 6 (setFld w 10 8 ((q + 1) % 8))
    else t) s

/-- The activation is complete (R47, R394): 64 steps bound the rollback counter. -/
def activateDone (s : State) (n : Nat) : State :=
  let least := (s.sp.staged.map fun p => p.minimum.toNat).getD 0
  let back := max s.crp.kept.rollback.toNat (min least 64)
  let s := { s with crp := { s.crp with kept := { s.crp.kept with rollback := BitVec.ofNat 16 back } }
                    sp := { s.sp with staged := none, activateMb := none, lastActivated := some s.sp.running } }
  mbDone s n 0 [w64 s.sp.old.toNat, w64 s.sp.running.toNat, w64 s.sp.retried]

/-- One sequencer is migrated and updated (R270). -/
def sequencerStep (s : State) (n : Nat) : State :=
  let q := s.sp.seqDone
  let s := raise (moveSubs s q false) 315
  let s := { s with sp := { s.sp with seqDone := q + 1 }
                    chan := { s.chan with seqstat := BitVec.ofNat 8 (2 ^ (q + 1)) } }
  let s := mbProgress s n (q + 1)
  if q + 1 < 8 then s else activateDone (moveSubs s 0 true) n

/-- SEQUENCER_UPDATE_STEP (R47 step 5, R270): not before a takeover in progress has ended in SOLO (R339). -/
def execSequencerUpdateStep (s : State) : Res :=
  act s (match s.sp.activateMb with
    | none => s
    | some n =>
      if fwRuns s && decide ((s.mb n).step = 2) && decide (s.sp.seqDone < 8) && decide (s.dup.st ≠ .takingOver) then
        sequencerStep s n
      else s)

/-! ## Chunked output (R46) -/

/-- The next chunk of what a command delivers; at the last one the command ends. -/
def outputChunk (s : State) (n size : Nat) (progress : Nat → Nat) (finish : State → State) : State :=
  let x := s.mb n
  let l := x.out.take size
  let s := s.setMb n { x with out := x.out.drop size }
  let s := mbProgress s n (x.progress.toNat + progress l.length)
  if (x.out.drop size).isEmpty then mbDone (finish s) n 0 l else mbPartial s n true l

/-- ATTEST (R397): 63 words a chunk. -/
def execAttest (mb : Fin 64) (s : State) : Res :=
  let next (t : State) : State := outputChunk t mb 63 (fun k => 8 * k) fun u => u
  if running s mb 0x0602 && decide ((s.mb mb).step = 0) then
    takeUp s mb 0x0602 fun t _ => next t
  else act s (if chunkDue s mb 0x0602 then consumeChunk s mb next else s)

/-- The entries that a FAULT_LOG_READ delivers (R246). -/
def logPick (s : State) (first count : Nat) : List LogEntry :=
  (s.fcr.log.filter fun e => decide (first ≤ e.seq.toNat)).take count

/-- The entries that have been delivered leave the log when CLEAR = 1 (R246). -/
def logClear (s : State) (n : Nat) : State :=
  { s with fcr := { s.fcr with log := s.fcr.log.filter fun e => decide (e.seq ∉ (s.mb n).picked) } }

/-- FAULT_LOG_READ (R246): five entries of 12 words a chunk. -/
def execFaultLogRead (mb : Fin 64) (s : State) : Res :=
  let next (t : State) : State := outputChunk t mb 60 (fun k => k / 12) fun u => logClear u mb
  if running s mb 0x0603 && decide ((s.mb mb).step = 0) then
    takeUp s mb 0x0603 fun t x =>
      if stray x [(3, 1#64)] then badArg t mb
      else
        let l := logPick t (x.arg 1).toNat (x.arg 2).toNat
        let gone := if bitOf (x.arg 3) 0 then l.map (·.seq) else []
        next (t.setMb mb { x with out := l.flatMap (·.words), picked := gone })
  else act s (if chunkDue s mb 0x0603 then consumeChunk s mb next else s)

/-! ## Warm reset and LK_WRITE -/

/-- WARM_RESET (R44, R360): taken up, or the end of its wait or of its first step noticed. -/
def execWarmReset (mb : Fin 64) (s : State) : Res :=
  if running s mb 0x0700 && decide ((s.mb mb).step = 0) then takeUp s mb 0x0700 fun t _ => warmCheck t
  else act s (warmStops (warmCheck s))

/-- WARM_RESET_WAIT_EXPIRY (R44): after 100 ms the running commands end RESET_ABORTED. -/
def execWarmResetWaitExpiry (s : State) : Res :=
  act s (match mbNums.find? fun n => running s n 0x0700 && decide ((s.mb n).step = 1) with
    | none => s
    | some n =>
      let l := (busyMbs s).filter fun m => decide (m ≠ n)
      warmBegin (soloRelease (l.foldl (fun t m => mbEnd t m 0x0A) s)) n l.length)

/-- LK_WRITE (R45). -/
def lkWriteStart (s : State) (x : Mailbox) (n : Nat) : State :=
  let off := (x.arg 1).toNat
  let mask := x.arg 3
  let r := (x.cap.map fun c => c.req).getD .mgmt
  let reg := if off % 8 = 0 then regAt off else none
  match reg with
  | none => badArg s n
  | some g =>
    if !regMapped s g then badArg s n
    else
      match lkMask g with
      | none => mbFail s n 0x5F []
      | some m =>
        let v := blend (regVal s r g &&& m) (x.arg 2) mask
        let badOwner :=
          match g with
          | .mbCtrl _ => decide (fld v 2 0 = 2) || decide (fld v 2 0 = 3)
          | _ => false
        if mask &&& ~~~m ≠ 0 then mbFail s n 0x5F []
        else if badOwner && decide (mask ≠ 0) then badArg s n
        else
          let t := if mask = 0 then s else lkStore s r off v g
          let t := measure t 0x0A 3 0 (sha384 (wordsBytes [x.arg 1, x.arg 2, x.arg 3]))
          mbDone t n 0 [regVal t r g]

/-- LK_WRITE. -/
def execLkWrite (mb : Fin 64) (s : State) : Res := takeUp s mb 0x0800 fun t x => lkWriteStart t x mb

end Sys2Proof.Machine
end

