-- ==== Sys2Proof/Machine/Operands.lean ====
section
/-! DEFINITION. The QAA encoding (04): the words of a unit, the fields of an instruction, the operand forms of R62 and
R63, and the traps that an encoding raises (R102). -/
namespace Sys2Proof.Machine

/-! ## Opcodes -/

/-- OPCODE of the long map (R95); none for the operation group and the prefix group. -/
def longOp : QOp → Option Nat
  | .ld => some 0x00 | .st => some 0x01 | .ldx => some 0x02 | .stx => some 0x03
  | .ldy => some 0x04 | .sty => some 0x05 | .leax => some 0x06 | .leay => some 0x07
  | .xchg => some 0x08 | .add => some 0x09 | .adc => some 0x0A | .sub => some 0x0B
  | .sbb => some 0x0C | .and => some 0x0D | .or => some 0x0E | .xor => some 0x0F
  | .shl => some 0x10 | .shr => some 0x11 | .sar => some 0x12 | .rol => some 0x13
  | .ror => some 0x14 | .tst => some 0x15 | .cmp => some 0x16 | .cmpu => some 0x17
  | .mul => some 0x18 | .mulh => some 0x19 | .mulhu => some 0x1A | .div => some 0x1B
  | .divu => some 0x1C | .rem => some 0x1D | .remu => some 0x1E
  | .br => some 0x20 | .call => some 0x21 | .cflush => some 0x22 | .cinvr => some 0x23
  | .fcmp => some 0x27
  | .fadd => some 0x28 | .fsub => some 0x29 | .fmul => some 0x2A | .fdiv => some 0x2B
  | .fsqrt => some 0x2C | .fma => some 0x2D | .fmin => some 0x2E | .fmax => some 0x2F
  | .dad => some 0x30 | .dsb => some 0x31 | .dmul => some 0x32 | .drnd => some 0x33
  | .dcmp => some 0x34 | .dval => some 0x35
  | .dadExt => some 0x38 | .dsbExt => some 0x39 | .dmulExt => some 0x3A | .drndExt => some 0x3B
  | .dcmpExt => some 0x3C | .dvalExt => some 0x3D
  | .ret | .reti | .wait | .trap | .fence | .pflush | .pbar | .punbar | .rnda | .mvax | .mvxa | .mvay | .mvya
  | .not | .neg | .xchgX | .xchgY | .fcvt | .fcvti | .icvtf | .dcvb | .dcvbExt | .bcvd | .ctOn | .ctOff => none

/-- OPCODE of the short map (R96); the short decimal forms are the narrow ones. -/
def shortOp : QOp → Option Nat
  | .ld => some 0 | .st => some 1 | .ldx => some 2 | .stx => some 3
  | .ldy => some 4 | .sty => some 5 | .add => some 6 | .adc => some 7
  | .sub => some 8 | .and => some 9 | .or => some 10 | .xor => some 11
  | .cmp => some 12 | .cmpu => some 13 | .tst => some 14 | .shl => some 15
  | .shr => some 16 | .mul => some 17 | .dad => some 18 | .dsb => some 19
  | .fadd => some 20 | .fmul => some 21
  | _ => none

/-- FUNC of the operation group (R99). -/
def funcOf : QOp → Option Nat
  | .ret => some 0x00 | .reti => some 0x01 | .wait => some 0x02 | .trap => some 0x03
  | .fence => some 0x04 | .pflush => some 0x05 | .pbar => some 0x06 | .punbar => some 0x07
  | .rnda => some 0x08
  | .mvax => some 0x10 | .mvxa => some 0x11 | .mvay => some 0x12 | .mvya => some 0x13
  | .not => some 0x14 | .neg => some 0x15 | .xchgX => some 0x16 | .xchgY => some 0x17
  | .fcvt => some 0x18 | .fcvti => some 0x19 | .icvtf => some 0x1A
  | .dcvb => some 0x1C | .dcvbExt => some 0x1D | .bcvd => some 0x1E
  | _ => none

/-- Bits [10:8] of the instructions in the prefix group (R101). -/
def grpOf : QOp → Option Nat
  | .ctOn => some 3
  | .ctOff => some 4
  | _ => none

/-- The operations, in the order of the maps. -/
def allOps : List QOp :=
  [.ld, .st, .ldx, .stx, .ldy, .sty, .leax, .leay, .xchg, .add, .adc, .sub, .sbb, .and, .or, .xor,
   .shl, .shr, .sar, .rol, .ror, .tst, .cmp, .cmpu, .mul, .mulh, .mulhu, .div, .divu, .rem, .remu,
   .br, .call, .cflush, .cinvr, .fcmp, .fadd, .fsub, .fmul, .fdiv, .fsqrt, .fma, .fmin, .fmax] ++
  [.dad, .dsb, .dmul, .drnd, .dcmp, .dval, .dadExt, .dsbExt, .dmulExt, .drndExt, .dcmpExt, .dvalExt,
   .ret, .reti, .wait, .trap, .fence, .pflush, .pbar, .punbar, .rnda, .mvax, .mvxa, .mvay, .mvya,
   .not, .neg, .xchgX, .xchgY, .fcvt, .fcvti, .icvtf, .dcvb, .dcvbExt, .bcvd, .ctOn, .ctOff]

/-! ## Words -/

/-- What stands before the instruction of a unit (R68, R101): its kind and bits [7:0] of its halfword. -/
inductive Pre where
  | none
  | pfx (low : BitVec 8)
  | rep (low : BitVec 8)
  | lock (low : BitVec 8)
  deriving DecidableEq, Repr

/-- The halfword of a prefix (R101). -/
def preWords : Pre → List HWord
  | .none => []
  | .pfx l => [0xB800#16 ||| l.setWidth 16]
  | .rep l => [0xB900#16 ||| l.setWidth 16]
  | .lock l => [0xBA00#16 ||| l.setWidth 16]

/-- The halfwords of an instruction (R84, R88, R93, R99, R101); none where the operation has no such form. -/
def instWords (op : QOp) : Form → Option (List HWord)
  | .long pred size am operand =>
    match longOp op, funcOf op with
    | some o, _ =>
      some [BitVec.ofNat 16 (0xC000 + o * 256 + pred.toNat * 32 + size.toNat * 8 + am.toNat / 2),
            BitVec.ofNat 16 (am.toNat % 2 * 0x8000 + operand.toNat)]
    | none, some f =>
      if operand.toNat / 256 = f then
        some [BitVec.ofNat 16 (0xFF00 + pred.toNat * 32 + size.toNat * 8 + am.toNat / 2),
              BitVec.ofNat 16 (am.toNat % 2 * 0x8000 + operand.toNat)]
      else none
    | none, none => none
  | .short size sam soperand =>
    match shortOp op, funcOf op with
    | some o, _ => some [BitVec.ofNat 16 (o * 0x800 + size.toNat * 0x200 + sam.toNat * 0x40 + soperand.toNat)]
    | none, some f =>
      if soperand.toNat = f ∧ op ≠ .trap then some [BitVec.ofNat 16 (0xB000 + size.toNat * 0x200 + sam.toNat * 0x40 + f)]
      else none
    | none, none => none
  | .grp low => (grpOf op).map fun g => [BitVec.ofNat 16 (0xB800 + g * 256 + low.toNat)]

/-- The halfwords of a unit, prefix first (R84). -/
def unitWords (pre : Pre) (op : QOp) (f : Form) : Option (List HWord) := (instWords op f).map (preWords pre ++ ·)

/-! ## Operand forms -/

/-- Registers that address operands (R62). -/
inductive Base where
  | x | y | s
  deriving DecidableEq, Repr

/-- The operand forms of R62 and R63. -/
inductive Mode where
  | ind (b : Base)
  | post (b : Base)
  | pre (b : Base)
  | disp (b : Base) (d : Word)
  | idx (scale : Nat) (d : Word)
  | pcrel (d : Word)
  | abs (a : Word)
  | imm (v : Word)
  deriving DecidableEq, Repr

/-- A register by AM 0 to 8 or SAM 0 to 5 in groups of three. -/
def baseOf (k : Nat) : Base := if k = 0 then .x else if k = 1 then .y else .s

/-- Modes AM 0 to 8 (R62). -/
def regMode (am : Nat) : Mode :=
  if am % 3 = 0 then .ind (baseOf (am / 3)) else if am % 3 = 1 then .post (baseOf (am / 3)) else .pre (baseOf (am / 3))

/-- The mode of an instruction (R62, R63). -/
def modeOf : Form → Mode
  | .long _ _ am o =>
    if am.toNat < 9 then regMode am.toNat
    else if am = 9 then .disp .x (o.signExtend 64)
    else if am = 10 then .disp .y (o.signExtend 64)
    else if am = 11 then .disp .s (o.signExtend 64)
    else if am = 12 then .idx (2 ^ fld o 14 12) ((o.setWidth 12).signExtend 64)
    else if am = 13 then .pcrel (o.signExtend 64)
    else if am = 14 then .abs (o.setWidth 64)
    else .imm (o.signExtend 64)
  | .short _ sam o =>
    if sam.toNat < 6 then regMode sam.toNat
    else if sam = 6 then .disp .s (o.setWidth 64 * 8)
    else .imm (o.signExtend 64)
  | .grp _ => .ind .x

/-- SIZE (R88, R93). -/
def sizeOf : Form → Nat
  | .long _ sz _ _ => sz.toNat
  | .short sz _ _ => sz.toNat
  | .grp _ => 0

/-- The predicate that a form names (R67). -/
def predOf (pre : Pre) : Form → Nat
  | .long p _ _ _ => p.toNat
  | .short _ _ _ =>
    match pre with
    | .pfx l => l.toNat % 8
    | _ => 0
  | .grp _ => 0

/-- The layout field of AM 0 to 8 (R89 to R92); PT and COND of a short CMP or CMPU stand where R90 has them (R94). -/
def layoutOf : Form → Nat
  | .long _ _ _ o => o.toNat
  | .short _ _ o => o.toNat * 2 ^ 9
  | .grp _ => 0

/-- The value of an addressing register. -/
def Ctx.base (x : Ctx) : Base → Word
  | .x => x.x
  | .y => x.y
  | .s => x.s

/-- The effective address (R62, R63, R64): ipc is the address of the instruction's first halfword; a branch counts its
displacement from PC in halfwords. -/
def Ctx.ea (x : Ctx) (ipc : Word) (branch : Bool) (n : Nat) : Mode → Word
  | .ind b => x.base b
  | .post b => x.base b
  | .pre b => x.base b - w64 n
  | .disp b d => x.base b + d
  | .idx k d => x.x + x.y * w64 k + d
  | .pcrel d => ipc + (if branch then d * 2 else d)
  | .abs a => a
  | .imm _ => 0

/-- The index registers after a mode that writes one (R62); S moves its window in moveS, which the unit applies. -/
def Ctx.step (x : Ctx) (moveS : Ctx → Word → Ctx) (n : Nat) : Mode → Ctx
  | .post .x => { x with x := x.x + w64 n }
  | .pre .x => { x with x := x.x - w64 n }
  | .post .y => { x with y := x.y + w64 n }
  | .pre .y => { x with y := x.y - w64 n }
  | .post .s => moveS x (x.s + w64 n)
  | .pre .s => moveS x (x.s - w64 n)
  | _ => x

/-! ## Classes of operations -/

def isExt : QOp → Bool
  | .dadExt | .dsbExt | .dmulExt | .drndExt | .dcmpExt | .dvalExt => true
  | _ => false

def isNarrow : QOp → Bool
  | .dad | .dsb | .dmul | .drnd | .dcmp | .dval => true
  | _ => false

def isFloat : QOp → Bool
  | .fcmp | .fadd | .fsub | .fmul | .fdiv | .fsqrt | .fma | .fmin | .fmax => true
  | _ => false

/-- A compare layout (R90). -/
def isCmp : QOp → Bool
  | .cmp | .cmpu | .fcmp => true
  | _ => false

def isDrnd : QOp → Bool
  | .drnd | .drndExt => true
  | _ => false

/-- Bytes of the memory operand (R98, R103, R122). -/
def operandBytes (op : QOp) (f : Form) : Nat := if isExt op then 16 else 2 ^ sizeOf f

/-- Functions whose Size column shows "—" (R99). -/
def sizeless (op : QOp) : Bool :=
  match op with
  | .not | .neg | .fcvt | .fcvti | .icvtf => false
  | _ => (funcOf op).isSome

/-- The mode is an immediate. -/
def isImm (f : Form) : Bool :=
  match modeOf f with
  | .imm _ => true
  | _ => false

/-- The mode's AM lies in 9 to 15 (or its short equivalent) and so leaves OPERAND no layout. -/
def noLayout : Form → Bool
  | .long _ _ am _ => decide (9 ≤ am.toNat)
  | .short _ sam _ => decide (6 ≤ sam.toNat)
  | .grp _ => false

/-- The mode writes a given index register (R62). -/
def stepsReg (b : Base) (f : Form) : Bool := decide (modeOf f = .post b) || decide (modeOf f = .pre b)

/-- The mode writes its index register. -/
def steps (f : Form) : Bool := stepsReg .x f || stepsReg .y f || stepsReg .s f

/-- Instructions that write X whatever their mode (R100). -/
def opWritesX : QOp → Bool
  | .ldx | .leax | .mvax | .xchgX | .cinvr | .bcvd | .dadExt | .dsbExt | .dmulExt | .drndExt => true
  | _ => false

/-- An instruction writes X (R100). -/
def writesX (op : QOp) (f : Form) : Bool := opWritesX op || ((longOp op).isSome && stepsReg .x f)

/-! ## Traps of an encoding -/

/-- A size that R97 or R99 excludes. -/
def badSize (op : QOp) (f : Form) : Bool :=
  if isFloat op || decide (op = .fcvt) || decide (op = .fcvti) || decide (op = .icvtf) then decide (sizeOf f < 2)
  else isExt op && decide (sizeOf f ≠ 3)

/-- A mode that R97 excludes. -/
def badMode (op : QOp) (f : Form) : Bool :=
  if op = .st ∨ op = .stx ∨ op = .sty ∨ op = .xchg then isImm f
  else if op = .leax ∨ op = .leay ∨ op = .br ∨ op = .call ∨ op = .cflush then isImm f
  else if op = .cinvr then stepsReg .x f || noLayout f
  else if isCmp op || decide (op = .drnd) then noLayout f
  else if op = .drndExt then noLayout f || steps f
  else if isExt op then isImm f || steps f
  else isNarrow op && isImm f

/-- An instruction that writes an index register and names it with a mode that writes it too (R65). -/
def badStep (op : QOp) (f : Form) : Bool :=
  (decide (op = .ldx ∨ op = .leax) && stepsReg .x f) || (decide (op = .ldy ∨ op = .leay) && stepsReg .y f)

/-- ILLEGAL of a defined operation (R65, R97, R102). -/
def illegal (op : QOp) (f : Form) : Bool := badSize op f || ((longOp op).isSome && (badMode op f || badStep op f))

/-- A non-zero reserved field, or a reserved value, of a long form (R65, R89 to R92, R99, R102). -/
def badLong (op : QOp) (size : BitVec 2) (am : BitVec 4) (o : BitVec 15) : Bool :=
  if (longOp op).isNone then
    decide (am ≠ 0) || (if op = .trap then decide (0xE0 ≤ fld o 7 0) else decide (fld o 7 0 ≠ 0)) ||
      (sizeless op && decide (size ≠ 0))
  else if am = 12 then decide (5 ≤ fld o 14 12)
  else if 9 ≤ am.toNat then false
  else if isCmp op then (decide (op ≠ .fcmp) && decide (6 ≤ fld o 11 9)) || decide (fld o 8 0 ≠ 0)
  else if isDrnd op then decide (5 ≤ fld o 14 12) || decide (fld o 4 0 = 31) || decide (fld o 11 5 ≠ 0)
  else if op = .cinvr then
    decide (4 ≤ fld o 14 12) || decide (fld o 9 0 ≠ 0) || (bitOf o 11 && decide (am ≠ 0))
  else decide (o ≠ 0)

/-- A non-zero reserved field, or a reserved value, of a short form (R90, R93, R94, R99, R102). -/
def badShort (op : QOp) (size : BitVec 2) (sam : BitVec 3) (o : BitVec 6) : Bool :=
  if (shortOp op).isNone then decide (sam ≠ 0) || (sizeless op && decide (size ≠ 0))
  else if 6 ≤ sam.toNat then false
  else if isCmp op then decide (6 ≤ fld o 2 0)
  else decide (o ≠ 0)

/-- RESFIELD of an instruction's own halfwords. -/
def badFields (op : QOp) : Form → Bool
  | .long _ size am o => badLong op size am o
  | .short size sam o => badShort op size sam o
  | .grp low => decide (low ≠ 0)

/-- RESFIELD of a prefix halfword (R101). -/
def badPre : Pre → Bool
  | .none => false
  | .pfx l => decide (8 ≤ l.toNat)
  | .rep l => decide (l ≠ 0)
  | .lock l => decide (l ≠ 0)

/-- The operations that LOCK governs (R68). -/
def lockable : QOp → Bool
  | .add | .sub | .and | .or | .xor | .xchg | .cmpu => true
  | _ => false

/-- The operations that REP does not govern (R68). -/
def noRep : QOp → Bool
  | .br | .call | .ret | .reti | .trap | .wait | .ctOn | .ctOff => true
  | _ => false

/-- PREFIX (R68, R102). -/
def badPrefix (pre : Pre) (op : QOp) (f : Form) : Bool :=
  match pre with
  | .none => false
  | .pfx _ =>
    (match f with
     | .short _ _ _ => false
     | _ => true)
  | .rep _ => noRep op || writesX op f
  | .lock _ => !lockable op || isImm f

/-- The trap that the encoding of a unit raises, if any, in the order of R73. -/
def encTrap (pre : Pre) (op : QOp) (f : Form) : Option Nat :=
  if illegal op f then some 2
  else if badPre pre || badFields op f then some 3
  else if badPrefix pre op f then some 4
  else none

/-- PRIV of R54: the instructions that user mode may not run. -/
def privileged : QOp → Bool
  | .reti | .wait | .cinvr => true
  | _ => false

/-! ## Decoding halfwords -/

/-- What the halfwords of one unit are (R84, R101, R102): a unit of a defined operation, or the trap they raise. -/
inductive Decoded where
  | unit (pre : Pre) (op : QOp) (f : Form)
  | bad (vec : Nat) (words : List HWord)
  deriving DecidableEq, Repr

/-- The operation of a long form's opcode and FUNC (R95, R99). -/
def longInst (h0 h1 : HWord) : Option QOp :=
  if fld h0 13 8 = 0x3F then allOps.find? fun op => decide (funcOf op = some (fld h1 14 8))
  else allOps.find? fun op => decide (longOp op = some (fld h0 13 8))

/-- The operation of a short form's opcode and FUNC (R96, R99). -/
def shortInst (h : HWord) : Option QOp :=
  if fld h 15 11 = 22 then
    allOps.find? fun op => decide (funcOf op = some (fld h 5 0)) && decide (op ≠ .trap)
  else allOps.find? fun op => decide (shortOp op = some (fld h 15 11))

/-- The fields of a long form (R88). -/
def longForm (h0 h1 : HWord) : Form :=
  .long (h0.extractLsb' 5 3) (h0.extractLsb' 3 2) (BitVec.ofNat 4 (fld h0 2 0 * 2 + fld h1 15 15)) (h1.extractLsb' 0 15)

/-- The fields of a short form (R93). -/
def shortForm (h : HWord) : Form := .short (h.extractLsb' 9 2) (h.extractLsb' 6 3) (h.extractLsb' 0 6)

/-- A halfword belongs to the prefix group (R96). -/
def inGroup (h : HWord) : Bool := decide (fld h 15 11 = 23)

/-- The instruction at a halfword that is no prefix (R84). -/
def decodeInst (pre : Pre) (h0 h1 : HWord) : Decoded :=
  if fld h0 15 14 = 3 then
    match longInst h0 h1 with
    | some op => .unit pre op (longForm h0 h1)
    | none => .bad 2 (preWords pre ++ [h0, h1])
  else
    match shortInst h0 with
    | some op => .unit pre op (shortForm h0)
    | none => .bad 2 (preWords pre ++ [h0])

/-- A prefix-group halfword after a prefix (R68, R101, R73). -/
def decodeTwice (pre : Pre) (h : HWord) : Decoded :=
  let w := preWords pre ++ [h]
  if 5 ≤ fld h 10 8 then .bad 2 w
  else if badPre pre || (if fld h 10 8 = 0 then decide (fld h 7 3 ≠ 0) else decide (fld h 7 0 ≠ 0)) then .bad 3 w
  else .bad 4 w

/-- The prefix that a halfword of the prefix group holds (R101). -/
def preOf (h : HWord) : Option Pre :=
  let l := h.extractLsb' 0 8
  if fld h 10 8 = 0 then some (.pfx l) else if fld h 10 8 = 1 then some (.rep l) else if fld h 10 8 = 2 then some (.lock l)
  else none

/-- The unit that three halfwords begin with (R84, R101). -/
def decodeUnit (h0 h1 h2 : HWord) : Decoded :=
  if !inGroup h0 then decodeInst .none h0 h1
  else
    match preOf h0 with
    | some pre => if inGroup h1 then decodeTwice pre h1 else decodeInst pre h1 h2
    | none =>
      if fld h0 10 8 = 3 then .unit .none .ctOn (.grp (h0.extractLsb' 0 8))
      else if fld h0 10 8 = 4 then .unit .none .ctOff (.grp (h0.extractLsb' 0 8))
      else .bad 2 [h0]

end Sys2Proof.Machine
end

