-- ==== Sys2Proof/Machine/Flags.lean ====
section
/-! DEFINITION. N, Z, C, V and the predicates of PS (R51), FPSR (R52), and every flag computation of the QAA chapters. -/
namespace Sys2Proof.Machine

/-- N, Z, C and V. -/
structure Flags where
  n : Bool
  z : Bool
  c : Bool
  v : Bool
  deriving DecidableEq, Repr

/-- PS with N, Z, C and V replaced (R51). -/
def psFlags (ps : Word) (g : Flags) : Word := setFld ps 3 0 (b2n g.n * 8 + b2n g.z * 4 + b2n g.c * 2 + b2n g.v)

/-- A context with its flags replaced. -/
def Ctx.setFlags (x : Ctx) (g : Flags) : Ctx := { x with ps := psFlags x.ps g }

/-- The flags of a context. -/
def Ctx.flags (x : Ctx) : Flags := { n := bitOf x.ps 3, z := bitOf x.ps 2, c := bitOf x.ps 1, v := bitOf x.ps 0 }

/-- The value of predicate k: P0 reads 1 (R51). -/
def Ctx.pred (x : Ctx) (k : Nat) : Bool := decide (k = 0) || bitOf x.ps (3 + k)

/-- A compare writes its condition to PT; PT = 0 writes no predicate (R90). -/
def Ctx.setPred (x : Ctx) (pt : Nat) (b : Bool) : Ctx := if pt = 0 then x else { x with ps := setBit x.ps (3 + pt) b }

/-- PS.CT (R71). -/
def Ctx.setCt (x : Ctx) (b : Bool) : Ctx := { x with ps := setBit x.ps 15 b }

/-- PS.IE (R51). -/
def Ctx.ie (x : Ctx) : Bool := bitOf x.ps 14

/-- N and Z of a W-bit result (R105). -/
def nz (w r : Nat) (c v : Bool) : Flags := { n := r.testBit (w - 1), z := decide (r = 0), c := c, v := v }

/-- A signed value fits in W bits. -/
def fits (w : Nat) (i : Int) : Bool := decide (-(2 ^ (w - 1) : Int) ≤ i) && decide (i < 2 ^ (w - 1))

/-- The result and flags of A + m + carry at width W (R105). -/
def addFlags (w a m k : Nat) : Nat × Flags :=
  let r := (a + m + k) % 2 ^ w
  (r, nz w r (decide (2 ^ w ≤ a + m + k)) (!fits w (signedOf w a + signedOf w m + k)))

/-- The result and flags of A - m - borrow at width W (R105). -/
def subFlags (w a m k : Nat) : Nat × Flags :=
  let r := (a + 2 * 2 ^ w - m - k) % 2 ^ w
  (r, nz w r (decide (a < m + k)) (!fits w (signedOf w a - signedOf w m - k)))

/-- COND of CMP and CMPU over two integers (R90). -/
def condInt (cond : Nat) (a m : Int) : Bool :=
  if cond = 0 then decide (a = m)
  else if cond = 1 then decide (a ≠ m)
  else if cond = 2 then decide (a < m)
  else if cond = 3 then decide (m ≤ a)
  else if cond = 4 then decide (a ≤ m)
  else decide (m < a)

/-- How two floating-point values compare (R126). -/
inductive Cmp where
  | lt | eq | gt | un
  deriving DecidableEq, Repr

/-- The flags of FCMP: exactly one of the four is 1 (R126). -/
def cmpFlags (k : Cmp) : Flags :=
  { n := decide (k = .lt), z := decide (k = .eq), c := decide (k = .gt), v := decide (k = .un) }

/-- COND of FCMP (R90). -/
def condFloat (cond : Nat) (k : Cmp) : Bool :=
  if cond = 0 then decide (k = .eq)
  else if cond = 1 then decide (k ≠ .eq)
  else if cond = 2 then decide (k = .lt)
  else if cond = 3 then decide (k = .gt ∨ k = .eq)
  else if cond = 4 then decide (k = .lt ∨ k = .eq)
  else if cond = 5 then decide (k = .gt)
  else if cond = 6 then decide (k = .un)
  else decide (k ≠ .un)

/-- Floating-point exceptions of one instruction (R52). -/
structure Exc where
  iv : Bool
  dz : Bool
  of : Bool
  uf : Bool
  nx : Bool
  deriving DecidableEq, Repr

/-- No exception. -/
def Exc.none : Exc := { iv := false, dz := false, of := false, uf := false, nx := false }

/-- Exceptions are sticky in FPSR (R52, R135). -/
def Ctx.raiseExc (x : Ctx) (e : Exc) : Ctx :=
  { x with fpsr := x.fpsr ||| w64 (b2n e.iv + b2n e.dz * 2 + b2n e.of * 4 + b2n e.uf * 8 + b2n e.nx * 16) }

/-- FPSR.DOV is sticky (R112). -/
def Ctx.raiseDov (x : Ctx) (b : Bool) : Ctx := if b then { x with fpsr := setBit x.fpsr 5 true } else x

/-- FPSR.RM (R52). -/
def Ctx.rm (x : Ctx) : Nat := fld x.fpsr 10 8

end Sys2Proof.Machine
end

