-- ==== Sys2Proof/Machine/Alu.lean ====
section
/-! DEFINITION. What an instruction does with values: its arguments, its effect, and the integer results of R103 to
R106. -/
namespace Sys2Proof.Machine

/-- What an effect works with: bytes of the operand, its value (an immediate sign-extended), the effective address, and
the layout bits of R90 and R91. -/
structure Args where
  n : Nat
  m : Nat
  ea : Word
  lay : Nat
  deriving DecidableEq, Repr

/-- The effect of an instruction on its context, with the value it stores to its memory operand; or the vector it traps
at (R72: 8 DIVZERO, 9 DDATA). -/
abbrev Eff := Args → Ctx → Except Nat (Ctx × Option Nat)

/-- How an instruction uses its memory operand. -/
inductive Use where
  | none | addr | read | write | rmw
  deriving DecidableEq, Repr

/-- Bits of the operand. -/
def Args.w (g : Args) : Nat := 8 * g.n

/-- The low W bits of a register. -/
def low (w : Nat) (v : Word) : Nat := v.toNat % 2 ^ w

/-- An integer result: A zero-extended, and the flags (R103). -/
def Ctx.result (x : Ctx) (r : Nat) (f : Flags) : Ctx := { x with a := w64 r }.setFlags f

/-- An effect on registers alone. -/
def pureEff (f : Args → Ctx → Ctx) : Eff := fun g x => .ok (f g x, none)

/-- An integer operation with a result in A (R105). -/
def alu (f : Nat → Nat → Nat → Bool → Nat × Flags) : Eff := pureEff fun g x =>
  let r := f g.w (low g.w x.a) (g.m % 2 ^ g.w) (bitOf x.ps 1)
  x.result r.1 r.2

def addR (w a m : Nat) (_ : Bool) : Nat × Flags := addFlags w a m 0
def adcR (w a m : Nat) (c : Bool) : Nat × Flags := addFlags w a m (b2n c)
def subR (w a m : Nat) (_ : Bool) : Nat × Flags := subFlags w a m 0
def sbbR (w a m : Nat) (c : Bool) : Nat × Flags := subFlags w a m (b2n c)
def andR (w a m : Nat) (_ : Bool) : Nat × Flags := (a &&& m, nz w (a &&& m) false false)
def orR (w a m : Nat) (_ : Bool) : Nat × Flags := (a ||| m, nz w (a ||| m) false false)
def xorR (w a m : Nat) (_ : Bool) : Nat × Flags := (a ^^^ m, nz w (a ^^^ m) false false)

/-- SHL: k is m modulo W; C is the last bit shifted out (R105). -/
def shlR (w a m : Nat) (_ : Bool) : Nat × Flags :=
  let k := m % w
  let r := a * 2 ^ k % 2 ^ w
  (r, nz w r (decide (k ≠ 0) && a.testBit (w - k)) false)

/-- SHR (R105). -/
def shrR (w a m : Nat) (_ : Bool) : Nat × Flags :=
  let k := m % w
  let r := a / 2 ^ k
  (r, nz w r (decide (k ≠ 0) && a.testBit (k - 1)) false)

/-- SAR (R105). -/
def sarR (w a m : Nat) (_ : Bool) : Nat × Flags :=
  let k := m % w
  let r := lowBits w (signedOf w a / (2 ^ k : Nat))
  (r, nz w r (decide (k ≠ 0) && a.testBit (k - 1)) false)

/-- ROL: C is bit 0 of the result when k > 0 (R105). -/
def rolR (w a m : Nat) (_ : Bool) : Nat × Flags :=
  let k := m % w
  let r := (a * 2 ^ k + a / 2 ^ (w - k)) % 2 ^ w
  (r, nz w r (decide (k ≠ 0) && r.testBit 0) false)

/-- ROR: C is bit W-1 of the result when k > 0 (R105). -/
def rorR (w a m : Nat) (_ : Bool) : Nat × Flags :=
  let k := m % w
  let r := (a / 2 ^ k + a * 2 ^ (w - k)) % 2 ^ w
  (r, nz w r (decide (k ≠ 0) && r.testBit (w - 1)) false)

/-- MUL: C and V say that the signed product does not fit (R105). -/
def mulR (w a m : Nat) (_ : Bool) : Nat × Flags :=
  let p := signedOf w a * signedOf w m
  let r := lowBits w p
  (r, nz w r (!fits w p) (!fits w p))

/-- MULH: the high half of the signed product (R105). -/
def mulhR (w a m : Nat) (_ : Bool) : Nat × Flags :=
  let r := lowBits w (signedOf w a * signedOf w m / (2 ^ w : Nat))
  (r, nz w r false false)

/-- MULHU: the high half of the unsigned product (R105). -/
def mulhuR (w a m : Nat) (_ : Bool) : Nat × Flags :=
  let r := a * m / 2 ^ w
  (r, nz w r false false)

/-- A division: DIVZERO at vector 08h when the divisor is 0 (R106). -/
def divide (f : Nat → Nat → Nat → Nat × Bool) : Eff := fun g x =>
  let m := g.m % 2 ^ g.w
  if m = 0 then .error 8
  else
    let r := f g.w (low g.w x.a) m
    .ok (x.result r.1 (nz g.w r.1 false r.2), none)

/-- DIV: truncated toward zero; the most negative value by -1 returns the dividend with V = 1 (R106). -/
def divR (w a m : Nat) : Nat × Bool :=
  let q := (signedOf w a).tdiv (signedOf w m)
  (lowBits w q, !fits w q)

/-- REM: the sign of the dividend (R106). -/
def remR (w a m : Nat) : Nat × Bool :=
  (lowBits w ((signedOf w a).tmod (signedOf w m)), !fits w ((signedOf w a).tdiv (signedOf w m)))

def divuR (_ a m : Nat) : Nat × Bool := (a / m, false)
def remuR (_ a m : Nat) : Nat × Bool := (a % m, false)

/-- PT and COND of the compare layout (R90). -/
def Args.pt (g : Args) : Nat := g.lay / 2 ^ 12 % 8
def Args.cond (g : Args) : Nat := g.lay / 2 ^ 9 % 8

/-- CMP and CMPU: the flags of SUB, and COND to PT over the extended operands (R90, R105). -/
def compare (ext : Nat → Nat → Int) : Eff := pureEff fun g x =>
  let a := low g.w x.a
  let m := g.m % 2 ^ g.w
  (x.setFlags (subFlags g.w a m 0).2).setPred g.pt (condInt g.cond (ext g.w a) (ext g.w m))

/-- CMPU extends with zeros (R105). -/
def zeroExt (_ a : Nat) : Int := a

/-- TST: flags of A AND m, not written (R105). -/
def tstEff : Eff := pureEff fun g x => x.setFlags (andR g.w (low g.w x.a) (g.m % 2 ^ g.w) false).2

/-- NOT and NEG act on A at the width of SIZE (R105). -/
def notEff : Eff := pureEff fun g x =>
  let r := 2 ^ g.w - 1 - low g.w x.a
  x.result r (nz g.w r false false)

def negEff : Eff := pureEff fun g x =>
  let a := low g.w x.a
  let r := (2 ^ g.w - a) % 2 ^ g.w
  x.result r (nz g.w r (decide (a ≠ 0)) (decide (a = 2 ^ (g.w - 1))))

/-- Loads: W bits zero-extended, no flag (R103, R104). -/
def ldEff : Eff := pureEff fun g x => { x with a := w64 (g.m % 2 ^ g.w) }
def ldxEff : Eff := pureEff fun g x => { x with x := w64 (g.m % 2 ^ g.w) }
def ldyEff : Eff := pureEff fun g x => { x with y := w64 (g.m % 2 ^ g.w) }

/-- Stores: the low W bits (R103, R104). -/
def stEff : Eff := fun g x => .ok (x, some (low g.w x.a))
def stxEff : Eff := fun g x => .ok (x, some (low g.w x.x))
def styEff : Eff := fun g x => .ok (x, some (low g.w x.y))

/-- LEAX and LEAY: the whole effective address (R103). -/
def leaxEff : Eff := pureEff fun g x => { x with x := g.ea }
def leayEff : Eff := pureEff fun g x => { x with y := g.ea }

/-- XCHG with a memory operand (R104). -/
def xchgEff : Eff := fun g x => .ok ({ x with a := w64 (g.m % 2 ^ g.w) }, some (low g.w x.a))

/-- Register moves and exchanges on all 64 bits (R103). -/
def mvaxEff : Eff := pureEff fun _ x => { x with x := x.a }
def mvxaEff : Eff := pureEff fun _ x => { x with a := x.x }
def mvayEff : Eff := pureEff fun _ x => { x with y := x.a }
def mvyaEff : Eff := pureEff fun _ x => { x with a := x.y }
def xchgXEff : Eff := pureEff fun _ x => { x with a := x.x, x := x.a }
def xchgYEff : Eff := pureEff fun _ x => { x with a := x.y, y := x.a }

/-- LOCK (R70): the result goes to memory and the old value to A, with the flags of the same instruction without LOCK.
XCHG does this by itself. -/
def lockEff (op : QOp) (e : Eff) : Eff := fun g x =>
  let m := g.m % 2 ^ g.w
  match e g x with
  | .error v => .error v
  | .ok (y, put) =>
    if op = .xchg then .ok (y, put)
    else if op = .cmpu then
      (if low g.w x.a = m then .ok (y, some (low g.w x.x)) else .ok ({ y with a := w64 m }, none))
    else .ok ({ y with a := w64 m }, some (low g.w y.a))

end Sys2Proof.Machine
end

