-- ==== Sys2Proof/Machine/Decimal.lean ====
section
/-! DEFINITION. Packed decimal (R107 to R117). -/
namespace Sys2Proof.Machine

/-- Nibble k of a packed value; nibble 0 is the sign (R107). -/
def nibble (v k : Nat) : Nat := v / 16 ^ k % 16

/-- The digit nibbles 1 to n are 0 to 9 (R110). -/
def digitsOk (v n : Nat) : Bool := (List.range n).all fun k => decide (nibble v (k + 1) ≤ 9)

/-- The sign nibble is Ah to Fh (R110). -/
def signOk (v : Nat) : Bool := decide (10 ≤ nibble v 0)

/-- A valid packed value of n digits (R110). -/
def decOk (v n : Nat) : Bool := digitsOk v n && signOk v

/-- The magnitude of n digits (R107). -/
def decMag (v : Nat) : Nat → Nat
  | 0 => 0
  | n + 1 => decMag v n + nibble v (n + 1) * 10 ^ n

/-- The sign nibble reads negative: Bh or Dh (R110). -/
def decNeg (v : Nat) : Bool := decide (nibble v 0 = 11) || decide (nibble v 0 = 13)

/-- The value of n digits (R110). -/
def decVal (v n : Nat) : Int := if decNeg v then -(decMag v n : Int) else decMag v n

/-- Nibbles 1 to n of a magnitude. -/
def packDigits (mag : Nat) : Nat → Nat
  | 0 => 0
  | n + 1 => packDigits mag n + mag / 10 ^ n % 10 * 16 ^ (n + 1)

/-- A packed value of n digits: the low n digits with the sign of the exact value, Ch when they are all zero (R111,
R112). -/
def packDec (i : Int) (n : Nat) : Nat :=
  let mag := i.natAbs % 10 ^ n
  packDigits mag n + (if i < 0 ∧ mag ≠ 0 then 13 else 12)

/-- An exact result needs more than n digits (R112). -/
def decOver (i : Int) (n : Nat) : Bool := decide (10 ^ n ≤ i.natAbs)

/-- The flags of R113. -/
def decFlags (i : Int) (n : Nat) : Flags :=
  let mag := i.natAbs % 10 ^ n
  { n := decide (i < 0) && decide (mag ≠ 0), z := decide (mag = 0), c := false, v := decOver i n }

/-- Digits of a form: 31 extended, else 2 × SIZE - 1 (R107, R108). -/
def decN (ext : Bool) (n : Nat) : Nat := if ext then 31 else 2 * n - 1

/-- The accumulator: X:A extended, else the low bytes of A (R107, R108). -/
def Ctx.acc (x : Ctx) (ext : Bool) (n : Nat) : Nat :=
  if ext then x.x.toNat * 2 ^ 64 + x.a.toNat else low (8 * n) x.a

/-- A packed value written to the accumulator (R107, R108). -/
def Ctx.setAcc (x : Ctx) (ext : Bool) (v : Nat) : Ctx :=
  if ext then { x with a := w64 v, x := w64 (v / 2 ^ 64) } else { x with a := w64 v }

/-- A decimal result in the accumulator, its flags and DOV (R112, R113). -/
def Ctx.decResult (x : Ctx) (ext : Bool) (digits : Nat) (i : Int) : Ctx :=
  ((x.setAcc ext (packDec i digits)).setFlags (decFlags i digits)).raiseDov (decOver i digits)

/-- DAD, DSB and DMUL: both operands checked, then the exact result (R110, R114). -/
def decArith (ext : Bool) (f : Int → Int → Int) : Eff := fun g x =>
  let k := decN ext g.n
  let a := x.acc ext g.n
  let m := g.m % 2 ^ g.w
  if decOk a k && decOk m k then .ok (x.decResult ext k (f (decVal a k) (decVal m k)), none) else .error 9

/-- DCMP (R114). -/
def dcmpEff (ext : Bool) : Eff := fun g x =>
  let k := decN ext g.n
  let a := x.acc ext g.n
  let m := g.m % 2 ^ g.w
  if decOk a k && decOk m k then
    let i := decVal a k
    let j := decVal m k
    .ok (x.setFlags { n := decide (i < j), z := decide (i = j), c := decide (j < i), v := false }, none)
  else .error 9

/-- DVAL: checks m, reads no accumulator, never traps (R114). -/
def dvalEff (ext : Bool) : Eff := pureEff fun g x =>
  let k := decN ext g.n
  let m := g.m % 2 ^ g.w
  let ok := decOk m k
  x.setFlags { n := ok && decNeg m && decide (decMag m k ≠ 0), z := ok, c := !digitsOk m k, v := !signOk m }

/-- The multiple of u that DRND chooses for v, d below the digit count (R115). -/
def roundTo (mode : Nat) (v : Int) (u : Nat) : Int :=
  let q := v.natAbs / u
  let r := v.natAbs % u
  let up :=
    if mode = 0 then decide (u < 2 * r) || (decide (2 * r = u) && decide (q % 2 = 1))
    else if mode = 1 then false
    else if mode = 2 then decide (r ≠ 0) && decide (0 < v)
    else if mode = 3 then decide (r ≠ 0) && decide (v < 0)
    else decide (u ≤ 2 * r)
  let mag : Int := ((if up then q + 1 else q) * u : Nat)
  if v < 0 then -mag else mag

/-- DRND: the rounded amount and the breakage (R115, R116). -/
def drndEff (ext : Bool) : Eff := fun g x =>
  let k := decN ext g.n
  let a := x.acc ext g.n
  if decOk a k then
    let v := decVal a k
    let d := g.lay % 32
    let r := if d = 0 then v else if k ≤ d then 0 else roundTo (g.lay / 2 ^ 12 % 8) v (10 ^ d)
    .ok (x.decResult ext k r, some (packDec (v - r) k))
  else .error 9

/-- DCVB: 15 digits, always fits (R117). -/
def dcvbEff : Eff := fun _ x =>
  if decOk x.a.toNat 15 then
    let r := lowBits 64 (decVal x.a.toNat 15)
    .ok (x.result r (nz 64 r false false), none)
  else .error 9

/-- The extended DCVB: modulo 2^64, V when the value does not fit (R117). -/
def dcvbExtEff : Eff := fun _ x =>
  let v := x.acc true 16
  if decOk v 31 then
    let r := lowBits 64 (decVal v 31)
    .ok (x.result r (nz 64 r false (!fits 64 (decVal v 31))), none)
  else .error 9

/-- BCVD (R117): never overflows, so DOV stays. -/
def bcvdEff : Eff := pureEff fun _ x => x.decResult true 31 (signedOf 64 x.a.toNat)

end Sys2Proof.Machine
end

