-- ==== Sys2Proof/Machine/Access.lean ====
section
/-! DEFINITION. The accesses of a context: translation (R58 to R61), the address map (R22, R55, R271, R407), memory,
control space, the context register window, poison (R402) and the operand file (R142 to R145). -/
namespace Sys2Proof.Machine

/-- A trap to be taken (R72, R77): vector, DETAIL, FETCH, WRITE, SW, and the word at frame offset 24. -/
structure Trap where
  vec : Nat
  detail : Nat
  fetch : Bool
  write : Bool
  sw : Bool
  aux : Nat
  deriving DecidableEq, Repr

/-- Why a unit does not retire: a trap; a wait, with nothing changed; an end with the state given (a machine check, a
reset or a halt comes instead, or a read of DUPX_SYNC has asked the partner for its count). -/
inductive Stop where
  | trap (t : Trap)
  | wait
  | ended (s : State)
  deriving Repr

/-- What an access of a context may do (R60, R66, R70); entry: it is the frame write of an entry (R238); spec: it lies on a
mispredicted path (R155). -/
structure Acc where
  write : Bool
  fetch : Bool
  lock  : Bool
  entry : Bool
  spec  : Bool
  deriving DecidableEq, Repr

def Acc.read : Acc := { write := false, fetch := false, lock := false, entry := false, spec := false }
def Acc.store : Acc := { Acc.read with write := true }
def Acc.code : Acc := { Acc.read with fetch := true }
def Acc.frame : Acc := { Acc.store with entry := true }

/-- ACCESS (R60, R77). -/
def accessTrap (k : Acc) (detail va : Nat) : Stop :=
  .trap { vec := 7, detail := detail, fetch := k.fetch, write := k.write, sw := false, aux := va }

/-! ## The physical address map -/

/-- What lies at a physical address (R22, R55, R271, R407). -/
inductive Region where
  | memory
  | control (off : Nat)
  | window (off : Nat)
  | ecam
  | nothing
  deriving DecidableEq, Repr

/-- The region of the bytes a .. a + n - 1, which lie in one page. -/
def regionOf (s : State) (a n : Nat) : Region :=
  if a + n ≤ s.usable then .memory
  else if 0xFF00000000000 ≤ a ∧ a < 0xFF10000000000 then .control (a - 0xFF00000000000)
  else if 0xFF10000000000 ≤ a ∧ a < 0xFF20000000000 then .window (a - 0xFF10000000000)
  else if 0xFF20000000000 ≤ a ∧ a < 0xFF20020000000 then .ecam
  else .nothing

/-! ## Poison and waiting lines -/

/-- COPY_LANE of a card of a context: its copy on a split pair (R207). -/
def copyOf (s : State) (c : Nat) : Nat := if (s.pair (pairOf s c)).st = .split then slotOf s c else 0

/-- A retiring access reads a poisoned line (R402, R176, R238): the context-bound card; with MCT, and where the reaction
resets the context or the module first, the access does not retire. -/
def poisonLineRead (s : State) (c ln : Nat) : Except Stop State :=
  let p := pairOf s c
  let t := takeAll (boundCard s p c (s.owner c) (copyOf s c) ln)
  if actionOf (reactOf s (64 + p)) 3 = 2 || t.fcr.ordering.isSome || decide ((t.ctx c).run ≠ .run) then .error (.ended t)
  else .ok t

/-- The entry of a context meets a poisoned line (R402): the card is not context-bound. -/
def poisonEntry (s : State) (c ln : Nat) : State :=
  card s (64 + pairOf s c) 6 (s.owner c) (copyOf s c) (ln * 128)

/-- The lines of an access to n bytes at an address of memory, one after the other: a busy line waits (R163, R172), a
poisoned one is reported. -/
def meetLines (c : Nat) (cached : Bool) (a n : Nat) : List Nat → State → Except Stop State
  | [], s => .ok s
  | ln :: r, s =>
    if lineBusy s c cached a n ln then .error .wait
    else if ln ∈ s.caches.poison then
      match poisonLineRead s c ln with
      | .error e => .error e
      | .ok t => meetLines c cached a n r t
    else meetLines c cached a n r s

/-- The line of a page-table read (R402, R238): one that serves the frame write of an entry reports its poison by a card
that is not context-bound, and the entry fails (log entry 108). A read on a mispredicted path goes no further, and the
state that its end holds is not taken (R157). -/
def meetTable (c : Nat) (k : Acc) (a : Nat) (s : State) : Except Stop State :=
  if (k.entry || k.spec) && !lineBusy s c true a 8 (a / 128) && decide (a / 128 ∈ s.caches.poison) then
    .error (.ended (poisonEntry s c (a / 128)))
  else meetLines c true a 8 [a / 128] s

/-! ## Translation -/

/-- A translated page (R58, R59): physical address of the access and NC. -/
structure Phys where
  pa : Nat
  nc : Bool
  deriving DecidableEq, Repr

/-- The bits of an entry that must be 0 (R59). -/
def pteReserved : Word := 0xFFF0000000000F82#64

/-- FRAME of an entry (R59). -/
def frameOf (e : Word) : Nat := fld e 51 12 * 4096

/-- The checks of R60 on an entry at a level whose pages have 2^bits bytes. -/
def pteTrap (e : Word) (bits : Nat) : Option Nat :=
  if !bitOf e 0 then some 0x01
  else if e &&& pteReserved ≠ 0 then some 0x04
  else if (bitOf e 5 && decide (30 < bits)) || (!bitOf e 5 && decide (bits = 12)) then some 0x04
  else if bitOf e 5 && decide (frameOf e % 2 ^ bits ≠ 0) then some 0x05
  else none

/-- The permissions of a leaf (R60). -/
def leafTrap (k : Acc) (mode : Nat) (leaf : Word) : Option Nat :=
  if mode = 0 ∧ bitOf leaf 4 = false then some 0x03
  else if k.fetch && !bitOf leaf 3 then some 0x02
  else if k.write && !bitOf leaf 2 then some 0x09
  else none

/-- The walk from one table down (R58, R60): page sizes of the levels still to come, in bits. -/
def walk (c : Nat) (k : Acc) (va : Nat) : List Nat → Nat → State → Except Stop (State × Nat × Word)
  | [], _, _ => .error (accessTrap k 0x04 va)
  | bits :: r, base, s =>
    let a := base + va57 va / 2 ^ bits % 512 * 8
    if !s.inMemory a 8 then .error (accessTrap k 0x0B va)
    else
      match meetTable c k a s with
      | .error e => .error e
      | .ok s =>
        let s := touch s c false false a 8
        let e := Memory.word s.mem a
        match pteTrap e bits with
        | some d => .error (accessTrap k d va)
        | none => if bitOf e 5 then .ok (s, bits, e) else walk c k va r (frameOf e) s

/-- The leaf of a virtual address, from a translation the context keeps or from a walk (R61). A mispredicted path discards
no translation (R156). -/
def leafFor (c : Nat) (k : Acc) (va : Nat) (s : State) : Except Stop (State × Nat × Word) :=
  let x := s.ctx c
  let fresh (s : State) : Except Stop (State × Nat × Word) :=
    match walk c k va [48, 39, 30, 21, 12] (frameOf x.ttb) s with
    | .error e => .error e
    | .ok (t, bits, e) =>
      let y := t.ctx c
      let l := y.tlb.filter fun q => !q.covers (va57 va)
      .ok (t.setCtx c { y with tlb := { va := va57 va / 2 ^ bits * 2 ^ bits, bits := bits, leaf := e } :: l }, bits, e)
  match x.tlb.find? fun q => q.covers (va57 va) with
  | none => fresh s
  | some q => if k.spec || Config.tlbKept s.free then .ok (s.drawn, q.bits, q.leaf) else fresh s.drawn

/-- An address is canonical: bits [63:57] equal bit 56 (Address translation). -/
def canonical (va : Nat) : Bool := decide (va / 2 ^ 56 = 0) || decide (va / 2 ^ 56 = 255)

/-- Translate an address (R58, R60). -/
def translate (c : Nat) (k : Acc) (va : Nat) (s : State) : Except Stop (State × Phys) :=
  let x := s.ctx c
  if !bitOf x.ttb 0 then
    (if va < 2 ^ 52 then .ok (s, { pa := va, nc := false }) else .error (accessTrap k 0x06 va))
  else if !canonical va then .error (accessTrap k 0x06 va)
  else
    match leafFor c k va s with
    | .error e => .error e
    | .ok (t, bits, leaf) =>
      match leafTrap k x.mode leaf with
      | some d => .error (accessTrap k d va)
      | none => .ok (t, { pa := frameOf leaf + va % 2 ^ bits, nc := bitOf leaf 6 })

/-! ## Spans -/

/-- The bytes of an operand in one page: virtual and physical address, length, NC, region. -/
structure Span where
  va : Nat
  pa : Nat
  len : Nat
  nc : Bool
  region : Region
  deriving DecidableEq, Repr

/-- The parts of n bytes at an address, split at a page boundary (R66); addresses wrap (R62). -/
def pieces (va n : Nat) : List (Nat × Nat) :=
  let k := 4096 - va % 4096
  if n ≤ k then [(va, n)] else [(va, k), (wrap64 (va + k), n - k)]

/-- One part translated and placed (R73, rank 8). -/
def spanOf (c : Nat) (k : Acc) (q : Nat × Nat) (s : State) : Except Stop (State × Span) :=
  match translate c k q.1 s with
  | .error e => .error e
  | .ok (t, ph) =>
    match regionOf t ph.pa q.2 with
    | .nothing => .error (accessTrap k 0x0B q.1)
    | g => .ok (t, { va := q.1, pa := ph.pa, len := q.2, nc := ph.nc, region := g })

/-- Every part (R66: both pages before any byte). -/
def spansOf (c : Nat) (k : Acc) : List (Nat × Nat) → State → Except Stop (State × List Span)
  | [], s => .ok (s, [])
  | q :: r, s =>
    match spanOf c k q s with
    | .error e => .error e
    | .ok (t, sp) =>
      match spansOf c k r t with
      | .error e => .error e
      | .ok (t, l) => .ok (t, sp :: l)

/-- The lowest mode of a window page (R56). -/
def pageMode (off : Nat) : Nat := [0, 1, 3].getD (off / 4096) 0

/-- PRIV of R55 (R73, rank 9). -/
def privTrap (mode : Nat) (k : Acc) (sp : Span) : Option Stop :=
  match sp.region with
  | .window off =>
    if off < 0x3000 ∧ mode < pageMode off then
      some (.trap { vec := 5, detail := 0x02, fetch := false, write := k.write, sw := false, aux := 0 })
    else none
  | _ => none

/-- ACCESS of R55 and R70 (R73, rank 10). A LOCK outside cacheable memory is not permitted. -/
def placeTrap (k : Acc) (sp : Span) : Option Stop :=
  match sp.region with
  | .window off =>
    if 0x3000 ≤ off then some (accessTrap k 0x07 sp.va) else if k.lock then some (accessTrap k 0x08 sp.va) else none
  | .memory => if k.lock && sp.nc then some (accessTrap k 0x08 sp.va) else none
  | _ => if k.lock then some (accessTrap k 0x08 sp.va) else none

/-- ACCESS of R55 on fetch: code lies in memory alone. -/
def fetchTrap (k : Acc) (sp : Span) : Option Stop :=
  match sp.region with
  | .memory => none
  | _ => some (accessTrap k 0x0A sp.va)

/-- Every part of a fetch: the first halfword that traps is the one reported (R86). -/
def codeSpans (c : Nat) (k : Acc) : List (Nat × Nat) → State → Except Stop (State × List Span)
  | [], s => .ok (s, [])
  | q :: r, s =>
    match spanOf c k q s with
    | .error e => .error e
    | .ok (t, sp) =>
      match fetchTrap k sp with
      | some e => .error e
      | none =>
        match codeSpans c k r t with
        | .error e => .error e
        | .ok (t, l) => .ok (t, sp :: l)

/-- Translate and check an operand of n bytes (R73, ranks 8 to 10). -/
def checkSpans (c : Nat) (k : Acc) (va n : Nat) (s : State) : Except Stop (State × List Span) :=
  if k.fetch then codeSpans c k (pieces va n) s
  else
    match spansOf c k (pieces va n) s with
    | .error e => .error e
    | .ok (t, l) =>
      match l.findSome? (privTrap (s.ctx c).mode k) with
      | some e => .error e
      | none =>
        match l.findSome? (placeTrap k) with
        | some e => .error e
        | none => .ok (t, l)

/-- The checks of an operand that is read and then written (R73): ranks 8 and 9 of the read and of the write come before
rank 10. -/
def checkRmw (c : Nat) (lock : Bool) (va n : Nat) (s : State) : Except Stop (State × List Span) :=
  match spansOf c .read (pieces va n) s with
  | .error e => .error e
  | .ok (t, _) =>
    match spansOf c .store (pieces va n) t with
    | .error e => .error e
    | .ok (t, l) =>
      match l.findSome? (privTrap (s.ctx c).mode .read) with
      | some e => .error e
      | none =>
        match l.findSome? (placeTrap { Acc.read with lock := lock }) with
        | some e => .error e
        | none => .ok (t, l)

/-! ## Uncached memory -/

/-- Some cache holds a line. -/
def heldAnywhere (s : State) (ln : Nat) : Bool := s.caches.l2.any (fun l => decide (l.line = ln)) || (l3Find s ln).isSome

/-- Bytes that an uncached read returns: memory may lag behind a dirty line, so they are free then (R160, log 14). -/
def uncachedBytes (s : State) (a n : Nat) : State × List Byte :=
  if (linesOf a n).any (dirtyAnywhere s) then (s.drawn, freeBytes s.free n) else (s, Memory.bytes s.mem a n)

/-- An uncached write (R160, log 14): where a cache holds a line, what a later access finds there is free. -/
def uncachedStore (s : State) (a : Nat) (l : List Byte) : State :=
  let t := s.store a l
  let lines := linesOf a l.length
  if lines.any (dirtyAnywhere s) then
    (lines.filter (dirtyAnywhere s)).foldl
      (fun t ln => { t.drawn with mem := Memory.writes t.mem (ln * 128) (freeBytes t.free 128) }) t
  else if lines.any (heldAnywhere s) then { t.drawn with mem := Memory.writes t.mem a (freeBytes t.free l.length) }
  else t

/-! ## The operand file -/

/-- The slots of 8 bytes that n bytes at an address touch, with the physical address of each. -/
def slotsOf (sp : Span) : List (Nat × Nat) :=
  (List.range ((sp.va % 8 + sp.len + 7) / 8)).map fun i => (sp.va / 8 * 8 + 8 * i, sp.pa / 8 * 8 + 8 * i)

/-- The operand file may serve an access (R142): a stack mode, every byte in the window, no LOCK, cacheable memory. -/
def fileServes (x : Ctx) (stack : Bool) (k : Acc) (va n : Nat) (l : List Span) : Bool :=
  stack && !k.lock && inFrame x.frameBase va && inFrame x.frameBase (wrap64 (va + n - 1)) &&
    l.all fun sp => !sp.nc && decide (sp.region = .memory)

/-- A slot is in the file, filled from the physical address that its address now has. -/
def inFile (x : Ctx) (q : Nat × Nat) : Bool := x.opfile.any fun e => decide (e.va = q.1) && decide (e.pa = q.2)

/-- A slot enters the file with what memory holds, in place of one filled from another physical address (R143). -/
def fillSlot (c : Nat) (s : State) (q : Nat × Nat) : State :=
  if inFile (s.ctx c) q then s
  else
    let t := touch s c false false q.2 8
    let x := t.ctx c
    t.setCtx c { x with opfile := { va := q.1, pa := q.2, data := Memory.word t.mem q.2 } ::
      (x.opfile.filter fun e => decide (e.va ≠ q.1)) }

/-- Every slot of an access enters the file. -/
def fillSlots (c : Nat) (l : List (Nat × Nat)) (s : State) : State := l.foldl (fillSlot c) s

/-- The lines of the slots that are not in the file are met, one slot after the other. -/
def meetSlots (c : Nat) : List (Nat × Nat) → State → Except Stop State
  | [], s => .ok s
  | q :: r, s =>
    if inFile (s.ctx c) q then meetSlots c r s
    else
      match meetLines c true q.2 8 [q.2 / 128] s with
      | .error e => .error e
      | .ok t => meetSlots c r t

/-- One byte of a slot in the file. -/
def slotByte (x : Ctx) (va : Nat) : Byte :=
  match x.opfile.find? fun e => decide (e.va = va / 8 * 8) with
  | none => 0
  | some e => BitVec.ofNat 8 (e.data.toNat / 256 ^ (va % 8))

/-- Bytes from the file. -/
def slotBytes (x : Ctx) (va : Nat) : Nat → List Byte
  | 0 => []
  | n + 1 => slotByte x va :: slotBytes x (wrap64 (va + 1)) n

/-- An entry after the context's own store of l at a physical address (R143). -/
def OpEntry.patched (e : OpEntry) (a : Nat) (l : List Byte) : OpEntry :=
  let byte (i : Nat) : Byte :=
    if a ≤ e.pa + i ∧ e.pa + i < a + l.length then l.getD (e.pa + i - a) 0 else BitVec.ofNat 8 (e.data.toNat / 256 ^ i)
  { e with data := w64 (leNat ((List.range 8).map byte)) }

/-- The context's own store reaches every entry of the bytes (R143). -/
def Ctx.patch (x : Ctx) (a : Nat) (l : List Byte) : Ctx := { x with opfile := x.opfile.map fun e => e.patched a l }

/-- Entries whose line lies in a list leave the file (R145). -/
def Ctx.dropOpLines (x : Ctx) (hit : Nat → Bool) : Ctx := { x with opfile := x.opfile.filter fun e => !hit (e.pa / 128) }

/-! ## One span -/

/-- Bytes of a register access that fails or returns a value. -/
def valueBytes (v : Word) (n : Nat) : List Byte := leBytes n v.toNat

/-- The check of R26 on a window access (R55): the kind reported, if any. -/
def windowCard (write : Bool) (off n : Nat) : Option Nat :=
  if write && decide (n ≠ 8) then some 0x0A
  else if off % n ≠ 0 then some 0x0D
  else if !winMapped (off / 8 * 8) then some 0x0B
  else none

/-- A card for a window access, whose ADDRESS is the offset in the window (R55, R236). -/
def windowReport (s : State) (c k off : Nat) : State :=
  sendCard s { source := 480, kind := BitVec.ofNat 6 k, sev := 1, inst := BitVec.ofNat 8 (s.owner c), copyLane := 0
               address := BitVec.ofNat 52 off, bound := none, forced := false, win := true }

/-- A window read (R55, R56). -/
def windowRead (c off n : Nat) (s : State) : State × List Byte :=
  match windowCard false off n with
  | some k => (windowReport s c k off, valueBytes 0 n)
  | none => (s, valueBytes (bytesOfReg (winRead s c (off / 8 * 8)) (off % 8) n) n)

/-- A window store (R55, R57). -/
def windowStore (c off n : Nat) (v : Nat) (s : State) : Except Stop State :=
  match windowCard true off n with
  | some k => .ok (windowReport s c k off)
  | none =>
    if winReserved off (w64 v) then
      .error (.trap { vec := 3, detail := 0, fetch := false, write := true, sw := false, aux := 0 })
    else .ok (s.setCtx c ((s.ctx c).winWrite off (w64 v)))

/-- A control-space read of one register (R22, R26). The unit waits without a credit of the block (R12), for a held access
(R29, R202), and for mirror records, whose count it asks for (R330). -/
def controlReadBy (c off n : Nat) (s : State) : Except Stop (State × List Byte) :=
  let r : Req := .ctx (Fin.ofNat 32 c)
  let s := flushCtl s
  if accWaits s r off then .error .wait
  else
    match ctlRead s r off n with
    | none => if regAt (off / 8 * 8) = some .dupxSync then .error (.ended (askCount s)) else .error .wait
    | some (t, v) => .ok (t, valueBytes v n)

/-- A control-space store of one register (R22, R26); the unit waits without a credit of the block (R12). -/
def controlStoreBy (c off n v : Nat) (s : State) : Except Stop State :=
  let r : Req := .ctx (Fin.ofNat 32 c)
  let s := flushCtl s
  if accWaits s r off then .error .wait else .ok (ctlWrite s r off n (w64 v))

/-- Read n bytes of registers in units of at most 8 bytes. -/
def unitsRead (f : Nat → Nat → State → Except Stop (State × List Byte)) (u : Nat) :
    Nat → Nat → State → Except Stop (State × List Byte)
  | 0, _, s => .ok (s, [])
  | k + 1, off, s =>
    match f off u s with
    | .error e => .error e
    | .ok (t, l) =>
      match unitsRead f u k (off + u) t with
      | .error e => .error e
      | .ok (t, l') => .ok (t, l ++ l')

/-- Write bytes to registers in units of at most 8 bytes. -/
def unitsStore (f : Nat → Nat → Nat → State → Except Stop State) (u : Nat) :
    Nat → Nat → List Byte → State → Except Stop State
  | 0, _, _, s => .ok s
  | k + 1, off, l, s =>
    match f off u (leNat (l.take u)) s with
    | .error e => .error e
    | .ok t => unitsStore f u k (off + u) (l.drop u) t

/-- The unit of a register access: at most 8 bytes. -/
def unitOf (n : Nat) : Nat := if 8 < n then 8 else n

/-- A part of an operand is made of whole aligned units; a part of an operand that crosses a page inside a unit is not
(R26). -/
def unitsFit (u : Nat) (sp : Span) : Bool := decide (sp.va % u = 0) && decide (sp.len % u = 0)

/-- Read one span. n is the whole operand. -/
def readSpan (c n : Nat) (sp : Span) (s : State) : Except Stop (State × List Byte) :=
  let u := unitOf n
  match sp.region with
  | .memory =>
    (match meetLines c (!sp.nc) sp.pa sp.len (linesOf sp.pa sp.len) s with
     | .error e => .error e
     | .ok t =>
       if sp.nc then .ok (uncachedBytes t sp.pa sp.len)
       else
         let t := touch t c false false sp.pa sp.len
         .ok (t, Memory.bytes t.mem sp.pa sp.len))
  | .control off =>
    if unitsFit u sp then unitsRead (controlReadBy c) u (sp.len / u) off s
    else .ok (accessCard s (.ctx (Fin.ofNat 32 c)) 0x0D off, valueBytes 0 sp.len)
  | .window off =>
    if unitsFit u sp then unitsRead (fun o k t => .ok (windowRead c o k t)) u (sp.len / u) off s
    else .ok (windowReport s c 0x0D off, valueBytes 0 sp.len)
  | .ecam => .ok (s.drawn, (List.range sp.len).map fun i => (Config.ecamWord s.free i).setWidth 8)
  | .nothing => .ok (s, [])

/-- The lines of every span in memory are met before a byte of any is stored (R238: an instruction that does not retire has
no effect). -/
def meetSpans (c : Nat) : List Span → State → Except Stop State
  | [], s => .ok s
  | sp :: r, s =>
    match (if sp.region = .memory then meetLines c (!sp.nc) sp.pa sp.len (linesOf sp.pa sp.len) s else .ok s) with
    | .error e => .error e
    | .ok t => meetSpans c r t

/-- Store one span, whose lines have been met. -/
def storeSpan (c n : Nat) (sp : Span) (l : List Byte) (s : State) : Except Stop State :=
  let u := unitOf n
  let kind := if n < 8 then 0x0A else 0x0D
  match sp.region with
  | .memory =>
    let t := if sp.nc then uncachedStore s sp.pa l else (touch s c false true sp.pa sp.len).store sp.pa l
    .ok (t.setCtx c ((t.ctx c).patch sp.pa l))
  | .control off =>
    if unitsFit u sp then unitsStore (controlStoreBy c) u (sp.len / u) off l s
    else .ok (accessCard s (.ctx (Fin.ofNat 32 c)) kind off)
  | .window off =>
    if unitsFit u sp then unitsStore (windowStore c) u (sp.len / u) off l s else .ok (windowReport s c kind off)
  | .ecam => .ok s
  | .nothing => .ok s

/-- Read every span in order. -/
def readSpans (c n : Nat) : List Span → State → Except Stop (State × List Byte)
  | [], s => .ok (s, [])
  | sp :: r, s =>
    match readSpan c n sp s with
    | .error e => .error e
    | .ok (t, l) =>
      match readSpans c n r t with
      | .error e => .error e
      | .ok (t, l') => .ok (t, l ++ l')

/-- Store every span in order. -/
def storeSpans (c n : Nat) : List Span → List Byte → State → Except Stop State
  | [], _, s => .ok s
  | sp :: r, l, s =>
    match storeSpan c n sp (l.take sp.len) s with
    | .error e => .error e
    | .ok t => storeSpans c n r (l.drop sp.len) t

/-! ## Operands -/

/-- Read an operand whose spans are checked; stack says that the mode is [S], [S+disp] or [S+disp6] (R142). -/
def loadSpans (c : Nat) (stack : Bool) (k : Acc) (va n : Nat) (l : List Span) (s : State) :
    Except Stop (State × List Byte) :=
  if fileServes (s.ctx c) stack k va n l then
    match meetSlots c (l.flatMap slotsOf) s with
    | .error e => .error e
    | .ok t =>
      let t := fillSlots c (l.flatMap slotsOf) t
      .ok (t, slotBytes (t.ctx c) va n)
  else readSpans c n l s

/-- Store an operand whose spans are checked; met: the operand has been read, so that its lines have been met. -/
def putSpans (c : Nat) (stack met : Bool) (k : Acc) (va n : Nat) (l : List Span) (b : List Byte) (s : State) :
    Except Stop State :=
  match (if met then .ok s else meetSpans c l s) with
  | .error e => .error e
  | .ok u =>
    match storeSpans c n l b u with
    | .error e => .error e
    | .ok t => .ok (if fileServes (s.ctx c) stack k va n l then fillSlots c (l.flatMap slotsOf) t else t)

/-- A load of n bytes by a context. -/
def load (c : Nat) (va n : Nat) (s : State) : Except Stop (State × Nat) :=
  match checkSpans c .read va n s with
  | .error e => .error e
  | .ok (t, l) =>
    match loadSpans c false .read va n l t with
    | .error e => .error e
    | .ok (t, b) => .ok (t, leNat b)

/-- A store of n bytes by a context. -/
def put (c : Nat) (va n v : Nat) (s : State) : Except Stop State :=
  match checkSpans c .store va n s with
  | .error e => .error e
  | .ok (t, l) => putSpans c false false .store va n l (leBytes n v) t

/-- The fetch of a unit (R86, R55): every halfword is translated and checked, and its line read. -/
def fetchUnit (c : Nat) (va n : Nat) (s : State) : Except Stop State :=
  match checkSpans c .code va n s with
  | .error e => .error e
  | .ok (t, l) =>
    l.foldl (fun r sp =>
      match r with
      | .error e => .error e
      | .ok t =>
        match meetLines c (!sp.nc) sp.pa sp.len (linesOf sp.pa sp.len) t with
        | .error e => .error e
        | .ok t => .ok (if sp.nc then t else touch t c true false sp.pa sp.len)) (.ok t)

end Sys2Proof.Machine
end

