-- ==== Sys2Proof/Machine/Entry.lean ====
section
/-! DEFINITION. Taking a trap or an interrupt (R75 to R82) as one operation, reset entry (R79), the failed entry (R76) and
the return (R78). -/
namespace Sys2Proof.Machine

/-- An entry to be performed (R75 to R77): index in the vector table, TRAPINFO.VECTOR, new MODE, return PC, the fields of
TRAPINFO, the word at frame offset 24, and what follows: IE cleared, the delivery pushed (R226), the MCT taken. -/
structure Entry where
  vec : Nat
  shown : Nat
  mode : Nat
  ret : Word
  detail : Nat
  fetch : Bool
  write : Bool
  sw : Bool
  words : Nat
  aux : Nat
  deliv : Bool
  mct : Bool
  deriving DecidableEq, Repr

/-- How an entry, or a vector read, went. -/
inductive Entered where
  | done (s : State) (w : Word)
  | fail (s : State) (addr : Nat) (write : Bool)
  | wait
  deriving Repr

/-- TRAPINFO (R77). -/
def trapInfo (e : Entry) (from' : Nat) : Nat :=
  e.shown + from' * 2 ^ 8 + e.words * 2 ^ 11 + e.detail * 2 ^ 16 + b2n e.write * 2 ^ 24 + b2n e.fetch * 2 ^ 25 +
    b2n e.sw * 2 ^ 26

/-- The mode that vectors 02h to 09h and 0Bh enter (R75). -/
def trapMode (mode : Nat) : Nat := if mode = 3 then 3 else 1

/-- The mode that TRAP enters (R74, R75). -/
def swMode (mode : Nat) : Nat := if mode = 0 then 1 else 3

/-- The 32 bytes of a frame (R77). -/
def frameBytes (s : State) (c : Nat) (e : Entry) : List Byte :=
  wordsBytes [e.ret, psOf s c, w64 (trapInfo e (s.ctx c).mode), w64 e.aux]

/-- A context in its new mode, before the frame is written (R76, R145, R150): operand file and speculation dropped. -/
def Ctx.inMode (x : Ctx) (mode : Nat) : Ctx :=
  { x with ps := setFld x.ps 13 12 mode, opfile := [], histSpec := x.hist, rasSpec := x.ras, rep := false }

/-- The MODE and the banks of an abandoned entry return (R76). -/
def backOut (s : State) (c : Nat) (x : Ctx) : State :=
  s.setCtx c { s.ctx c with ps := x.ps, su := x.su, ss := x.ss, sh := x.sh }

/-- Some line of a checked operand in memory is poisoned. -/
def spanPoison (s : State) (l : List Span) : Option Nat :=
  (l.flatMap fun sp => if sp.region = .memory then linesOf sp.pa sp.len else []).find? fun ln => decide (ln ∈ s.caches.poison)

/-- The frame stored once its spans are checked. -/
def frameStore (c : Nat) (l : List Span) (b : List Byte) (s : State) : Except Stop State :=
  match meetSpans c l s with
  | .error e => .error e
  | .ok t => storeSpans c 32 l b t

/-- The frame write at S - 32 in the new mode (R76): it fails where it would trap, or at a poisoned line, of the frame or
of a page table read for it (R402, log entry 108). -/
def frameWrite (c : Nat) (b : List Byte) (s : State) : Entered :=
  let sp := (s.ctx c).s - 32
  match checkSpans c .frame sp.toNat 32 s with
  | .error (.trap t) => .fail s (if t.vec = 7 then t.aux else sp.toNat) true
  | .error (.ended t) => .fail t sp.toNat true
  | .error .wait => .wait
  | .ok (t, l) =>
    match spanPoison t l with
    | some ln => .fail (poisonEntry t c ln) sp.toNat true
    | none =>
      match frameStore c l b (t.setCtx c ((t.ctx c).setS sp)) with
      | .error .wait => .wait
      | .error (.trap _) => .fail s sp.toNat true
      | .error (.ended t) => .fail t sp.toNat true
      | .ok t => .done t 0

/-- A 64-bit physical read of an entry (R76, R79). -/
def vectorRead (c a : Nat) (s : State) : Entered :=
  if 2 ^ 52 ≤ a then .fail s a false
  else
    match regionOf s a 8 with
    | .nothing => .fail s a false
    | .memory =>
      if lineBusy s c true a 8 (a / 128) then .wait
      else if a / 128 ∈ s.caches.poison then .fail (poisonEntry s c (a / 128)) a false
      else .done (touch s c false false a 8) (Memory.word s.mem a)
    | .control off =>
      (match controlReadBy c off 8 s with
       | .ok (t, l) => .done t (w64 (leNat l))
       | .error _ => .wait)
    | .window off => let q := windowRead c off 8 s; .done q.1 (w64 (leNat q.2))
    | .ecam => .done s.drawn (Config.ecamWord s.free 0)

/-- VBASE of a mode (R76). -/
def Ctx.vbase (x : Ctx) (mode : Nat) : Nat := if mode = 3 then x.vbaseH.toNat else x.vbaseS.toNat

/-- The end of an entry whose vector read is complete (R76, R226, R238). -/
def landEntry (c : Nat) (e : Entry) (h : Word) (s : State) : State :=
  let x := s.ctx c
  let s := s.setCtx c { x with pc := evenPc h, mct := x.mct && !e.mct, ps := if e.mct then setBit x.ps 14 false else x.ps }
  if e.deliv then
    match slotAt s c with
    | some d => pushDelivery (setSlot s c none) c d
    | none => s
  else s

/-- The steps of R76 once: mode and bank, frame, vector, PC. -/
def tryEnter (c : Nat) (e : Entry) (s : State) : Entered :=
  let x := s.ctx c
  match frameWrite c (frameBytes s c e) (s.setCtx c (x.inMode e.mode)) with
  | .fail t a w => .fail (backOut t c x) a w
  | .wait => .wait
  | .done t _ =>
    match vectorRead c (x.vbase e.mode + 8 * e.vec) t with
    | .fail t a w => .fail (backOut t c x) a w
    | .wait => .wait
    | .done t h => .done (landEntry c e h t) 0

/-- A hypervisor entry that fails stops the context (R76); COPY_LANE is the slot (R236). -/
def stopContext (s : State) (c addr : Nat) : State :=
  let s := s.setCtx c { s.ctx c with run := .stopped, entering := false }
  card s (18 + pairOf s c) 1 (s.owner c) (slotOf s c) addr

/-- The STACK entry that follows a failed supervisor entry (R76): the frame of the failed one, its vector, the address. -/
def stackEntry (e : Entry) (addr : Nat) (write : Bool) : Entry :=
  { e with vec := 0x0A, shown := e.vec, mode := 3, detail := 0, fetch := false, write := write, sw := false, words := 0
           aux := addr, deliv := false }

/-- Taking a trap or an interrupt (R76). A delivery whose entry fails returns to pending. -/
def enter (c : Nat) (e : Entry) (s : State) : Except Stop State :=
  match tryEnter c e s with
  | .done t _ => .ok t
  | .wait => .error .wait
  | .fail t a w =>
    let t := if e.deliv then withdraw t c else t
    if e.mode = 3 then .ok (stopContext t c a)
    else
      match tryEnter c (stackEntry e a w) t with
      | .done u _ => .ok u
      | .wait => .error .wait
      | .fail u b _ => .ok (stopContext u c b)

/-- The entry of a trap of a unit (R75, R77, R102): words are the unit's halfwords. -/
def trapEntry (x : Ctx) (ret : Word) (t : Trap) (words : List HWord) : Entry :=
  let enc := decide (t.vec = 2 ∨ t.vec = 3 ∨ t.vec = 4)
  { vec := t.vec, shown := t.vec, mode := if t.sw then swMode x.mode else trapMode x.mode, ret := ret
    detail := t.detail, fetch := t.fetch, write := t.write, sw := t.sw, words := if enc then words.length else 0
    aux := if enc then leNat (words.flatMap fun h => leBytes 2 h.toNat) else t.aux
    deliv := false, mct := false }

/-- The delivery that a context takes at a boundary (R80, R75): arrived, IE = 1, and not a supervisor event in
hypervisor mode. -/
def takeable (s : State) (c : Nat) : Option Delivery :=
  match slotAt s c with
  | none => none
  | some d => if d.arrived && (s.ctx c).ie && !(decide ((s.ctx c).mode = 3) && !d.hyp) then some d else none

/-- The entry of a delivery (R75, R227). -/
def deliveryEntry (x : Ctx) (d : Delivery) : Entry :=
  { vec := 0x20 + d.vector.toNat, shown := 0x20 + d.vector.toNat, mode := if d.hyp then 3 else 1, ret := x.pc
    detail := 0, fetch := false, write := false, sw := false, words := 0, aux := 0, deliv := true, mct := false }

/-- The entry of a machine check (R75, R76). -/
def mctEntry (x : Ctx) : Entry :=
  { vec := 1, shown := 1, mode := 3, ret := x.pc, detail := 0, fetch := false, write := false, sw := false, words := 0
    aux := 0, deliv := false, mct := true }

/-- The outcome of a unit or an entry as a command; a W reset that waits for a prefix unit may go on (R360). -/
def entryRes (s : State) (r : Except Stop State) : Res :=
  match r with
  | .ok t => .next (settle (warmStops t))
  | .error (.ended t) => .next (settle (warmStops t))
  | .error _ => .next s

/-- A context is at a boundary where an MCT, or an interrupt when none is pending, may be taken (R80). -/
def boundary (s : State) (c : Nat) : Bool := s.live && runnable s c

/-- A context takes the delivery in its slot (R80, R81). -/
def takeInterrupt (c : Nat) (s : State) : Except Stop State :=
  match takeable s c with
  | none => .ok s
  | some d => enter c (deliveryEntry (s.ctx c) d) s

/-- INTERRUPT_ENTRY (R80, R81, R226): the MCT comes first when both are ready. -/
def execInterruptEntry (c : Fin 32) (s : State) : Res :=
  if boundary s c && !(s.ctx c).mct then entryRes s (takeInterrupt c s) else .next s

/-- MCT_ENTRY (R238, R76). -/
def execMctEntry (c : Fin 32) (s : State) : Res :=
  if boundary s c && (s.ctx c).mct then entryRes s (enter c (mctEntry (s.ctx c)) s) else .next s

/-- Reset entry (R79, R407): hypervisor mode, translation off, IE = 0, the first PC from CTX_VBASE_H. DESIGN CHOICE (log
entry 109): a reset entry that fails has been performed, so that a release of the stopped context resumes at PC. -/
def resetEntry (c : Nat) (s : State) : Except Stop State :=
  let x := s.ctx c
  let y := { x with ps := setBit (setFld x.ps 13 12 3) 14 false, ttb := setBit x.ttb 0 false, tlb := [], opfile := []
                    entering := false, fresh := false, rep := false }
  match vectorRead c x.vbaseH.toNat (s.setCtx c y) with
  | .done t h => .ok (t.setCtx c { t.ctx c with pc := evenPc h })
  | .fail t a _ => .ok (stopContext t c a)
  | .wait => .error .wait

/-- A released context waits for its reset entry and its pair runs (R79, R408). -/
def entersNow (s : State) (c : Nat) : Bool :=
  s.live && (s.ctx c).entering && decide ((s.ctx c).run = .run) &&
    (match placeOf s c with
     | none => false
     | some (p, _) => !(s.pair p).gated && (decide ((s.pair p).st = .active) || decide ((s.pair p).st = .split)))

/-- RESET_ENTRY (R79, R408). -/
def execResetEntry (c : Fin 32) (s : State) : Res :=
  if entersNow s c then entryRes s (resetEntry c s) else .next s

/-- The state in which the ERT selects during the entry of a delivery (R219, R82): the slot is open, E(c) counts the event
whose entry runs, and the context is in the new mode when the selection falls in cycle 4 of the entry or later, that is
when its delivery reaches the context in cycle 8 or later (R81, R221). -/
def midEntry (s : State) (c cycle : Nat) (d : Delivery) : State :=
  let t := setSlot s c (some { d with age := 25 })
  if cycle < 8 then t else t.setCtx c ((t.ctx c).inMode (if d.hyp then 3 else 1))

/-- The ERT selects source n for a context during the entry of another delivery to it (R220, R82). -/
def overtakes (s : State) (c n cycle : Nat) (d : Delivery) : Bool :=
  decide (d.source ≠ n) && decide ((slotAt (ertSelect (midEntry s c cycle d)) c).map (·.source) = some n)

/-- The higher source is in the slot and has reached the context. -/
def reached (s : State) (n c : Nat) : State :=
  let t := placeIn s n c
  match slotAt t c with
  | none => t
  | some d => setSlot t c (some { d with arrived := true })

/-- The entry that a higher event of the same mode takes over (R82, R231): its vector is read, and from cycle 4 on, when the
frame is written, the frame is that of the first event (log entry 110). -/
def overtaken (x : Ctx) (cycle : Nat) (first d : Delivery) : Entry :=
  { deliveryEntry x d with shown := 0x20 + (if cycle < 4 then d.vector.toNat else first.vector.toNat) }

/-- A higher event that does not take the entry over is taken at cycle 14 with a second frame where R75 and R80 allow it; it
stays in the slot where they do not (R82). -/
def takeSecond (c n : Nat) (s : State) : Except Stop State :=
  match takeInterrupt c s with
  | .error e => .error e
  | .ok t => if slotAt t c = none ∧ (t.ctx c).run = .run then takeInterrupt c (reached t n c) else .ok t

/-- ENTRY_TAKEOVER (R82, R231): in the same mode before the end of cycle 11 the higher event replaces the vector and the
lower stays pending; else it is taken at cycle 14 with a second frame. -/
def execEntryTakeover (c : Fin 32) (source : Fin 1024) (cycle : Fin 15) (s : State) : Res :=
  if !boundary s c || (s.ctx c).mct then .next s
  else
    match takeable s c with
    | none => .next s
    | some d =>
      if !overtakes s c source cycle d then .next s
      else if cycle ≤ 11 ∧ bitOf (srcOf s source) 59 = d.hyp then
        let t := reached s source c
        entryRes s
          (match slotAt t c with
           | none => .ok t
           | some h => enter c (overtaken (t.ctx c) cycle d h) t)
      else entryRes s (takeSecond c source s)

/-- The bits of PS that are reserved (R51). -/
def psReserved : Word := 0xFFFFFFFF00FC0800#64

/-- RETI (R78): PC and PS from the frame; RP, UC and WK keep their values. -/
def returnFrom (c : Nat) (s : State) : Except Stop State :=
  let x := s.ctx c
  match load c x.s.toNat 16 s with
  | .error e => .error e
  | .ok (t, v) =>
    let pc := w64 v
    let ps := w64 (v / 2 ^ 64)
    let y := t.ctx c
    if ps &&& psReserved ≠ 0 ∨ fld ps 13 12 = 2 then
      .error (.trap { vec := 3, detail := 0, fetch := false, write := false, sw := false, aux := 0 })
    else if x.mode < fld ps 13 12 then
      .error (.trap { vec := 5, detail := 0x01, fetch := false, write := false, sw := false, aux := 0 })
    else
      let z := y.setS (x.s + 32)
      let keep : Word := 0xFF030000#64
      .ok (t.setCtx c { z with ps := blend ps z.ps keep, pc := evenPc pc, rep := false }.trim)

end Sys2Proof.Machine
end

