-- ==== Sys2Proof/Machine/Predict.lean ====
section
/-! DEFINITION. The branch predictor of a pair (R149, R150, R152, R154). Its hashes and counter updates are free
(log entry 6); no result depends on it. -/
namespace Sys2Proof.Machine

/-- History bits of the direction tables T0 to T4, the target buffer (5) and the indirect table (6) (R149). -/
def histBits (t : Nat) : Nat := [0, 8, 24, 64, 160, 0, 24].getD t 0

/-- Entries of a table (R149). -/
def tableSize (t : Nat) : Nat := [8192, 4096, 4096, 4096, 2048, 8192, 2048].getD t 1

/-- Tag bits of a table (R149). -/
def tagBits (t : Nat) : Nat := [10, 9, 11, 12, 13, 14, 12].getD t 0

/-- The index of a branch in a table: address bits [20:1] and history alone (R150). -/
def predIndexOf (t : Nat) (pc : Word) (h : BitVec 160) : Nat :=
  Config.predIndex t (fld pc 20 1) (BitVec.ofNat 160 (h.toNat % 2 ^ histBits t)) % tableSize t

/-- The tag of a branch in a table (R150). -/
def predTagOf (t : Nat) (pc : Word) (h : BitVec 160) : Nat :=
  Config.predTag t (fld pc 20 1) (BitVec.ofNat 160 (h.toNat % 2 ^ histBits t)) % 2 ^ tagBits t

/-- An entry belongs to a branch. -/
def PredEntry.isFor (e : PredEntry) (t : Nat) (pc : Word) (h : BitVec 160) : Bool :=
  decide (e.table = t) && decide (e.index = predIndexOf t pc h) && decide (e.tag = predTagOf t pc h)

/-- Replace the entry at an index of a table. -/
def putEntry (l : List PredEntry) (e : PredEntry) : List PredEntry :=
  e :: l.filter fun k => !(decide (k.table = e.table) && decide (k.index = e.index))

/-- The direction table with the longest history whose entry belongs to a branch (R149). -/
def provider (l : List PredEntry) (pc : Word) (h : BitVec 160) : Option PredEntry :=
  [4, 3, 2, 1, 0].findSome? fun t => l.find? fun e => e.isFor t pc h

/-- The direction predicted for a conditional branch (R149): by the longest match, else taken where its target lies
backward. -/
def predictTaken (l : List PredEntry) (pc : Word) (h : BitVec 160) (backward : Bool) : Bool :=
  match provider l pc h with
  | some e => Config.predTaken e.counter
  | none => backward

/-- The target predicted for a taken BR or CALL (R149). -/
def predictTarget (l : List PredEntry) (pc : Word) (h : BitVec 160) (indirect : Bool) : Option Word :=
  (l.find? fun e => e.isFor (if indirect then 6 else 5) pc h).map (·.target)

/-- The target predicted for a RET (R149): the top of the return stack. -/
def Ctx.predictRet (x : Ctx) : Option Word := x.rasSpec.head?

/-- An entry after its branch retires; table 0 has no usefulness (R149). -/
def PredEntry.trained (e : PredEntry) (taken : Bool) : PredEntry :=
  { e with counter := Config.predUpdate e.table taken e.counter
           useful := if e.table = 0 then 0 else Config.predUseful e.table taken e.useful }

/-- The direction tables after a conditional branch retires (R150): entries that match are updated, and a table of a free
choice (draw d) may gain one. -/
def trainDirection (d : Nat) (l : List PredEntry) (pc : Word) (h : BitVec 160) (taken : Bool) : List PredEntry :=
  let hit (e : PredEntry) : Bool := decide (e.table < 5) && e.isFor e.table pc h
  let l := l.map fun e => if hit e then e.trained taken else e
  let t := Config.predGrow d
  if 5 ≤ t ∨ l.any (fun e => e.isFor t pc h) = true then l
  else
    let e : PredEntry := { table := t, index := predIndexOf t pc h, tag := predTagOf t pc h, counter := 0, useful := 0, target := 0 }
    putEntry l (e.trained taken)

/-- The target buffer or the indirect target table gains an entry (R150). -/
def trainTarget (l : List PredEntry) (pc : Word) (h : BitVec 160) (indirect : Bool) (target : Word) : List PredEntry :=
  let t := if indirect then 6 else 5
  putEntry l { table := t, index := predIndexOf t pc h, tag := predTagOf t pc h, counter := 0, useful := 0, target := target }

/-- A context runs on copy T of a split pair, which has a predictor of its own (R206). -/
def onCopyT (s : State) (p : Nat) (slot : Bool) : Bool := slot && decide ((s.pair p).st = .split)

/-- The predictor that a context uses. -/
def predTables (s : State) (c : Nat) : List PredEntry :=
  match placeOf s c with
  | none => []
  | some (p, slot) => if onCopyT s p slot then (s.pair p).predT else (s.pair p).pred

/-- Change the predictor that a context uses. -/
def mapPred (s : State) (c : Nat) (f : List PredEntry → List PredEntry) : State :=
  match placeOf s c with
  | none => s
  | some (p, slot) =>
    let q := s.pair p
    s.setPair p (if onCopyT s p slot then { q with predT := f q.predT } else { q with pred := f q.pred })

/-- A conditional branch of a context has been predicted and retires (R149, R150): the speculative history has advanced by
the prediction, the history by the outcome. Nothing moves in a barrier region (R154). -/
def noteDirection (s : State) (c : Nat) (pc : Word) (backward taken : Bool) : State :=
  let x := s.ctx c
  if x.barrier ≠ 0 then s
  else
    let guess := predictTaken (predTables s c) pc x.histSpec backward
    (mapPred s.drawn c fun l => trainDirection s.free l pc x.hist taken).setCtx c
      { x with hist := (x.hist <<< 1) ||| BitVec.ofNat 160 (b2n taken)
               histSpec := (x.histSpec <<< 1) ||| BitVec.ofNat 160 (b2n guess) }

/-- A taken branch of a context leaves its target (R149, R150); not in a barrier region (R154). -/
def noteTarget (s : State) (c : Nat) (pc : Word) (indirect : Bool) (target : Word) : State :=
  let x := s.ctx c
  if x.barrier ≠ 0 then s else mapPred s c fun l => trainTarget l pc x.hist indirect target

/-- A return stack with an address pushed: it loses its oldest entry beyond 32 (R149). -/
def pushed (l : List Word) (ret : Word) : List Word := (ret :: l).take 32

/-- CALL pushes on the return stack (R149). -/
def Ctx.pushRas (x : Ctx) (ret : Word) : Ctx :=
  if x.barrier ≠ 0 then x else { x with ras := pushed x.ras ret, rasSpec := pushed x.rasSpec ret }

/-- RET takes the top of the return stack (R149). -/
def Ctx.popRas (x : Ctx) : Ctx :=
  if x.barrier ≠ 0 then x else { x with ras := x.ras.drop 1, rasSpec := x.rasSpec.drop 1 }

/-- A misprediction is resolved (R150): the target structures may gain the branch, speculative history returns. -/
def mispredict (s : State) (c : Nat) (branch target : Word) (indirect : Bool) : State :=
  let s := noteTarget s c branch indirect target
  let x := s.ctx c
  s.setCtx c { x with histSpec := x.hist, rasSpec := x.ras }

end Sys2Proof.Machine
end

