-- ==== Sys2Proof/Machine/Units.lean ====
section
/-! DEFINITION. How a unit runs: fetch, the traps in the order of R73, predicate, operand, effect, retirement. -/
namespace Sys2Proof.Machine

/-- What a meaning over the whole state works with: the context, the address of its first halfword, the address after the
unit, the unit's bytes, the operation and its fields. -/
structure Call where
  c : Nat
  ipc : Word
  next : Word
  len : Nat
  op : QOp
  f : Form
  deriving DecidableEq, Repr

/-- The meaning of an operation: an effect on values, or on the whole state; own: it loads PC itself. -/
inductive Sem where
  | val (use : Use) (eff : Eff)
  | sys (own : Bool) (body : Call → State → Except Stop State)

/-- A trap without FETCH, WRITE or SW. -/
def plainTrap (vec detail : Nat) : Stop :=
  .trap { vec := vec, detail := detail, fetch := false, write := false, sw := false, aux := 0 }

/-! ## Operands of a unit -/

/-- Bytes by which a mode steps its index register (R62, R97). -/
def Call.stepBytes (k : Call) : Nat := 2 ^ sizeOf k.f

/-- The effective address of a unit (R62 to R64). -/
def Call.ea (k : Call) (x : Ctx) : Word :=
  x.ea k.ipc (decide (k.op = .br) || decide (k.op = .call)) k.stepBytes (modeOf k.f)

/-- The index registers after the unit (R62). -/
def Call.stepped (k : Call) (x : Ctx) : Ctx := x.step Ctx.moveS k.stepBytes (modeOf k.f)

/-- The modes that the operand file may serve (R142). -/
def stackMode (m : Mode) : Bool :=
  match m with
  | .ind .s => true
  | .disp .s _ => true
  | _ => false

/-- ALIGN (R66, R109): decimal operands and operands that LOCK governs. -/
def alignTrap (k : Call) (lock write : Bool) (ea n : Nat) : Option Stop :=
  if (lock || isNarrow k.op || isExt k.op) && decide (ea % n ≠ 0) then
    some (.trap { vec := 6, detail := n, fetch := false, write := write, sw := false, aux := ea })
  else none

/-- The checks of an operand that is read and written (R73). LOCK CMPU writes, and is checked as a write, only where A
equals the operand (R70). -/
def rmwSpans (k : Call) (stack lock : Bool) (ea n : Nat) (s : State) : Except Stop (State × List Span) :=
  if lock && decide (k.op = .cmpu) then
    match checkSpans k.c { Acc.read with lock := true } ea n s with
    | .error e => .error e
    | .ok (t, l) =>
      match loadSpans k.c stack { Acc.store with lock := true } ea n l t with
      | .error e => .error e
      | .ok (_, b) => if low (8 * n) (s.ctx k.c).a = leNat b then checkRmw k.c lock ea n s else .ok (t, l)
  else checkRmw k.c lock ea n s

/-- The operand of a unit, read where its meaning reads it: the state, the spans a store will use, and the value. -/
def operand (k : Call) (use : Use) (lock : Bool) (s : State) : Except Stop (State × List Span × Nat) :=
  let x := s.ctx k.c
  let n := operandBytes k.op k.f
  let ea := (k.ea x).toNat
  let stack := stackMode (modeOf k.f)
  match modeOf k.f with
  | .imm v => .ok (s, [], low (8 * n) v)
  | _ =>
    match use with
    | .none => .ok (s, [], 0)
    | .addr => .ok (s, [], 0)
    | .read =>
      (match alignTrap k lock false ea n with
       | some e => .error e
       | none =>
         match checkSpans k.c .read ea n s with
         | .error e => .error e
         | .ok (t, l) =>
           match loadSpans k.c stack .read ea n l t with
           | .error e => .error e
           | .ok (t, b) => .ok (t, l, leNat b))
    | .write =>
      (match alignTrap k lock true ea n with
       | some e => .error e
       | none =>
         match checkSpans k.c .store ea n s with
         | .error e => .error e
         | .ok (t, l) => .ok (t, l, 0))
    | .rmw =>
      (match alignTrap k lock true ea n with
       | some e => .error e
       | none =>
         match rmwSpans k stack lock ea n s with
         | .error e => .error e
         | .ok (t, l) =>
           match loadSpans k.c stack { Acc.store with lock := lock } ea n l t with
           | .error e => .error e
           | .ok (t, b) => .ok (t, l, leNat b))

/-- A meaning over values (R73): operand, effect, index registers, then the store. -/
def valueBody (use : Use) (eff : Eff) (lock : Bool) (k : Call) (s : State) : Except Stop State :=
  let n := operandBytes k.op k.f
  let ea := k.ea (s.ctx k.c)
  match operand k use lock s with
  | .error e => .error e
  | .ok (t, l, m) =>
    match eff { n := n, m := m, ea := ea, lay := layoutOf k.f } (t.ctx k.c) with
    | .error v => .error (plainTrap v 0)
    | .ok (y, put) =>
      let y := if use = .none then y else k.stepped y
      let t := t.setCtx k.c y
      match put with
      | none => .ok t
      | some v =>
        putSpans k.c (stackMode (modeOf k.f)) (decide (use = .rmw)) { Acc.store with lock := lock } ea.toNat n l (leBytes n v) t

/-- LOCK orders as a FENCE before and after (R70, R148). -/
def fenced (c : Nat) (s : State) : State := s.setCtx c (s.ctx c).dropOps

/-- The body of a unit. -/
def Sem.body (m : Sem) (lock : Bool) (k : Call) (s : State) : Except Stop State :=
  match m with
  | .val use eff =>
    if lock then valueBody .rmw (lockEff k.op eff) true k (fenced k.c s) else valueBody use eff false k s
  | .sys _ body => body k s

/-- A meaning loads PC itself. -/
def Sem.own : Sem → Bool
  | .val _ _ => false
  | .sys b _ => b

/-! ## Retirement -/

/-- PC after a unit, or after an iteration of a REP unit, which leaves the count in X (R69). -/
def retire (k : Call) (rep : Bool) (s : State) : State :=
  let x := s.ctx k.c
  if rep then
    let n := x.x - 1
    s.setCtx k.c (if n = 0 then { x with x := n, pc := k.next, rep := false } else { x with x := n, rep := true })
  else s.setCtx k.c { x with pc := k.next, rep := false }

/-- The target of a branch lies backward (R149). -/
def Call.backward (k : Call) (x : Ctx) : Bool := decide ((evenPc (k.ea x)).toNat < k.ipc.toNat)

/-- A unit whose predicate is 0 (R67); a conditional branch has its direction all the same (R149). -/
def passOver (k : Call) (rep : Bool) (s : State) : State :=
  let s := if k.op = .br ∨ k.op = .call then noteDirection s k.c k.ipc (k.backward (s.ctx k.c)) false else s
  retire k rep s

/-- A unit counts in REP. -/
def Pre.isRep : Pre → Bool
  | .rep _ => true
  | _ => false

/-- A LOCK governs the unit. -/
def Pre.isLock : Pre → Bool
  | .lock _ => true
  | _ => false

/-- A unit after its fetch, in the order of R73. -/
def unitBody (pre : Pre) (k : Call) (m : Sem) (s : State) : Except Stop State :=
  let x := s.ctx k.c
  match encTrap pre k.op k.f with
  | some v => .error (plainTrap v 0)
  | none =>
    if privileged k.op && decide (x.mode = 0) then .error (plainTrap 5 0x01)
    else if pre.isRep && decide (x.x = 0) then .ok (s.setCtx k.c { x with pc := k.next, rep := false })
    else if !x.pred (predOf pre k.f) then .ok (passOver k pre.isRep s)
    else
      match m.body pre.isLock k s with
      | .error e => .error e
      | .ok t => .ok (if m.own then t else retire k pre.isRep t)

/-! ## Commands -/

/-- The breakpoint that a unit at PC meets, and its ACTION (R398). -/
def breakpoint (s : State) (c : Nat) : Option Bool :=
  if s.aud.sealed || !s.aud.dbgEn then none
  else
    (List.range 8).findSome? fun b =>
      let q := s.aud.bps.get b { addr := 0, ctl := 0 }
      if bitOf q.addr 0 && decide (fld q.addr 56 1 = fld (s.ctx c).pc 56 1) && bitOf q.ctl c then some (bitOf q.ctl 32)
      else none

/-- The beginning of a unit (R73, rank 1): fetch, then a breakpoint. An iteration of a REP unit after the first begins
none. -/
def beginUnit (c len : Nat) (rep : Bool) (s : State) : Except Stop State :=
  let x := s.ctx c
  if rep && x.rep then .ok s
  else
    match fetchUnit c x.pc.toNat len s with
    | .error e => .error e
    | .ok t =>
      match breakpoint t c with
      | none => .ok t
      | some true => .error (.ended (t.setCtx c { t.ctx c with run := .stopped, dbgHalted := true }))
      | some false => .error (plainTrap 0x0B 0)

/-- A context begins a unit: it is at a boundary with no machine check pending (R80, R211). -/
def ready (s : State) (c : Nat) : Bool := boundary s c && !(s.ctx c).mct

/-- A unit: its beginning, then its body. -/
def wholeUnit (c len : Nat) (rep : Bool) (body : State → Except Stop State) (s : State) : Except Stop State :=
  match beginUnit c len rep s with
  | .error e => .error e
  | .ok t => body t

/-- The group of a context's slot has retired or ended in a trap: its failed lets count no further (R191). -/
def groupDone (c : Nat) (s : State) : State :=
  match placeOf s c with
  | none => s
  | some (p, slot) => groupRetired s p slot

/-- A command that runs one unit of a context: words are its halfwords. -/
def unitCmd (c : Nat) (words : List HWord) (rep : Bool) (body : State → Except Stop State) (s : State) : Res :=
  if !ready s c then .next s
  else if haltDue s c then .next (settle (haltNow s c))
  else
    match wholeUnit c (2 * words.length) rep body s with
    | .error (.trap tr) => entryRes s ((enter c (trapEntry (s.ctx c) (s.ctx c).pc tr words) s).map (groupDone c))
    | r => entryRes s (r.map (groupDone c))

/-- The call of a unit at PC. -/
def callOf (c : Nat) (pre : Pre) (op : QOp) (f : Form) (words : List HWord) (s : State) : Call :=
  let pc := (s.ctx c).pc
  { c := c, ipc := pc + w64 (2 * (preWords pre).length), next := pc + w64 (2 * words.length), len := 2 * words.length
    op := op, f := f }

/-- A unit of one operation as a command; a form that the operation does not have is no term of the language. -/
def unitOp (c : Nat) (pre : Pre) (op : QOp) (f : Form) (m : Sem) (s : State) : Res :=
  match unitWords pre op f with
  | none => .refused .illFormed
  | some words => unitCmd c words pre.isRep (unitBody pre (callOf c pre op f words s) m) s

/-- The prefix that a plain unit may carry. -/
def QUnit.pre' (u : QUnit) : Pre :=
  match u.pfx with
  | none => .none
  | some l => .pfx l

/-- An instruction without REP or LOCK. -/
def plain (c : Fin 32) (u : QUnit) (op : QOp) (m : Sem) (s : State) : Res := unitOp c (QUnit.pre' u) op u.form m s

end Sys2Proof.Machine
end

