-- ==== Sys2Proof/Machine/DecOps.lean ====
section
/-! DEFINITION. The packed-decimal instructions (R107 to R117): the meaning of each, and the command that runs it. -/
namespace Sys2Proof.Machine

/-- DAD (R110, R112 to R114). -/
def semDad : Sem := .val .read (decArith false fun a m => a + m)
def execDad (c : Fin 32) (u : QUnit) (s : State) : Res := plain c u .dad semDad s

/-- DSB (R110, R112 to R114). -/
def semDsb : Sem := .val .read (decArith false fun a m => a - m)
def execDsb (c : Fin 32) (u : QUnit) (s : State) : Res := plain c u .dsb semDsb s

/-- DMUL (R110, R112 to R114). -/
def semDmul : Sem := .val .read (decArith false fun a m => a * m)
def execDmul (c : Fin 32) (u : QUnit) (s : State) : Res := plain c u .dmul semDmul s

/-- DRND (R115, R116). -/
def semDrnd : Sem := .val .write (drndEff false)
def execDrnd (c : Fin 32) (u : QUnit) (s : State) : Res := plain c u .drnd semDrnd s

/-- DCMP (R114). -/
def semDcmp : Sem := .val .read (dcmpEff false)
def execDcmp (c : Fin 32) (u : QUnit) (s : State) : Res := plain c u .dcmp semDcmp s

/-- DVAL (R114). -/
def semDval : Sem := .val .read (dvalEff false)
def execDval (c : Fin 32) (u : QUnit) (s : State) : Res := plain c u .dval semDval s

/-- DAD ext. (R110, R112 to R114). -/
def semDadExt : Sem := .val .read (decArith true fun a m => a + m)
def execDadExt (c : Fin 32) (u : QUnit) (s : State) : Res := plain c u .dadExt semDadExt s

/-- DSB ext. (R110, R112 to R114). -/
def semDsbExt : Sem := .val .read (decArith true fun a m => a - m)
def execDsbExt (c : Fin 32) (u : QUnit) (s : State) : Res := plain c u .dsbExt semDsbExt s

/-- DMUL ext. (R110, R112 to R114). -/
def semDmulExt : Sem := .val .read (decArith true fun a m => a * m)
def execDmulExt (c : Fin 32) (u : QUnit) (s : State) : Res := plain c u .dmulExt semDmulExt s

/-- DRND ext. (R115, R116). -/
def semDrndExt : Sem := .val .write (drndEff true)
def execDrndExt (c : Fin 32) (u : QUnit) (s : State) : Res := plain c u .drndExt semDrndExt s

/-- DCMP ext. (R114). -/
def semDcmpExt : Sem := .val .read (dcmpEff true)
def execDcmpExt (c : Fin 32) (u : QUnit) (s : State) : Res := plain c u .dcmpExt semDcmpExt s

/-- DVAL ext. (R114). -/
def semDvalExt : Sem := .val .read (dvalEff true)
def execDvalExt (c : Fin 32) (u : QUnit) (s : State) : Res := plain c u .dvalExt semDvalExt s

/-- DCVB (R117). -/
def semDcvb : Sem := .val .none dcvbEff
def execDcvb (c : Fin 32) (u : QUnit) (s : State) : Res := plain c u .dcvb semDcvb s

/-- DCVB ext. (R117). -/
def semDcvbExt : Sem := .val .none dcvbExtEff
def execDcvbExt (c : Fin 32) (u : QUnit) (s : State) : Res := plain c u .dcvbExt semDcvbExt s

/-- BCVD (R117). -/
def semBcvd : Sem := .val .none bcvdEff
def execBcvd (c : Fin 32) (u : QUnit) (s : State) : Res := plain c u .bcvd semBcvd s

end Sys2Proof.Machine
end

