-- ==== Sys2Proof/Machine/Float.lean ====
section
/-! DEFINITION. Binary floating point (R121 to R133): every result is the exact value rounded once. -/
namespace Sys2Proof.Machine

/-- A format: precision in bits, bits of the exponent field, and the exponent of the lowest subnormal bit. -/
structure Fmt where
  p : Nat
  eb : Nat
  emin : Int
  deriving DecidableEq, Repr

def binary32 : Fmt := { p := 24, eb := 8, emin := -149 }
def binary64 : Fmt := { p := 53, eb := 11, emin := -1074 }

/-- The format of an operand of n bytes (R122). -/
def fmtOf (n : Nat) : Fmt := if n = 4 then binary32 else binary64

/-- A decoded value: a finite one is (-1)^neg × m × 2^e. -/
inductive FVal where
  | nan (signalling : Bool)
  | inf (neg : Bool)
  | fin (neg : Bool) (m : Nat) (e : Int)
  deriving DecidableEq, Repr

namespace Fmt

/-- Bits of the fraction field. -/
def fb (f : Fmt) : Nat := f.p - 1

/-- The bits of the infinity of a sign. -/
def infBits (f : Fmt) (neg : Bool) : Nat := b2n neg * 2 ^ (f.fb + f.eb) + (2 ^ f.eb - 1) * 2 ^ f.fb

/-- The canonical NaN (R133). -/
def nanBits (f : Fmt) : Nat := f.infBits false + 2 ^ (f.fb - 1)

/-- The largest finite magnitude with a sign. -/
def maxBits (f : Fmt) (neg : Bool) : Nat := f.infBits neg - 1

/-- The zero of a sign. -/
def zeroBits (f : Fmt) (neg : Bool) : Nat := b2n neg * 2 ^ (f.fb + f.eb)

/-- Decode a bit pattern (R133). -/
def decode (f : Fmt) (v : Nat) : FVal :=
  let frac := v % 2 ^ f.fb
  let ex := v / 2 ^ f.fb % 2 ^ f.eb
  let neg := (v / 2 ^ (f.fb + f.eb)).testBit 0
  if ex = 2 ^ f.eb - 1 then (if frac = 0 then .inf neg else .nan (!frac.testBit (f.fb - 1)))
  else if ex = 0 then .fin neg frac f.emin
  else .fin neg (2 ^ f.fb + frac) (f.emin + ((ex : Int) - 1))

end Fmt

/-- Whether a magnitude q + r/2^d goes to q + 1 under a rounding mode (R52). -/
def roundUp (rm : Nat) (neg : Bool) (q r d : Nat) : Bool :=
  if rm = 0 then decide (2 ^ d < 2 * r) || (decide (2 * r = 2 ^ d) && decide (q % 2 = 1))
  else if rm = 1 then false
  else if rm = 2 then decide (r ≠ 0) && !neg
  else if rm = 3 then decide (r ≠ 0) && neg
  else decide (r ≠ 0) && decide (2 ^ d ≤ 2 * r)

/-- m × 2^e rounded to a multiple of 2^t: the multiple and whether it is inexact. -/
def roundAt (rm : Nat) (neg : Bool) (m : Nat) (e t : Int) : Nat × Bool :=
  if t ≤ e then (m * 2 ^ (e - t).toNat, false)
  else
    let d := (t - e).toNat
    let q := m / 2 ^ d
    let r := m % 2 ^ d
    (if roundUp rm neg q r d then q + 1 else q, decide (r ≠ 0))

/-- A result of a format and the exceptions of delivering it. -/
abbrev FRes := Nat × Exc

/-- The overflowed result (R130). -/
def overflowBits (f : Fmt) (rm : Nat) (neg : Bool) : Nat :=
  if rm = 1 ∨ (rm = 2 ∧ neg = true) ∨ (rm = 3 ∧ neg = false) then f.maxBits neg else f.infBits neg

/-- Round a non-zero value (-1)^neg × m × 2^e to a format (R130, R131): tininess is detected after rounding with an
unbounded exponent. -/
def roundNonzero (f : Fmt) (rm : Nat) (neg : Bool) (m : Nat) (e : Int) : FRes :=
  let top : Int := e + m.log2
  let free := top - f.fb
  let t := if free < f.emin then f.emin else free
  let (q, inexact) := roundAt rm neg m e t
  let mag := (t - f.emin).toNat * 2 ^ f.fb + q
  let carried := decide ((roundAt rm neg m e free).1 = 2 ^ f.p)
  let tiny := decide (top < f.emin + f.fb) && !(decide (top + 1 = f.emin + f.fb) && carried)
  if f.infBits false ≤ mag then (overflowBits f rm neg, { Exc.none with of := true, nx := true })
  else (f.zeroBits neg + mag, { Exc.none with uf := tiny && inexact, nx := inexact })

/-- Round any finite value; an exact zero has the sign given (R132). -/
def roundF (f : Fmt) (rm : Nat) (neg : Bool) (m : Nat) (e : Int) : FRes :=
  if m = 0 then (f.zeroBits neg, .none) else roundNonzero f rm neg m e

/-- The canonical NaN with or without IV. -/
def nanRes (f : Fmt) (iv : Bool) : FRes := (f.nanBits, { Exc.none with iv := iv })

/-- A value is a signalling NaN. -/
def FVal.snan : FVal → Bool
  | .nan b => b
  | _ => false

/-- A value is a NaN. -/
def FVal.isNan : FVal → Bool
  | .nan _ => true
  | _ => false

/-- The signed value m × 2^e as an integer multiple of 2^t. -/
def scaled (neg : Bool) (m : Nat) (e t : Int) : Int :=
  let v : Int := (m * 2 ^ (e - t).toNat : Nat)
  if neg then -v else v

/-- The sum of two finite values, rounded once (R124, R132). -/
def addFin (f : Fmt) (rm : Nat) (n1 : Bool) (m1 : Nat) (e1 : Int) (n2 : Bool) (m2 : Nat) (e2 : Int) : FRes :=
  let t := if e1 ≤ e2 then e1 else e2
  let v := scaled n1 m1 e1 t + scaled n2 m2 e2 t
  if v = 0 then (f.zeroBits (if m1 = 0 ∧ m2 = 0 ∧ n1 = n2 then n1 else decide (rm = 3)), .none)
  else roundNonzero f rm (decide (v < 0)) v.natAbs t

/-- FADD (R124). -/
def faddV (f : Fmt) (rm : Nat) : FVal → FVal → FRes
  | .nan a, y => nanRes f (a || y.snan)
  | x, .nan b => nanRes f (x.snan || b)
  | .inf n1, .inf n2 => if n1 = n2 then (f.infBits n1, .none) else nanRes f true
  | .inf n, .fin _ _ _ => (f.infBits n, .none)
  | .fin _ _ _, .inf n => (f.infBits n, .none)
  | .fin n1 m1 e1, .fin n2 m2 e2 => addFin f rm n1 m1 e1 n2 m2 e2

/-- The other sign. -/
def FVal.flip : FVal → FVal
  | .nan b => .nan b
  | .inf n => .inf !n
  | .fin n m e => .fin (!n) m e

/-- FMUL (R124). -/
def fmulV (f : Fmt) (rm : Nat) : FVal → FVal → FRes
  | .nan a, y => nanRes f (a || y.snan)
  | x, .nan b => nanRes f (x.snan || b)
  | .inf n1, .inf n2 => (f.infBits (n1 != n2), .none)
  | .inf n1, .fin n2 m _ => if m = 0 then nanRes f true else (f.infBits (n1 != n2), .none)
  | .fin n1 m _, .inf n2 => if m = 0 then nanRes f true else (f.infBits (n1 != n2), .none)
  | .fin n1 m1 e1, .fin n2 m2 e2 => roundF f rm (n1 != n2) (m1 * m2) (e1 + e2)

/-- A quotient with 128 further bits; its last bit says that a remainder is left. -/
def quotient (m1 m2 : Nat) : Nat := m1 * 2 ^ 128 / m2 * 2 + b2n (decide (m1 * 2 ^ 128 % m2 ≠ 0))

/-- FDIV (R124). -/
def fdivV (f : Fmt) (rm : Nat) : FVal → FVal → FRes
  | .nan a, y => nanRes f (a || y.snan)
  | x, .nan b => nanRes f (x.snan || b)
  | .inf _, .inf _ => nanRes f true
  | .inf n1, .fin n2 _ _ => (f.infBits (n1 != n2), .none)
  | .fin n1 _ _, .inf n2 => (f.zeroBits (n1 != n2), .none)
  | .fin n1 m1 e1, .fin n2 m2 e2 =>
    if m2 = 0 then
      (if m1 = 0 then nanRes f true else (f.infBits (n1 != n2), { Exc.none with dz := true }))
    else roundF f rm (n1 != n2) (quotient m1 m2) (e1 - e2 - 129)

/-- The integer square root, bit by bit from bit k - 1 down. -/
def isqrt (n : Nat) : Nat → Nat → Nat
  | 0, r => r
  | k + 1, r => isqrt n k (if (r + 2 ^ k) * (r + 2 ^ k) ≤ n then r + 2 ^ k else r)

/-- The root of m × 2^e for an even e, with 64 further bits and a last bit that says a remainder is left. -/
def rootOf (m : Nat) : Nat :=
  let n := m * 2 ^ 128
  let r := isqrt n 96 0
  r * 2 + b2n (decide (r * r ≠ n))

/-- FSQRT: A is not read (R124). -/
def fsqrtV (f : Fmt) (rm : Nat) : FVal → FRes
  | .nan b => nanRes f b
  | .inf n => if n then nanRes f true else (f.infBits false, .none)
  | .fin n m e =>
    if m = 0 then (f.zeroBits n, .none)
    else if n then nanRes f true
    else
      let m' := if e % 2 = 0 then m else m * 2
      let e' := if e % 2 = 0 then e else e - 1
      roundF f rm false (rootOf m') (e' / 2 - 65)

/-- The product of two values that are no NaN: none for 0 × ∞. -/
def productV : FVal → FVal → Option FVal
  | .inf n1, .inf n2 => some (.inf (n1 != n2))
  | .inf n1, .fin n2 m _ => if m = 0 then none else some (.inf (n1 != n2))
  | .fin n1 m _, .inf n2 => if m = 0 then none else some (.inf (n1 != n2))
  | .fin n1 m1 e1, .fin n2 m2 e2 => some (.fin (n1 != n2) (m1 * m2) (e1 + e2))
  | .nan b, _ => some (.nan b)
  | _, .nan b => some (.nan b)

/-- FMA: A + X × m, the product not rounded (R124). -/
def fmaV (f : Fmt) (rm : Nat) (a x m : FVal) : FRes :=
  let sig := a.snan || x.snan || m.snan
  if x.isNan || m.isNan then nanRes f sig
  else
    match productV x m with
    | none => nanRes f true
    | some p => if a.isNan then nanRes f sig else faddV f rm a p

/-- Compare two values, -0 equal to +0 (R126). -/
def compareV : FVal → FVal → Cmp
  | .nan _, _ => .un
  | _, .nan _ => .un
  | .inf n1, .inf n2 => if n1 = n2 then .eq else if n1 then .lt else .gt
  | .inf n1, .fin _ _ _ => if n1 then .lt else .gt
  | .fin _ _ _, .inf n2 => if n2 then .gt else .lt
  | .fin n1 m1 e1, .fin n2 m2 e2 =>
    let t := if e1 ≤ e2 then e1 else e2
    let a := scaled n1 m1 e1 t
    let b := scaled n2 m2 e2 t
    if a < b then .lt else if a = b then .eq else .gt

/-- The sign of a value. -/
def FVal.neg : FVal → Bool
  | .nan _ => false
  | .inf n => n
  | .fin n _ _ => n

/-- FMIN (least = true) and FMAX over bit patterns (R125): -0 below +0, the other operand beside a NaN. -/
def fminmax (f : Fmt) (least : Bool) (a m : Nat) : FRes :=
  let va := f.decode a
  let vm := f.decode m
  let e := { Exc.none with iv := va.snan || vm.snan }
  if va.isNan && vm.isNan then (f.nanBits, e)
  else if va.isNan then (m, e)
  else if vm.isNan then (a, e)
  else
    let less := match compareV va vm with
      | .lt => true
      | .eq => va.neg && !vm.neg
      | _ => false
    (if less = least then a else m, e)

/-- A floating-point result in A (R122): the high half is 0 for binary32; flags only in FPSR (R127). -/
def Ctx.fresult (x : Ctx) (r : FRes) : Ctx := { x with a := w64 r.1 }.raiseExc r.2

/-- The value of a register in the format of n bytes (R122). -/
def regF (n : Nat) (v : Word) : FVal := (fmtOf n).decode (low (8 * n) v)

/-- The value of the operand (R122, R123). -/
def Args.f (g : Args) : FVal := (fmtOf g.n).decode (g.m % 2 ^ g.w)

/-- An operation on A and m. -/
def floatOp (h : Fmt → Nat → FVal → FVal → FRes) : Eff := pureEff fun g x =>
  x.fresult (h (fmtOf g.n) x.rm (regF g.n x.a) g.f)

def fsubV (f : Fmt) (rm : Nat) (a m : FVal) : FRes := faddV f rm a m.flip

def fsqrtEff : Eff := pureEff fun g x => x.fresult (fsqrtV (fmtOf g.n) x.rm g.f)

def fmaEff : Eff := pureEff fun g x => x.fresult (fmaV (fmtOf g.n) x.rm (regF g.n x.a) (regF g.n x.x) g.f)

def fminmaxEff (least : Bool) : Eff := pureEff fun g x =>
  x.fresult (fminmax (fmtOf g.n) least (low g.w x.a) (g.m % 2 ^ g.w))

/-- FCMP (R90, R126): IV only for a signalling NaN. -/
def fcmpEff : Eff := pureEff fun g x =>
  let a := regF g.n x.a
  let k := compareV a g.f
  ((x.setFlags (cmpFlags k)).setPred g.pt (condFloat g.cond k)).raiseExc { Exc.none with iv := a.snan || g.f.snan }

/-- Convert between formats (R128): NaNs give the canonical NaN. -/
def convertV (f : Fmt) (rm : Nat) : FVal → FRes
  | .nan b => nanRes f b
  | .inf n => (f.infBits n, .none)
  | .fin n m e => roundF f rm n m e

/-- FCVT: from the format that SIZE names to the other (R128). -/
def fcvtEff : Eff := pureEff fun g x =>
  x.fresult (convertV (if g.n = 4 then binary64 else binary32) x.rm (regF g.n x.a))

/-- The signed 64-bit integer of a value, with its exceptions (R128, R129). -/
def toInt (rm : Nat) : FVal → Nat × Exc
  | .nan _ => (0, { Exc.none with iv := true })
  | .inf n => (if n then 2 ^ 63 else 2 ^ 63 - 1, { Exc.none with iv := true })
  | .fin n m e =>
    let (q, inexact) := roundAt rm n m e 0
    let v : Int := if n then -(q : Int) else q
    if v < -(2 ^ 63) then (2 ^ 63, { Exc.none with iv := true })
    else if (2 ^ 63 : Int) ≤ v then (2 ^ 63 - 1, { Exc.none with iv := true })
    else (lowBits 64 v, { Exc.none with nx := inexact })

/-- FCVTI (R128, R129). -/
def fcvtiEff : Eff := pureEff fun g x => x.fresult (toInt x.rm (regF g.n x.a))

/-- ICVTF (R128): a zero integer gives +0. -/
def icvtfEff : Eff := pureEff fun g x =>
  let v := signedOf 64 x.a.toNat
  x.fresult (roundF (fmtOf g.n) x.rm (decide (v < 0)) v.natAbs 0)

end Sys2Proof.Machine
end

