-- ==== Sys2Proof/Machine/FpOps.lean ====
section
/-! DEFINITION. The binary floating-point instructions (R121 to R133): the meaning of each, and the command that runs
it. -/
namespace Sys2Proof.Machine

/-- FCMP (R90, R126). -/
def semFcmp : Sem := .val .read fcmpEff
def execFcmp (c : Fin 32) (u : QUnit) (s : State) : Res := plain c u .fcmp semFcmp s

/-- FADD (R124). -/
def semFadd : Sem := .val .read (floatOp faddV)
def execFadd (c : Fin 32) (u : QUnit) (s : State) : Res := plain c u .fadd semFadd s

/-- FSUB (R124). -/
def semFsub : Sem := .val .read (floatOp fsubV)
def execFsub (c : Fin 32) (u : QUnit) (s : State) : Res := plain c u .fsub semFsub s

/-- FMUL (R124). -/
def semFmul : Sem := .val .read (floatOp fmulV)
def execFmul (c : Fin 32) (u : QUnit) (s : State) : Res := plain c u .fmul semFmul s

/-- FDIV (R124). -/
def semFdiv : Sem := .val .read (floatOp fdivV)
def execFdiv (c : Fin 32) (u : QUnit) (s : State) : Res := plain c u .fdiv semFdiv s

/-- FSQRT (R124). -/
def semFsqrt : Sem := .val .read fsqrtEff
def execFsqrt (c : Fin 32) (u : QUnit) (s : State) : Res := plain c u .fsqrt semFsqrt s

/-- FMA (R124). -/
def semFma : Sem := .val .read fmaEff
def execFma (c : Fin 32) (u : QUnit) (s : State) : Res := plain c u .fma semFma s

/-- FMIN (R125). -/
def semFmin : Sem := .val .read (fminmaxEff true)
def execFmin (c : Fin 32) (u : QUnit) (s : State) : Res := plain c u .fmin semFmin s

/-- FMAX (R125). -/
def semFmax : Sem := .val .read (fminmaxEff false)
def execFmax (c : Fin 32) (u : QUnit) (s : State) : Res := plain c u .fmax semFmax s

/-- FCVT (R128). -/
def semFcvt : Sem := .val .none fcvtEff
def execFcvt (c : Fin 32) (u : QUnit) (s : State) : Res := plain c u .fcvt semFcvt s

/-- FCVTI (R128, R129). -/
def semFcvti : Sem := .val .none fcvtiEff
def execFcvti (c : Fin 32) (u : QUnit) (s : State) : Res := plain c u .fcvti semFcvti s

/-- ICVTF (R128). -/
def semIcvtf : Sem := .val .none icvtfEff
def execIcvtf (c : Fin 32) (u : QUnit) (s : State) : Res := plain c u .icvtf semIcvtf s

end Sys2Proof.Machine
end

