-- ==== Sys2Proof/Machine/IntOps.lean ====
section
/-! DEFINITION. The integer instructions (R103 to R106): the meaning of each, and the command that runs it. -/
namespace Sys2Proof.Machine

/-- LD (R103, R104). -/
def semLd : Sem := .val .read ldEff
def execLd (c : Fin 32) (u : QUnit) (s : State) : Res := plain c u .ld semLd s

/-- ST (R103, R104). -/
def semSt : Sem := .val .write stEff
def execSt (c : Fin 32) (u : QUnit) (s : State) : Res := plain c u .st semSt s

/-- LDX (R103, R104). -/
def semLdx : Sem := .val .read ldxEff
def execLdx (c : Fin 32) (u : QUnit) (s : State) : Res := plain c u .ldx semLdx s

/-- STX (R103, R104). -/
def semStx : Sem := .val .write stxEff
def execStx (c : Fin 32) (u : QUnit) (s : State) : Res := plain c u .stx semStx s

/-- LDY (R103, R104). -/
def semLdy : Sem := .val .read ldyEff
def execLdy (c : Fin 32) (u : QUnit) (s : State) : Res := plain c u .ldy semLdy s

/-- STY (R103, R104). -/
def semSty : Sem := .val .write styEff
def execSty (c : Fin 32) (u : QUnit) (s : State) : Res := plain c u .sty semSty s

/-- LEAX (R103, R104). -/
def semLeax : Sem := .val .addr leaxEff
def execLeax (c : Fin 32) (u : QUnit) (s : State) : Res := plain c u .leax semLeax s

/-- LEAY (R103, R104). -/
def semLeay : Sem := .val .addr leayEff
def execLeay (c : Fin 32) (u : QUnit) (s : State) : Res := plain c u .leay semLeay s

/-- XCHG (R104). -/
def semXchg : Sem := .val .rmw xchgEff
def execXchg (c : Fin 32) (u : QUnit) (s : State) : Res := plain c u .xchg semXchg s

/-- ADD (R105). -/
def semAdd : Sem := .val .read (alu addR)
def execAdd (c : Fin 32) (u : QUnit) (s : State) : Res := plain c u .add semAdd s

/-- ADC (R105). -/
def semAdc : Sem := .val .read (alu adcR)
def execAdc (c : Fin 32) (u : QUnit) (s : State) : Res := plain c u .adc semAdc s

/-- SUB (R105). -/
def semSub : Sem := .val .read (alu subR)
def execSub (c : Fin 32) (u : QUnit) (s : State) : Res := plain c u .sub semSub s

/-- SBB (R105). -/
def semSbb : Sem := .val .read (alu sbbR)
def execSbb (c : Fin 32) (u : QUnit) (s : State) : Res := plain c u .sbb semSbb s

/-- AND (R105). -/
def semAnd : Sem := .val .read (alu andR)
def execAnd (c : Fin 32) (u : QUnit) (s : State) : Res := plain c u .and semAnd s

/-- OR (R105). -/
def semOr : Sem := .val .read (alu orR)
def execOr (c : Fin 32) (u : QUnit) (s : State) : Res := plain c u .or semOr s

/-- XOR (R105). -/
def semXor : Sem := .val .read (alu xorR)
def execXor (c : Fin 32) (u : QUnit) (s : State) : Res := plain c u .xor semXor s

/-- SHL (R105). -/
def semShl : Sem := .val .read (alu shlR)
def execShl (c : Fin 32) (u : QUnit) (s : State) : Res := plain c u .shl semShl s

/-- SHR (R105). -/
def semShr : Sem := .val .read (alu shrR)
def execShr (c : Fin 32) (u : QUnit) (s : State) : Res := plain c u .shr semShr s

/-- SAR (R105). -/
def semSar : Sem := .val .read (alu sarR)
def execSar (c : Fin 32) (u : QUnit) (s : State) : Res := plain c u .sar semSar s

/-- ROL (R105). -/
def semRol : Sem := .val .read (alu rolR)
def execRol (c : Fin 32) (u : QUnit) (s : State) : Res := plain c u .rol semRol s

/-- ROR (R105). -/
def semRor : Sem := .val .read (alu rorR)
def execRor (c : Fin 32) (u : QUnit) (s : State) : Res := plain c u .ror semRor s

/-- TST (R105). -/
def semTst : Sem := .val .read tstEff
def execTst (c : Fin 32) (u : QUnit) (s : State) : Res := plain c u .tst semTst s

/-- CMP (R90, R105). -/
def semCmp : Sem := .val .read (compare signedOf)
def execCmp (c : Fin 32) (u : QUnit) (s : State) : Res := plain c u .cmp semCmp s

/-- CMPU (R90, R105). -/
def semCmpu : Sem := .val .read (compare zeroExt)
def execCmpu (c : Fin 32) (u : QUnit) (s : State) : Res := plain c u .cmpu semCmpu s

/-- MUL (R105). -/
def semMul : Sem := .val .read (alu mulR)
def execMul (c : Fin 32) (u : QUnit) (s : State) : Res := plain c u .mul semMul s

/-- MULH (R105). -/
def semMulh : Sem := .val .read (alu mulhR)
def execMulh (c : Fin 32) (u : QUnit) (s : State) : Res := plain c u .mulh semMulh s

/-- MULHU (R105). -/
def semMulhu : Sem := .val .read (alu mulhuR)
def execMulhu (c : Fin 32) (u : QUnit) (s : State) : Res := plain c u .mulhu semMulhu s

/-- DIV (R106). -/
def semDiv : Sem := .val .read (divide divR)
def execDiv (c : Fin 32) (u : QUnit) (s : State) : Res := plain c u .div semDiv s

/-- DIVU (R106). -/
def semDivu : Sem := .val .read (divide divuR)
def execDivu (c : Fin 32) (u : QUnit) (s : State) : Res := plain c u .divu semDivu s

/-- REM (R106). -/
def semRem : Sem := .val .read (divide remR)
def execRem (c : Fin 32) (u : QUnit) (s : State) : Res := plain c u .rem semRem s

/-- REMU (R106). -/
def semRemu : Sem := .val .read (divide remuR)
def execRemu (c : Fin 32) (u : QUnit) (s : State) : Res := plain c u .remu semRemu s

/-- MVAX (R103, R104). -/
def semMvax : Sem := .val .none mvaxEff
def execMvax (c : Fin 32) (u : QUnit) (s : State) : Res := plain c u .mvax semMvax s

/-- MVXA (R103, R104). -/
def semMvxa : Sem := .val .none mvxaEff
def execMvxa (c : Fin 32) (u : QUnit) (s : State) : Res := plain c u .mvxa semMvxa s

/-- MVAY (R103, R104). -/
def semMvay : Sem := .val .none mvayEff
def execMvay (c : Fin 32) (u : QUnit) (s : State) : Res := plain c u .mvay semMvay s

/-- MVYA (R103, R104). -/
def semMvya : Sem := .val .none mvyaEff
def execMvya (c : Fin 32) (u : QUnit) (s : State) : Res := plain c u .mvya semMvya s

/-- NOT (R105). -/
def semNot : Sem := .val .none notEff
def execNot (c : Fin 32) (u : QUnit) (s : State) : Res := plain c u .not semNot s

/-- NEG (R105). -/
def semNeg : Sem := .val .none negEff
def execNeg (c : Fin 32) (u : QUnit) (s : State) : Res := plain c u .neg semNeg s

/-- XCHG X (R103). -/
def semXchgX : Sem := .val .none xchgXEff
def execXchgX (c : Fin 32) (u : QUnit) (s : State) : Res := plain c u .xchgX semXchgX s

/-- XCHG Y (R103). -/
def semXchgY : Sem := .val .none xchgYEff
def execXchgY (c : Fin 32) (u : QUnit) (s : State) : Res := plain c u .xchgY semXchgY s

end Sys2Proof.Machine
end

