-- ==== Sys2Proof/Machine/Power.lean ====
section
/-! DEFINITION. Power, resets by ball, clocks, rails, sensors, the I3C target and the JTAG port (18, 19). -/
namespace Sys2Proof.Machine

/-! ## Power and nRESET -/

/-- The image that a boot without a choice from outside takes: the active flash slot (R393). -/
def activeImage (s : State) : BootImage := .slot (if s.crp.kept.flashSlot = 0 then 0 else 1)

/-- Tamper balls that stand at their active level fire again after a reset has cleared CIPH_ALARM (R306). -/
def tamperAgain (s : State) : State :=
  ([0, 1, 2, 3].filter fun j => bitOf s.ciph.active j).foldl alarmIfEnabled s

/-- POWER_ON (R358): every rail is valid and the P reset runs; with nRESET asserted it waits for the release. -/
def execPowerOn (img : BootImage) (s : State) : Res :=
  let t := pReset s
  done (if s.crp.nresetLow then { t with crp := { t.crp with boot := .waitRails } } else tamperAgain (boot t img))

/-- An assertion of nRESET is accepted (R382). -/
def nresetTaken (lowCycles : Nat) (accepted : Bool) : Bool :=
  decide (25 ≤ lowCycles) || (accepted && decide (4 ≤ lowCycles))

/-- NRESET (R356, R359): an M reset that lasts until the release; before boot, and during an M reset, it only holds. -/
def execNreset (lowCycles : Nat) (accepted : Bool) (s : State) : Res :=
  let t := { s with crp := { s.crp with nresetLow := true } }
  done (if !nresetTaken lowCycles accepted || !s.crp.vstby then s
    else if s.crp.boot = .running ∨ s.crp.boot = .fwStart then mReset t 1
    else t)

/-- Nothing holds the module: nRESET, the thermal trip, a rail. -/
def unheld (s : State) : Bool := !s.crp.nresetLow && !s.crp.thermTrip && decide (s.crp.railsLow = 0) && s.crp.vstby

/-- The sequence that waited for a release goes on (R358, R359). -/
def resumeBoot (s : State) (img : BootImage) : State :=
  if !unheld s then s
  else if s.crp.boot = .mReset then afterM s img
  else if s.crp.boot = .waitRails then tamperAgain (boot s img)
  else s

/-- NRESET_RELEASE (R358, R359). -/
def execNresetRelease (img : BootImage) (s : State) : Res :=
  done (if s.crp.nresetLow then resumeBoot { s with crp := { s.crp with nresetLow := false } } img else s)

/-- Every temperature sensor reads below 110 °C (R371). -/
def coolEnough (s : State) : Bool := (List.range 24).all fun k => decide ((s.sens (6 + k)).value.toInt < 110000)

/-- THERMAL_TRIP_RELEASE (R359, R371). -/
def execThermalTripRelease (s : State) : Res :=
  done (if s.crp.thermTrip && coolEnough s then resumeBoot { s with crp := { s.crp with thermTrip := false } } (activeImage s)
    else s)

/-- RAIL_FAILURE (R378): the voltage alarm; every domain but AON stops until POWER_ON. -/
def execRailFailure (rail : Fin 6) (s : State) : Res :=
  if !s.crp.vstby then done s
  else
    let t := alarmIfEnabled s 4
    done (if rail.val = 5 then t
      else { t with crp := { t.crp with railsLow := setBit t.crp.railsLow rail.val true, boot := .waitRails, pll := 0 } })

/-- VSTBY_LOSS (R378): all module state ends. -/
def execVstbyLoss (s : State) : Res :=
  let t := pReset s
  done { t with crp := { t.crp with vstby := false } }

/-- BLOCK_RESET (R357); control accesses that waited for a credit of the block are sent once it is out of reset (R20). -/
def execBlockReset (b : Blk) (s : State) : Res := act s (flushCtl (soloRelease (blockReset s b)))

/-! ## Clocks and rails -/

/-- PLL_LOCK_LOSS (R348, R354, R355). -/
def execPllLockLoss (j : Fin 6) (s : State) : Res :=
  let t := { s with crp := { s.crp with pll := setBit s.crp.pll j.val false } }
  act s (if j.val = 5 then card { t with time := { t.time with clkfault := true } } 310 3 0 0 0 else card t 330 1 0 j 0)

/-- RAIL_CHECK (R370). -/
def execRailCheck (rail : Fin 6) (outside : Bool) (s : State) : Res := act s (if outside then card s 331 1 0 rail 0 else s)

/-! ## Sensors -/

/-- SENS_VALs takes a new reading (R369, R373). -/
def sensorRead (s : State) (n : Nat) (raw : BitVec 16) (ok : Bool) : State :=
  s.setSens n { s.sens n with value := sensorValue s n raw, raw := raw, valid := ok }

/-- The software limits of a sensor are checked: leaving the range trips (R371). -/
def sensorLimits (s : State) (n : Nat) : State :=
  let x := s.sens n
  let now := outOfRange x.thr x.value
  let s := s.setSens n { x with outside := now }
  if now && !x.outside then
    raise { s with crp := { s.crp with sensTrip := setBit s.crp.sensTrip n true } } 306
  else s


/-- The thermal trip (R371, R387): an M reset that is held. -/
def thermalTrip (s : State) : State :=
  let s := { s with crp := { s.crp with thermTrip := true, i3cIbi := some 2#8 } }
  if s.crp.boot = .running ∨ s.crp.boot = .fwStart then mReset s 3 else s

/-- A reading beyond the fixed limits fires the sensor's alarm; a temperature above 125 °C is also the trip (R306, R371). -/
def sensorFires (s : State) (n : Nat) : State :=
  if !sensorAlarms s n then s
  else
    let t := alarmIfEnabled s (sensorSource n)
    if sensorSource n = 5 ∧ 125000 < (s.sens n).value.toInt then thermalTrip t else t

/-- SENSOR_UPDATE (R370, R371, R373). -/
def execSensorUpdate (n : Fin 32) (raw : BitVec 16) (selfCheck : Bool) (s : State) : Res :=
  if !s.crp.vstby then done s
  else
    let t := sensorRead s n raw selfCheck
    done (sensorFires (if !s.live then t else if selfCheck then sensorLimits t n else card t 332 1 0 n 0) n)

/-- An alarm comparator finds a value beyond its fixed limits (R371). -/
def alarmFires : AlarmKind → Bool
  | .voltage rail v => decide (v.toInt < (railLimits rail).1) || decide ((railLimits rail).2 < v.toInt)
  | .temperature _ v => decide (125000 < v.toInt) || decide (v.toInt < -45000)
  | .glitch v => decide (v.toInt < 8000) || decide (12000 < v.toInt)

/-- SENSOR_ALARM (R306, R371). -/
def execSensorAlarm (a : AlarmKind) (s : State) : Res :=
  done (if !s.crp.vstby || !alarmFires a then s
    else
      match a with
      | .voltage _ _ => alarmIfEnabled s 4
      | .temperature _ v => if 125000 < v.toInt then thermalTrip (alarmIfEnabled s 5) else alarmIfEnabled s 5
      | .glitch _ => alarmIfEnabled s 6)

/-! ## JTAG and I3C -/

/-- JTAG_INSTRUCTION (R388, R396). -/
def execJtagInstruction (ir : JtagIr) (s : State) : Res :=
  let open' := decide (ir = .bypass) || decide (ir = .idcode)
  let drives := decide (ir = .extest) || decide (ir = .clamp) || decide (ir = .highz)
  let e := if s.aud.sealed && !open' then JtagIr.bypass else if drives && !s.crp.nresetLow then .sample else ir
  done { s with aud := { s.aud with ir := e } }

/-- I3C_STATE[2:0] (R387). -/
def Boot.code : Boot → Nat
  | .aonOnly => 0
  | .waitRails => 1
  | .pllLock => 2
  | .fwStart => 3
  | .running => 4
  | .mReset => 5

/-- The rail that feeds a sensor (R368, R376; log entry 21). -/
def railOf (n : Nat) : Nat := if n < 6 then n else if n < 24 then 0 else if n < 30 then 1 else 4

/-- A register of the I3C target (R387); none for an offset it does not hold. -/
def i3cReg (s : State) (off : Nat) : Option Word :=
  if off = 0 then some (w64 (0x4800 + s.crp.kept.revision.toNat * 2 ^ 16 + s.crp.kept.serial.toNat * 2 ^ 32))
  else if off = 8 then some (w64 s.crp.kept.vcore.toNat)
  else if off = 0x10 then
    some (w64 (s.crp.boot.code + b2n (s.fcr.hold || s.fcr.pulse) * 2 ^ 8 + b2n s.crp.thermTrip * 2 ^ 9 +
      b2n s.aud.sealed * 2 ^ 10))
  else if off = 0x18 then some (regVal s .mgmt .crpRstcause)
  else
    match elem off 0x100 8 32 with
    | none => none
    | some n => some (setBit (regVal s .mgmt (.sensVal n)) 63 ((s.sens n).valid && !bitOf s.crp.railsLow (railOf n)))

/-- I3C_READ (R387): an offset that is unaligned or names no register is NACKed, shown as no completion. -/
def execI3cRead (off : BitVec 16) (s : State) : Res :=
  done (if !s.crp.vstby then s
    else
      match i3cReg s off.toNat with
      | some v => complete s (.data v)
      | none => complete s .none)

/-- I3C_ADDRESS_ASSIGN (R387). -/
def execI3cAddressAssign (addr : BitVec 7) (s : State) : Res :=
  done (if s.crp.vstby then { s with crp := { s.crp with i3cAddr := some addr } } else s)

end Sys2Proof.Machine
end

