-- ==== Sys2Proof/Machine/SysOps.lean ====
section
/-! DEFINITION. Branches, calls and returns (R64, R85, R406), cache operations (R173, R174), barriers (R148, R152, R153),
WAIT (R364), RNDA (R352), TRAP (R74) and RETI (R78, R83). -/
namespace Sys2Proof.Machine

/-! ## Branches -/

/-- A BR or CALL with a register or memory mode (R149). DESIGN CHOICE (log entry 111): the absolute mode counts as direct. -/
def indirect (m : Mode) : Bool :=
  match m with
  | .pcrel _ => false
  | .abs _ => false
  | _ => true

/-- A taken branch leaves its traces in the predictor (R149, R150). -/
def noteTaken (k : Call) (target : Word) (s : State) : State :=
  let cond := match k.f with
    | .long p _ _ _ => decide (p ≠ 0)
    | _ => false
  let s := noteTarget s k.c k.ipc (indirect (modeOf k.f)) target
  if cond then noteDirection s k.c k.ipc (decide (target.toNat < k.ipc.toNat)) true else s

/-- BR: PC = the effective address (R64). -/
def branch (k : Call) (s : State) : Except Stop State :=
  let x := s.ctx k.c
  let target := evenPc (k.ea x)
  let s := noteTaken k target s
  .ok (s.setCtx k.c { k.stepped (s.ctx k.c) with pc := target, rep := false })

/-- CALL: the target first, then the mode's change of S, then the push (R406). -/
def callTo (k : Call) (s : State) : Except Stop State :=
  let x := s.ctx k.c
  let target := evenPc (k.ea x)
  let y := k.stepped x
  let sp := y.s - 8
  match put k.c sp.toNat 8 k.next.toNat (s.setCtx k.c y) with
  | .error e => .error e
  | .ok t =>
    let t := noteTaken k target t
    .ok (t.setCtx k.c { ((t.ctx k.c).moveS sp).pushRas k.next with pc := target, rep := false })

/-- RET: PC from the 8 bytes at S, then S = S + 8 (R406). -/
def returnTo (k : Call) (s : State) : Except Stop State :=
  let sp := (s.ctx k.c).s
  match load k.c sp.toNat 8 s with
  | .error e => .error e
  | .ok (t, v) => .ok (t.setCtx k.c { ((t.ctx k.c).moveS (sp + 8)).popRas with pc := evenPc (w64 v), rep := false })

/-! ## Traps and waiting -/

/-- RETI: a delivery that the context takes at this boundary comes first, with the RETI's own address (R83); else the
return (R78). -/
def retiBody (k : Call) (s : State) : Except Stop State :=
  if (takeable s k.c).isSome then takeInterrupt k.c s else returnFrom k.c s

/-- TRAP n: vector 20h + n, with the next instruction as return PC (R74, R77). -/
def trapBody (k : Call) (s : State) : Except Stop State :=
  let t : Trap := { vec := 0x20 + layoutOf k.f % 256, detail := 0, fetch := false, write := false, sw := true, aux := 0 }
  enter k.c (trapEntry (s.ctx k.c) k.next t []) s

/-- WAIT (R364): completes at once with WK = 1 when a wake source is present, else the context enters NAP. -/
def waitBody (k : Call) (s : State) : Except Stop State :=
  let x := s.ctx k.c
  .ok (s.setCtx k.c
    (if wakeSource s k.c then { x with pc := k.next, ps := setBit x.ps 16 true, wakeLatch := false, rep := false }
     else { x with run := .nap, waitLen := k.len, rep := false }))

/-! ## Barriers -/

/-- FENCE (R148): in a model that runs one unit at a time every earlier access has taken effect; the operand-file entries
are dropped (R144). -/
def fenceBody (k : Call) (s : State) : Except Stop State := .ok (fenced k.c s)

/-- PFLUSH (R152): the pair's tables, and the executing context's history and return stack. -/
def pflushBody (k : Call) (s : State) : Except Stop State :=
  let s := mapPred s k.c fun _ => []
  .ok (s.setCtx k.c { s.ctx k.c with hist := 0, histSpec := 0, ras := [], rasSpec := [] })

/-- PBAR and PUNBAR (R153). -/
def pbarEff : Eff := pureEff fun _ x => { x with barrier := if x.barrier < 15 then x.barrier + 1 else x.barrier }
def punbarEff : Eff := pureEff fun _ x => { x with barrier := x.barrier - 1 }

/-- CT.ON and CT.OFF (R71). -/
def ctEff (b : Bool) : Eff := pureEff fun _ x => x.setCt b

/-- RNDA (R352): 64 bits of the DRBG with C = 0, or 0 with C = 1. -/
def rndaBody (k : Call) (s : State) : Except Stop State :=
  let x := s.ctx k.c
  .ok (if drbgUp s then
         let q := drbgDraw s
         q.1.setCtx k.c { x with a := q.2, ps := setBit x.ps 1 false }
       else s.setCtx k.c { x with a := 0, ps := setBit x.ps 1 true })

/-! ## Cache operations -/

/-- A line of a cache operation waits (R163, R164, R172). -/
def opBusy (s : State) (c ln : Nat) : Bool := lineBusy s c true (ln * 128) 128 ln || fillingAnywhere s ln

/-- The line at a physical address leaves every cache of the module, written back where dirty (R174). -/
def flushLine (s : State) (ln : Nat) : State := dropAll s ln

/-- CFLUSH (R174, R145): checked as a read; the operand-file entries of the line are dropped. It waits for a line that is
FILLING (R163, R164). -/
def cflushBody (k : Call) (s : State) : Except Stop State :=
  let ea := (k.ea (s.ctx k.c)).toNat
  match checkSpans k.c .read ea 1 s with
  | .error e => .error e
  | .ok (t, l) =>
    let lines := (l.filter fun sp => decide (sp.region = .memory)).map fun sp => sp.pa / 128
    if lines.any (opBusy t k.c) then .error .wait
    else
      let t := lines.foldl flushLine t
      .ok (t.setCtx k.c (k.stepped ((t.ctx k.c).dropOpLines fun ln => lines.contains ln)))

/-- The parts of a range in its pages, from an address on: fuel counts pages. -/
def rangePieces : Nat → Nat → Nat → List (Nat × Nat)
  | 0, _, _ => []
  | k + 1, a, n =>
    let m := 4096 - a % 4096
    if n ≤ m then [(wrap64 a, n)] else (wrap64 a, m) :: rangePieces k (a + m) (n - m)

/-- The range of a CINVR (R92): A bytes from the effective address, rounded outward to whole lines. DESIGN CHOICE (log
entry 112): the bytes count from the effective address itself, not from the start of its line. -/
def cinvrRange (ea a : Nat) : List (Nat × Nat) :=
  if a = 0 then []
  else
    let lo := ea / 128 * 128
    let n := (ea + a + 127) / 128 * 128 - lo
    rangePieces (n / 4096 + 2) lo n

/-- The checks of a CINVR range (R173, R55, R407): every page as a read. -/
def cinvrSpans (c : Nat) (l : List (Nat × Nat)) (s : State) : Except Stop (State × List Span) :=
  match spansOf c .read l s with
  | .error e => .error e
  | .ok (t, sp) =>
    match sp.findSome? (privTrap (s.ctx c).mode .read) with
    | some e => .error e
    | none =>
      match sp.findSome? (placeTrap .read) with
      | some e => .error e
      | none => .ok (t, sp)

/-- A line lies in checked spans of memory. -/
def inSpans (l : List Span) (ln : Nat) : Bool :=
  l.any fun sp => decide (sp.region = .memory) && decide (sp.pa / 128 ≤ ln) && decide (ln * 128 < sp.pa + sp.len)

/-- CINVR on an L1 within an L2 (R173): X = 0. -/
def cinvrL1 (s : State) (o : Nat) (code : Bool) (hit : Nat → Bool) : State × Nat :=
  (setCaches s { s.caches with
    l1 := s.caches.l1.filter fun l => !(decide (l.pair = o) && (l.code == code) && hit l.line) }, 0)

/-- CINVR on an L2 (R173): dirty lines are written back first; lines in locked ways stay unless INCLUDE_LOCKED. -/
def cinvrL2 (s : State) (o : Nat) (locked : Bool) (hit : Nat → Bool) : State × Nat :=
  let mine := s.caches.l2.filter fun l => decide (l.owner = o) && hit l.line
  let stays (l : CLine) : Bool := !locked && bitOf s.caches.l2lock l.way
  let out := mine.filter fun l => !stays l
  (out.foldl (fun t l => writeBack (dropL2 t o l.line) l) s,
   (mine.filter stays).length)

/-- CINVR on the L3 (R173). -/
def cinvrL3 (s : State) (locked : Bool) (hit : CLine → Bool) : State × Nat :=
  let mine := s.caches.l3.filter hit
  let stays (l : CLine) : Bool := !locked && bitOf s.caches.l3lock l.way
  let out := mine.filter fun l => !stays l
  (out.foldl (fun t l => dropL3 t l.line) s, (mine.filter stays).length)

/-- The INV bit that a CINVR of a whole cache sets while the cache is OFF and no line was skipped (R171). -/
def setInv (s : State) (c p cache skipped : Nat) : State :=
  let x := s.pctl p
  if skipped ≠ 0 then s
  else if cache = 0 then (if x.l1i = .off then s.setPctl p { x with l1iInv := true } else s)
  else if cache = 1 then (if x.l1d = .off then s.setPctl p { x with l1dInv := true } else s)
  else if cache = 2 then (if x.l2 = .off then s.setPctl p { x with l2Inv := true } else s)
  else if s.caches.l3st = .off ∧ s.owner c < 4 then setCaches s { s.caches with l3inv := true }
  else s

/-- The lines that a whole-L3 CINVR of a context reaches (R173). -/
def wholeL3 (s : State) (c : Nat) (l : CLine) : Bool :=
  decide (s.owner c < 4) || bitOf (s.caches.l3mask.get (s.owner c) 0xFFFFFFFF#32) l.way

/-- CINVR over lines (R173, R171): the lines skipped in X. -/
def cinvrLines (k : Call) (whole : Bool) (hit : Nat → Bool) (s : State) : State :=
  let lay := layoutOf k.f
  let o := cacheOf s k.c
  let cache := lay / 2 ^ 12 % 8
  let locked := lay.testBit 10
  let q :=
    if cache = 0 then cinvrL1 s o true hit
    else if cache = 1 then cinvrL1 s o false hit
    else if cache = 2 then cinvrL2 s o locked hit
    else cinvrL3 s locked fun l => hit l.line && (!whole || wholeL3 s k.c l)
  let t := if whole then setInv q.1 k.c (pairOf s k.c) cache q.2 else q.1
  t.setCtx k.c (k.stepped { (t.ctx k.c).dropOpLines hit with x := w64 q.2 })

/-- CINVR (R92, R173, R145). -/
def cinvrBody (k : Call) (s : State) : Except Stop State :=
  if (layoutOf k.f).testBit 11 then .ok (cinvrLines k true (fun _ => true) s)
  else
    match cinvrSpans k.c (cinvrRange (k.ea (s.ctx k.c)).toNat (s.ctx k.c).a.toNat) s with
    | .error e => .error e
    | .ok (t, l) =>
      if t.caches.l2.any fun q => inSpans l q.line && lineBusy t k.c true (q.line * 128) 128 q.line then .error .wait
      else .ok (cinvrLines k false (inSpans l) t)

/-! ## The instructions -/

/-- BR (R64, R85). -/
def semBr : Sem := .sys true branch
def execBr (c : Fin 32) (u : QUnit) (s : State) : Res := plain c u .br semBr s

/-- CALL (R64, R406). -/
def semCall : Sem := .sys true callTo
def execCall (c : Fin 32) (u : QUnit) (s : State) : Res := plain c u .call semCall s

/-- RET (R406). -/
def semRet : Sem := .sys true returnTo
def execRet (c : Fin 32) (u : QUnit) (s : State) : Res := plain c u .ret semRet s

/-- RETI (R78, R83). -/
def semReti : Sem := .sys true retiBody
def execReti (c : Fin 32) (u : QUnit) (s : State) : Res := plain c u .reti semReti s

/-- TRAP (R74, R75). -/
def semTrap : Sem := .sys true trapBody
def execTrap (c : Fin 32) (u : QUnit) (s : State) : Res := plain c u .trap semTrap s

/-- WAIT (R364). -/
def semWait : Sem := .sys true waitBody
def execWait (c : Fin 32) (u : QUnit) (s : State) : Res := plain c u .wait semWait s

/-- CFLUSH (R174). -/
def semCflush : Sem := .sys false cflushBody
def execCflush (c : Fin 32) (u : QUnit) (s : State) : Res := plain c u .cflush semCflush s

/-- CINVR (R92, R173). -/
def semCinvr : Sem := .sys false cinvrBody
def execCinvr (c : Fin 32) (u : QUnit) (s : State) : Res := plain c u .cinvr semCinvr s

/-- FENCE (R148, R144). -/
def semFence : Sem := .sys false fenceBody
def execFence (c : Fin 32) (u : QUnit) (s : State) : Res := plain c u .fence semFence s

/-- PFLUSH (R152). -/
def semPflush : Sem := .sys false pflushBody
def execPflush (c : Fin 32) (u : QUnit) (s : State) : Res := plain c u .pflush semPflush s

/-- PBAR (R153). -/
def semPbar : Sem := .val .none pbarEff
def execPbar (c : Fin 32) (u : QUnit) (s : State) : Res := plain c u .pbar semPbar s

/-- PUNBAR (R153). -/
def semPunbar : Sem := .val .none punbarEff
def execPunbar (c : Fin 32) (u : QUnit) (s : State) : Res := plain c u .punbar semPunbar s

/-- RNDA (R352). -/
def semRnda : Sem := .sys false rndaBody
def execRnda (c : Fin 32) (u : QUnit) (s : State) : Res := plain c u .rnda semRnda s

/-- CT.ON (R71). -/
def semCtOn : Sem := .val .none (ctEff true)
def execCtOn (c : Fin 32) (u : QUnit) (s : State) : Res := plain c u .ctOn semCtOn s

/-- CT.OFF (R71). -/
def semCtOff : Sem := .val .none (ctEff false)
def execCtOff (c : Fin 32) (u : QUnit) (s : State) : Res := plain c u .ctOff semCtOff s

end Sys2Proof.Machine
end

