-- ==== Sys2Proof/Machine/UnitCmds.lean ====
section
/-! DEFINITION. The units whose command does not name the operation by itself: REP (R69), LOCK (R70), encodings that trap
(R102); and the resolution of a misprediction (R150). -/
namespace Sys2Proof.Machine

/-- The meaning of every operation, as its own command runs it. -/
def semOf : QOp → Sem
  | .ld => semLd
  | .st => semSt
  | .ldx => semLdx
  | .stx => semStx
  | .ldy => semLdy
  | .sty => semSty
  | .leax => semLeax
  | .leay => semLeay
  | .xchg => semXchg
  | .add => semAdd
  | .adc => semAdc
  | .sub => semSub
  | .sbb => semSbb
  | .and => semAnd
  | .or => semOr
  | .xor => semXor
  | .shl => semShl
  | .shr => semShr
  | .sar => semSar
  | .rol => semRol
  | .ror => semRor
  | .tst => semTst
  | .cmp => semCmp
  | .cmpu => semCmpu
  | .mul => semMul
  | .mulh => semMulh
  | .mulhu => semMulhu
  | .div => semDiv
  | .divu => semDivu
  | .rem => semRem
  | .remu => semRemu
  | .br => semBr
  | .call => semCall
  | .cflush => semCflush
  | .cinvr => semCinvr
  | .fcmp => semFcmp
  | .fadd => semFadd
  | .fsub => semFsub
  | .fmul => semFmul
  | .fdiv => semFdiv
  | .fsqrt => semFsqrt
  | .fma => semFma
  | .fmin => semFmin
  | .fmax => semFmax
  | .dad => semDad
  | .dsb => semDsb
  | .dmul => semDmul
  | .drnd => semDrnd
  | .dcmp => semDcmp
  | .dval => semDval
  | .dadExt => semDadExt
  | .dsbExt => semDsbExt
  | .dmulExt => semDmulExt
  | .drndExt => semDrndExt
  | .dcmpExt => semDcmpExt
  | .dvalExt => semDvalExt
  | .ret => semRet
  | .reti => semReti
  | .wait => semWait
  | .trap => semTrap
  | .fence => semFence
  | .pflush => semPflush
  | .pbar => semPbar
  | .punbar => semPunbar
  | .rnda => semRnda
  | .mvax => semMvax
  | .mvxa => semMvxa
  | .mvay => semMvay
  | .mvya => semMvya
  | .not => semNot
  | .neg => semNeg
  | .xchgX => semXchgX
  | .xchgY => semXchgY
  | .fcvt => semFcvt
  | .fcvti => semFcvti
  | .icvtf => semIcvtf
  | .dcvb => semDcvb
  | .dcvbExt => semDcvbExt
  | .bcvd => semBcvd
  | .ctOn => semCtOn
  | .ctOff => semCtOff

/-- REP_ITERATION (R69): X = 0 retires the unit; otherwise one iteration, then X - 1. -/
def execRepIteration (c : Fin 32) (op : QOp) (low : BitVec 8) (f : Form) (s : State) : Res :=
  unitOp c (.rep low) op f (semOf op) s

/-- LOCK (R70). -/
def execLock (c : Fin 32) (op : QOp) (low : BitVec 8) (f : Form) (s : State) : Res :=
  unitOp c (.lock low) op f (semOf op) s

/-- UNDEFINED_ENCODING (R102, R86): the trap that the halfwords raise; halfwords of a defined unit run as that unit. -/
def execUndefinedEncoding (c : Fin 32) (h0 h1 h2 : HWord) (s : State) : Res :=
  match decodeUnit h0 h1 h2 with
  | .unit pre op f => unitOp c pre op f (semOf op) s
  | .bad vec words => unitCmd c words false (fun _ => .error (plainTrap vec 0)) s

/-- An address of a context translates without a page walk (R154). -/
def walkFree (x : Ctx) (va : Nat) : Bool := !bitOf x.ttb 0 || x.tlb.any fun q => q.covers (va57 va)

/-- What a mispredicted path may read (R154): in a barrier region only instructions, with no page walk. -/
def wrongAllowed (x : Ctx) (code : Bool) (va : Nat) : Bool := decide (x.barrier = 0) || (code && walkFree x va)

/-- One read on a mispredicted path (R155 to R157): it may keep a translation and fill the caches of its L2, and does no
more; where it would trap, wait or leave cacheable memory it does not happen, and an error that it meets is not reported. -/
def wrongRead (c : Nat) (s : State) (q : Bool × Word) : State :=
  if !wrongAllowed (s.ctx c) q.1 q.2.toNat then s
  else
    match checkSpans c { (if q.1 then Acc.code else Acc.read) with spec := true } q.2.toNat 1 s with
    | .error _ => s
    | .ok (t, l) =>
      l.foldl (fun t sp =>
        if decide (sp.region = .memory) && !sp.nc && !lineBusy t c true sp.pa 1 (sp.pa / 128) then
          touch t c q.1 false sp.pa 1
        else t) t

/-- MISPREDICT_RESOLVE (R150, R155): the reads of the mispredicted path, then its resolution. -/
def execMispredictResolve (c : Fin 32) (branch target : Word) (indirect : Bool) (s : State)
    (wrong : List (Bool × Word) := []) : Res :=
  act s (if runnable s c then mispredict (wrong.foldl (wrongRead c) s) c branch target indirect else s)

end Sys2Proof.Machine
end

