-- ==== Sys2Proof/Machine/Dispatch.lean ====
section
/-! DEFINITION. One arm per command. -/
namespace Sys2Proof.Machine

def exec (i : Instr) (s : State) : Host.Outcome State Fault Refusal :=
  match i with
  | .ld c u => Sys2Proof.Machine.execLd c u s
  | .st c u => Sys2Proof.Machine.execSt c u s
  | .ldx c u => Sys2Proof.Machine.execLdx c u s
  | .stx c u => Sys2Proof.Machine.execStx c u s
  | .ldy c u => Sys2Proof.Machine.execLdy c u s
  | .sty c u => Sys2Proof.Machine.execSty c u s
  | .leax c u => Sys2Proof.Machine.execLeax c u s
  | .leay c u => Sys2Proof.Machine.execLeay c u s
  | .xchg c u => Sys2Proof.Machine.execXchg c u s
  | .add c u => Sys2Proof.Machine.execAdd c u s
  | .adc c u => Sys2Proof.Machine.execAdc c u s
  | .sub c u => Sys2Proof.Machine.execSub c u s
  | .sbb c u => Sys2Proof.Machine.execSbb c u s
  | .and c u => Sys2Proof.Machine.execAnd c u s
  | .or c u => Sys2Proof.Machine.execOr c u s
  | .xor c u => Sys2Proof.Machine.execXor c u s
  | .shl c u => Sys2Proof.Machine.execShl c u s
  | .shr c u => Sys2Proof.Machine.execShr c u s
  | .sar c u => Sys2Proof.Machine.execSar c u s
  | .rol c u => Sys2Proof.Machine.execRol c u s
  | .ror c u => Sys2Proof.Machine.execRor c u s
  | .tst c u => Sys2Proof.Machine.execTst c u s
  | .cmp c u => Sys2Proof.Machine.execCmp c u s
  | .cmpu c u => Sys2Proof.Machine.execCmpu c u s
  | .mul c u => Sys2Proof.Machine.execMul c u s
  | .mulh c u => Sys2Proof.Machine.execMulh c u s
  | .mulhu c u => Sys2Proof.Machine.execMulhu c u s
  | .div c u => Sys2Proof.Machine.execDiv c u s
  | .divu c u => Sys2Proof.Machine.execDivu c u s
  | .rem c u => Sys2Proof.Machine.execRem c u s
  | .remu c u => Sys2Proof.Machine.execRemu c u s
  | .br c u => Sys2Proof.Machine.execBr c u s
  | .call c u => Sys2Proof.Machine.execCall c u s
  | .cflush c u => Sys2Proof.Machine.execCflush c u s
  | .cinvr c u => Sys2Proof.Machine.execCinvr c u s
  | .fcmp c u => Sys2Proof.Machine.execFcmp c u s
  | .fadd c u => Sys2Proof.Machine.execFadd c u s
  | .fsub c u => Sys2Proof.Machine.execFsub c u s
  | .fmul c u => Sys2Proof.Machine.execFmul c u s
  | .fdiv c u => Sys2Proof.Machine.execFdiv c u s
  | .fsqrt c u => Sys2Proof.Machine.execFsqrt c u s
  | .fma c u => Sys2Proof.Machine.execFma c u s
  | .fmin c u => Sys2Proof.Machine.execFmin c u s
  | .fmax c u => Sys2Proof.Machine.execFmax c u s
  | .dad c u => Sys2Proof.Machine.execDad c u s
  | .dsb c u => Sys2Proof.Machine.execDsb c u s
  | .dmul c u => Sys2Proof.Machine.execDmul c u s
  | .drnd c u => Sys2Proof.Machine.execDrnd c u s
  | .dcmp c u => Sys2Proof.Machine.execDcmp c u s
  | .dval c u => Sys2Proof.Machine.execDval c u s
  | .dadExt c u => Sys2Proof.Machine.execDadExt c u s
  | .dsbExt c u => Sys2Proof.Machine.execDsbExt c u s
  | .dmulExt c u => Sys2Proof.Machine.execDmulExt c u s
  | .drndExt c u => Sys2Proof.Machine.execDrndExt c u s
  | .dcmpExt c u => Sys2Proof.Machine.execDcmpExt c u s
  | .dvalExt c u => Sys2Proof.Machine.execDvalExt c u s
  | .ret c u => Sys2Proof.Machine.execRet c u s
  | .reti c u => Sys2Proof.Machine.execReti c u s
  | .wait c u => Sys2Proof.Machine.execWait c u s
  | .trap c u => Sys2Proof.Machine.execTrap c u s
  | .fence c u => Sys2Proof.Machine.execFence c u s
  | .pflush c u => Sys2Proof.Machine.execPflush c u s
  | .pbar c u => Sys2Proof.Machine.execPbar c u s
  | .punbar c u => Sys2Proof.Machine.execPunbar c u s
  | .rnda c u => Sys2Proof.Machine.execRnda c u s
  | .mvax c u => Sys2Proof.Machine.execMvax c u s
  | .mvxa c u => Sys2Proof.Machine.execMvxa c u s
  | .mvay c u => Sys2Proof.Machine.execMvay c u s
  | .mvya c u => Sys2Proof.Machine.execMvya c u s
  | .not c u => Sys2Proof.Machine.execNot c u s
  | .neg c u => Sys2Proof.Machine.execNeg c u s
  | .xchgX c u => Sys2Proof.Machine.execXchgX c u s
  | .xchgY c u => Sys2Proof.Machine.execXchgY c u s
  | .fcvt c u => Sys2Proof.Machine.execFcvt c u s
  | .fcvti c u => Sys2Proof.Machine.execFcvti c u s
  | .icvtf c u => Sys2Proof.Machine.execIcvtf c u s
  | .dcvb c u => Sys2Proof.Machine.execDcvb c u s
  | .dcvbExt c u => Sys2Proof.Machine.execDcvbExt c u s
  | .bcvd c u => Sys2Proof.Machine.execBcvd c u s
  | .ctOn c u => Sys2Proof.Machine.execCtOn c u s
  | .ctOff c u => Sys2Proof.Machine.execCtOff c u s
  | .repIteration c op low f => Sys2Proof.Machine.execRepIteration c op low f s
  | .lock c op low f => Sys2Proof.Machine.execLock c op low f s
  | .interruptEntry c => Sys2Proof.Machine.execInterruptEntry c s
  | .entryTakeover c source cycle => Sys2Proof.Machine.execEntryTakeover c source cycle s
  | .mctEntry c => Sys2Proof.Machine.execMctEntry c s
  | .resetEntry c => Sys2Proof.Machine.execResetEntry c s
  | .mispredictResolve c branch target indirect wrong => Sys2Proof.Machine.execMispredictResolve c branch target indirect s wrong
  | .operandEntryAgeOut c slot => Sys2Proof.Machine.execOperandEntryAgeOut c slot s
  | .ctxTlbinvWrite c v => Sys2Proof.Machine.execCtxTlbinvWrite c v s
  | .ctxTtbWrite c v => Sys2Proof.Machine.execCtxTtbWrite c v s
  | .lineFill c line way sector ecc code => Sys2Proof.Machine.execLineFill c line way sector ecc s code
  | .snoop p line invalidate => Sys2Proof.Machine.execSnoop p line invalidate s
  | .cachePctlWrite r p v => Sys2Proof.Machine.execCachePctlWrite r p v s
  | .cacheL3ctlWrite r v => Sys2Proof.Machine.execCacheL3ctlWrite r v s
  | .cacheDrainComplete d => Sys2Proof.Machine.execCacheDrainComplete d s
  | .cacheScrub errs => Sys2Proof.Machine.execCacheScrub errs s
  | .memoryRequest op line err mispredicted => Sys2Proof.Machine.execMemoryRequest op line err s mispredicted
  | .patrolScrub errs => Sys2Proof.Machine.execPatrolScrub errs s
  | .queueEntry q ecc pl => Sys2Proof.Machine.execQueueEntry q ecc pl s
  | .creditReturn q => Sys2Proof.Machine.execCreditReturn q s
  | .controlWrite r off w v => Sys2Proof.Machine.execControlWrite r off w v s
  | .mgmtBar0Request write off len v => Sys2Proof.Machine.execMgmtBar0Request write off len v s
  | .letRollback p cause copy slot async => Sys2Proof.Machine.execLetRollback p cause copy slot async s
  | .umpireCodeError p slot => Sys2Proof.Machine.execUmpireCodeError p s slot
  | .benchSelfTestDone b pass => Sys2Proof.Machine.execBenchSelfTestDone b pass s
  | .substitutionResume p pauseNs => Sys2Proof.Machine.execSubstitutionResume p pauseNs s
  | .handoverComplete p => Sys2Proof.Machine.execHandoverComplete p s
  | .slotWindowWrite r p slot off v => Sys2Proof.Machine.execSlotWindowWrite r p slot off v s
  | .eventArrival source inst innings => Sys2Proof.Machine.execEventArrival source inst innings s
  | .evtBallChange n level held sampled => Sys2Proof.Machine.execEvtBallChange n level held sampled s
  | .msixWrite port data => Sys2Proof.Machine.execMsixWrite port data s
  | .ertSelection => Sys2Proof.Machine.execErtSelection s
  | .deliveryArrival c => Sys2Proof.Machine.execDeliveryArrival c s
  | .deliveryWithdrawal c => Sys2Proof.Machine.execDeliveryWithdrawal c s
  | .ertMasksetWrite r k v => Sys2Proof.Machine.execErtMasksetWrite r k v s
  | .ertMaskclrWrite r k v => Sys2Proof.Machine.execErtMaskclrWrite r k v s
  | .ertPendWrite r k v => Sys2Proof.Machine.execErtPendWrite r k v s
  | .ertSwraise r v => Sys2Proof.Machine.execErtSwraise r v s
  | .ertSrcWrite r n v => Sys2Proof.Machine.execErtSrcWrite r n v s
  | .ertEoi c => Sys2Proof.Machine.execErtEoi c s
  | .ertEoic r c => Sys2Proof.Machine.execErtEoic r c s
  | .faultCard f => Sys2Proof.Machine.execFaultCard f s
  | .fcrClose r v => Sys2Proof.Machine.execFcrClose r v s
  | .fcrPinWrite r v => Sys2Proof.Machine.execFcrPinWrite r v s
  | .nerrPulseEnd => Sys2Proof.Machine.execNerrPulseEnd s
  | .mbGoStart r mb => Sys2Proof.Machine.execMbGoStart r mb s
  | .mbGoContinue r mb => Sys2Proof.Machine.execMbGoContinue r mb s
  | .mbGoAbort r mb => Sys2Proof.Machine.execMbGoAbort r mb s
  | .commandCheck mb => Sys2Proof.Machine.execCommandCheck mb s
  | .commandDispatch => Sys2Proof.Machine.execCommandDispatch s
  | .substitute mb => Sys2Proof.Machine.execSubstitute mb s
  | .splitPair mb => Sys2Proof.Machine.execSplitPair mb s
  | .joinPair mb => Sys2Proof.Machine.execJoinPair mb s
  | .wayDelete mb => Sys2Proof.Machine.execWayDelete mb s
  | .memChannelOffline mb => Sys2Proof.Machine.execMemChannelOffline mb s
  | .memChannelRebuild mb ev => Sys2Proof.Machine.execMemChannelRebuild mb ev s
  | .keyLoad mb => Sys2Proof.Machine.execKeyLoad mb s
  | .keyErase mb => Sys2Proof.Machine.execKeyErase mb s
  | .formatLoad mb => Sys2Proof.Machine.execFormatLoad mb s
  | .instanceCreate mb => Sys2Proof.Machine.execInstanceCreate mb s
  | .instanceReset mb => Sys2Proof.Machine.execInstanceReset mb s
  | .instanceDrainComplete k2 => Sys2Proof.Machine.execInstanceDrainComplete k2 s
  | .todSet mb => Sys2Proof.Machine.execTodSet mb s
  | .todSetNoPps mb => Sys2Proof.Machine.execTodSetNoPps mb s
  | .todSteer mb => Sys2Proof.Machine.execTodSteer mb s
  | .sensorCalibrate mb => Sys2Proof.Machine.execSensorCalibrate mb s
  | .fwStage mb => Sys2Proof.Machine.execFwStage mb s
  | .fwActivate mb => Sys2Proof.Machine.execFwActivate mb s
  | .fwDrainLimitExpiry => Sys2Proof.Machine.execFwDrainLimitExpiry s
  | .fwImageSwitchDone ok => Sys2Proof.Machine.execFwImageSwitchDone ok s
  | .sequencerUpdateStep => Sys2Proof.Machine.execSequencerUpdateStep s
  | .attest mb => Sys2Proof.Machine.execAttest mb s
  | .faultLogRead mb => Sys2Proof.Machine.execFaultLogRead mb s
  | .warmReset mb => Sys2Proof.Machine.execWarmReset mb s
  | .warmResetWaitExpiry => Sys2Proof.Machine.execWarmResetWaitExpiry s
  | .duplexBind mb => Sys2Proof.Machine.execDuplexBind mb s
  | .duplexBindTimeout => Sys2Proof.Machine.execDuplexBindTimeout s
  | .duplexSyncComplete => Sys2Proof.Machine.execDuplexSyncComplete s
  | .duplexTakeover mb => Sys2Proof.Machine.execDuplexTakeover mb s
  | .lkWrite mb => Sys2Proof.Machine.execLkWrite mb s
  | .chanDoorbell r k v issued => Sys2Proof.Machine.execChanDoorbell r k v s issued
  | .chanBindFresh r k => Sys2Proof.Machine.execChanBindFresh r k s
  | .chanBindSync r k => Sys2Proof.Machine.execChanBindSync r k s
  | .chanUnbind r k => Sys2Proof.Machine.execChanUnbind r k s
  | .unbindComplete k => Sys2Proof.Machine.execUnbindComplete k s
  | .chanJtailWrite r k2 v => Sys2Proof.Machine.execChanJtailWrite r k2 v s
  | .sendSchedule port => Sys2Proof.Machine.execSendSchedule port s
  | .dataMessage port h payload => Sys2Proof.Machine.execDataMessage port h payload s
  | .ackMessage h => Sys2Proof.Machine.execAckMessage h s
  | .nakMessage h reason => Sys2Proof.Machine.execNakMessage h reason s
  | .syncReq port h => Sys2Proof.Machine.execSyncReq port h s
  | .syncRsp h rxExpect rxMap opids => Sys2Proof.Machine.execSyncRsp h rxExpect rxMap opids s
  | .syncSkip h => Sys2Proof.Machine.execSyncSkip h s
  | .e2eTimeout k seq => Sys2Proof.Machine.execE2eTimeout k seq s
  | .rnrRetryTimer k seq => Sys2Proof.Machine.execRnrRetryTimer k seq s
  | .nopathTimeout k seq => Sys2Proof.Machine.execNopathTimeout k seq s
  | .syncTimeout k => Sys2Proof.Machine.execSyncTimeout k s
  | .flitWindow port => Sys2Proof.Machine.execFlitWindow port s
  | .flitReceived port f => Sys2Proof.Machine.execFlitReceived port f s
  | .linkReplayTimeout port => Sys2Proof.Machine.execLinkReplayTimeout port s
  | .laneFailure port lane => Sys2Proof.Machine.execLaneFailure port lane s
  | .linkSilenceTimeout port => Sys2Proof.Machine.execLinkSilenceTimeout port s
  | .trainingComplete port ok => Sys2Proof.Machine.execTrainingComplete port ok s
  | .retrainTimer port => Sys2Proof.Machine.execRetrainTimer port s
  | .pcieInboundRequest port req => Sys2Proof.Machine.execPcieInboundRequest port req s
  | .rootPortLinkEvent port ev requester => Sys2Proof.Machine.execRootPortLinkEvent port ev requester s
  | .mgperst asserted => Sys2Proof.Machine.execMgperst asserted s
  | .mirrorWrite line mask data rtype => Sys2Proof.Machine.execMirrorWrite line mask data s rtype
  | .mirrorJhead inst head => Sys2Proof.Machine.execMirrorJhead inst head s
  | .mirrorCkptCommit buf c => Sys2Proof.Machine.execMirrorCkptCommit buf c s
  | .appliedCount n => Sys2Proof.Machine.execAppliedCount n s
  | .dupxSyncRead r => Sys2Proof.Machine.execDupxSyncRead r s
  | .heartbeatSend => Sys2Proof.Machine.execHeartbeatSend s
  | .heartbeat role modid st bind => Sys2Proof.Machine.execHeartbeat role modid st s bind
  | .partnerLoss => Sys2Proof.Machine.execPartnerLoss s
  | .fenceFlit => Sys2Proof.Machine.execFenceFlit s
  | .relinquish => Sys2Proof.Machine.execRelinquish s
  | .takeoverComplete => Sys2Proof.Machine.execTakeoverComplete s
  | .checkpoint c boundary => Sys2Proof.Machine.execCheckpoint c boundary s
  | .zipSubmit r n v issued => Sys2Proof.Machine.execZipSubmit r n v s issued
  | .zipChunk n internalError => Sys2Proof.Machine.execZipChunk n internalError s
  | .ciphSubmit r k v issued => Sys2Proof.Machine.execCiphSubmit r k v s issued
  | .cipherUnit k laneError => Sys2Proof.Machine.execCipherUnit k laneError s
  | .tamperAlarm j level cycles => Sys2Proof.Machine.execTamperAlarm j level cycles s
  | .sensorAlarm a => Sys2Proof.Machine.execSensorAlarm a s
  | .keyErasureComplete => Sys2Proof.Machine.execKeyErasureComplete s
  | .ciphAlarmClear r v => Sys2Proof.Machine.execCiphAlarmClear r v s
  | .instCtxownWrite r c v => Sys2Proof.Machine.execInstCtxownWrite r c v s
  | .bucketRefill => Sys2Proof.Machine.execBucketRefill s
  | .todTick u => Sys2Proof.Machine.execTodTick u s
  | .deadlineReached k => Sys2Proof.Machine.execDeadlineReached k s
  | .timeDlarmWrite r v => Sys2Proof.Machine.execTimeDlarmWrite r v s
  | .timeNowfRead r lag => Sys2Proof.Machine.execTimeNowfRead r lag s
  | .timeRead who => Sys2Proof.Machine.execTimeRead who s
  | .ppsEdge rising sub => Sys2Proof.Machine.execPpsEdge rising sub s
  | .holdoverEntry => Sys2Proof.Machine.execHoldoverEntry s
  | .holdoverCorrection => Sys2Proof.Machine.execHoldoverCorrection s
  | .ppsOutPulseEnd => Sys2Proof.Machine.execPpsOutPulseEnd s
  | .entropyStartTest raw => Sys2Proof.Machine.execEntropyStartTest raw s
  | .healthTestFailure raw => Sys2Proof.Machine.execHealthTestFailure raw s
  | .entropyRestart => Sys2Proof.Machine.execEntropyRestart s
  | .drbgReseed raw => Sys2Proof.Machine.execDrbgReseed s raw
  | .drbgSeedTimeout => Sys2Proof.Machine.execDrbgSeedTimeout s
  | .powerOn img => Sys2Proof.Machine.execPowerOn img s
  | .nreset lowCycles accepted => Sys2Proof.Machine.execNreset lowCycles accepted s
  | .thermalTripRelease => Sys2Proof.Machine.execThermalTripRelease s
  | .blockReset b => Sys2Proof.Machine.execBlockReset b s
  | .contextReset c => Sys2Proof.Machine.execContextReset c s
  | .contextRelease c => Sys2Proof.Machine.execContextRelease c s
  | .contextWakeWrite c => Sys2Proof.Machine.execContextWakeWrite c s
  | .napWake c => Sys2Proof.Machine.execNapWake c s
  | .gateEntry p wakeBeforeOff => Sys2Proof.Machine.execGateEntry p wakeBeforeOff s
  | .gateExit p => Sys2Proof.Machine.execGateExit p s
  | .pllLockLoss j => Sys2Proof.Machine.execPllLockLoss j s
  | .railCheck rail outside => Sys2Proof.Machine.execRailCheck rail outside s
  | .railFailure rail => Sys2Proof.Machine.execRailFailure rail s
  | .vstbyLoss => Sys2Proof.Machine.execVstbyLoss s
  | .sensorUpdate k raw selfCheck => Sys2Proof.Machine.execSensorUpdate k raw selfCheck s
  | .dbgCtlWrite r v => Sys2Proof.Machine.execDbgCtlWrite r v s
  | .dbgHaltWrite r v => Sys2Proof.Machine.execDbgHaltWrite r v s
  | .csacc write off data => Sys2Proof.Machine.execCsacc write off data s
  | .jtagInstruction ir => Sys2Proof.Machine.execJtagInstruction ir s
  | .i3cRead off => Sys2Proof.Machine.execI3cRead off s
  | .i3cAddressAssign addr => Sys2Proof.Machine.execI3cAddressAssign addr s
  | .controlRead r off w => Sys2Proof.Machine.execControlRead r off w s
  | .undefinedEncoding c h0 h1 h2 => Sys2Proof.Machine.execUndefinedEncoding c h0 h1 h2 s
  | .nresetRelease img => Sys2Proof.Machine.execNresetRelease img s
  | .relinquishTimeout => Sys2Proof.Machine.execRelinquishTimeout s
  | .watchdogRestart => Sys2Proof.Machine.execWatchdogRestart s
  | .mgmtLinkError uncorrectable => Sys2Proof.Machine.execMgmtLinkError uncorrectable s

end Sys2Proof.Machine
end

