-- ==== Sys2Proof/Safety.lean ====
section
/-! DEFINITION. What claims say about a run: that a command completes, when the module serves commands, when a unit of a
context starts, and what a state that a run may reach looks like. -/
namespace Sys2Proof.Machine

/-! ## Outcomes -/

/-- A command completes: it answers a next state. -/
def Completes (i : Instr) (s : State) : Prop := ∃ t, exec i s = .next t

/-- A step completes. -/
def StepCompletes (s : State) : Prop := ∃ t, step s = .next t

/-- The module runs, and nothing that an earlier command ordered is left to do: the FCR has taken every card, and no reset
waits. -/
structure Calm (s : State) : Prop where
  live : s.live = true
  quiet : quiet s = true

/-- No block's event and no block's card waits for a credit (R12): what one sends arrives. -/
structure Flows (s : State) : Prop where
  credits : ∀ q ∈ s.bus.queues, q.credits ≠ 0
  noCards : s.bus.waitCards = []
  noEvents : s.bus.waitEvents = []

/-- A requester can issue an access to an offset: it holds a credit of the block there, and no access of any requester waits
for one (R12). -/
structure Issues (s : State) (r : Req) (off : Nat) : Prop where
  credit : noCredit s .controlAccess (reqNumber r) (ctlBlock off) = false
  noneWait : s.bus.waitCtl = []

/-- A 64-bit control write of a requester is issued, passes the checks of R26 and reaches a register, in a calm module. -/
structure Reaches (s : State) (r : Req) (off : Nat) (g : Reg) : Prop where
  calm : Calm s
  issues : Issues s r off
  passes : ctlCheck s r true off 8 = .ok g

/-- A doorbell or a submission carries the instance and the innings that its requester has now. -/
def IssuedNow (s : State) (r : Req) (issued : Option Issue) : Prop :=
  issued = none ∨ issued = some { inst := BitVec.ofNat 8 (reqInst s r), innings := s.inningsOf (reqInst s r) }

/-- The firmware takes up the command of an opcode that mailbox n runs: x is the mailbox from then on, t the state. -/
structure TakesUp (s : State) (n op : Nat) (x : Mailbox) (t : State) : Prop where
  live : s.live = true
  runs : running s n op = true
  first : (s.mb n).step = 0
  box : x = { s.mb n with step := 1 }
  state : t = s.setMb n x

/-! ## Units -/

/-- The command of a plain unit of an operation. -/
def unitInstr : QOp → Fin 32 → QUnit → Instr
  | .ld => .ld
  | .st => .st
  | .ldx => .ldx
  | .stx => .stx
  | .ldy => .ldy
  | .sty => .sty
  | .leax => .leax
  | .leay => .leay
  | .xchg => .xchg
  | .add => .add
  | .adc => .adc
  | .sub => .sub
  | .sbb => .sbb
  | .and => .and
  | .or => .or
  | .xor => .xor
  | .shl => .shl
  | .shr => .shr
  | .sar => .sar
  | .rol => .rol
  | .ror => .ror
  | .tst => .tst
  | .cmp => .cmp
  | .cmpu => .cmpu
  | .mul => .mul
  | .mulh => .mulh
  | .mulhu => .mulhu
  | .div => .div
  | .divu => .divu
  | .rem => .rem
  | .remu => .remu
  | .br => .br
  | .call => .call
  | .cflush => .cflush
  | .cinvr => .cinvr
  | .fcmp => .fcmp
  | .fadd => .fadd
  | .fsub => .fsub
  | .fmul => .fmul
  | .fdiv => .fdiv
  | .fsqrt => .fsqrt
  | .fma => .fma
  | .fmin => .fmin
  | .fmax => .fmax
  | .dad => .dad
  | .dsb => .dsb
  | .dmul => .dmul
  | .drnd => .drnd
  | .dcmp => .dcmp
  | .dval => .dval
  | .dadExt => .dadExt
  | .dsbExt => .dsbExt
  | .dmulExt => .dmulExt
  | .drndExt => .drndExt
  | .dcmpExt => .dcmpExt
  | .dvalExt => .dvalExt
  | .ret => .ret
  | .reti => .reti
  | .wait => .wait
  | .trap => .trap
  | .fence => .fence
  | .pflush => .pflush
  | .pbar => .pbar
  | .punbar => .punbar
  | .rnda => .rnda
  | .mvax => .mvax
  | .mvxa => .mvxa
  | .mvay => .mvay
  | .mvya => .mvya
  | .not => .not
  | .neg => .neg
  | .xchgX => .xchgX
  | .xchgY => .xchgY
  | .fcvt => .fcvt
  | .fcvti => .fcvti
  | .icvtf => .icvtf
  | .dcvb => .dcvb
  | .dcvbExt => .dcvbExt
  | .bcvd => .bcvd
  | .ctOn => .ctOn
  | .ctOff => .ctOff

/-- The call that a plain unit makes. -/
def unitCall (c : Fin 32) (u : QUnit) (op : QOp) (s : State) : Call :=
  callOf c (QUnit.pre' u) op u.form ((unitWords (QUnit.pre' u) op u.form).getD []) s

/-- A plain unit starts in s and comes to its effect in t: it is an encoding of the operation, its context is at a
boundary, its fetch succeeds, no trap of R73 ranks 1 to 6 applies, and its predicate is 1. -/
structure UnitStarts (c : Fin 32) (u : QUnit) (op : QOp) (s t : State) : Prop where
  form : (unitWords (QUnit.pre' u) op u.form).isSome = true
  ready : ready s c = true
  noHalt : haltDue s c = false
  begins : beginUnit c (unitCall c u op s).len false s = .ok t
  legal : encTrap (QUnit.pre' u) op u.form = none
  mode : (privileged op && decide ((t.ctx c).mode = 0)) = false
  pred : (t.ctx c).pred (predOf (QUnit.pre' u) u.form) = true

/-- A unit of any prefix starts in s and is fetched, in t, with no trap of its encoding or its privilege, and its call is k. -/
structure PrefixStarts (c : Fin 32) (pre : Pre) (op : QOp) (f : Form) (s t : State) (k : Call) : Prop where
  form : (unitWords pre op f).isSome = true
  call : k = callOf c pre op f ((unitWords pre op f).getD []) s
  ready : ready s c = true
  noHalt : haltDue s c = false
  begins : beginUnit c k.len pre.isRep s = .ok t
  legal : encTrap pre op f = none
  mode : (privileged op && decide ((t.ctx c).mode = 0)) = false

/-- The end of a unit that has loaded PC itself: its group retires, and a W reset that waits for it goes on. -/
def ownEnd (c : Nat) (t : State) : State := settle (warmStops (groupDone c t))

/-- The end of a unit that leaves PC to the sequence: PC goes to the next unit. -/
def unitEnd (k : Call) (v : State) : State := ownEnd k.c (retire k false v)

/-- An instruction on registers alone: eff gives the context after it, from the unit, the bits of its operand and the
context before it. -/
def RegUnit (mk : Fin 32 → QUnit → Instr) (op : QOp) (eff : QUnit → Nat → Ctx → Ctx) : Prop :=
  ∀ c u s t, UnitStarts c u op s t →
    exec (mk c u) s =
      .next (unitEnd (unitCall c u op s) (t.setCtx c (eff u (8 * operandBytes op u.form) (t.ctx c))))

/-- An instruction that takes the effective address and reads nothing: eff has the address too. -/
def AddrUnit (mk : Fin 32 → QUnit → Instr) (op : QOp) (eff : Word → Ctx → Ctx) : Prop :=
  ∀ c u s t, UnitStarts c u op s t →
    exec (mk c u) s =
      .next (unitEnd (unitCall c u op s)
        (t.setCtx c ((unitCall c u op s).stepped (eff ((unitCall c u op s).ea (t.ctx c)) (t.ctx c)))))

/-- An instruction with an operand m of W bits that it reads: eff has W and m too. Where ok fails it traps instead. -/
def ReadUnit (mk : Fin 32 → QUnit → Instr) (op : QOp) (ok : Form → Nat → Nat → Ctx → Prop)
    (eff : Form → Nat → Nat → Ctx → Ctx) : Prop :=
  ∀ c u s t v l m, UnitStarts c u op s t → operand (unitCall c u op s) .read false t = .ok (v, l, m) →
    ok u.form (8 * operandBytes op u.form) (m % 2 ^ (8 * operandBytes op u.form)) (v.ctx c) →
    exec (mk c u) s =
      .next (unitEnd (unitCall c u op s) (v.setCtx c ((unitCall c u op s).stepped
        (eff u.form (8 * operandBytes op u.form) (m % 2 ^ (8 * operandBytes op u.form)) (v.ctx c)))))

/-- No condition. -/
def always (_ : Form) (_ _ : Nat) (_ : Ctx) : Prop := True

/-- An instruction that stores val to its operand, after the mode has stepped its register; eff is what it does to the
context before, ok what it asks of it. -/
def StoreUnit (mk : Fin 32 → QUnit → Instr) (op : QOp) (use : Use) (ok : Form → Nat → Nat → Ctx → Prop)
    (val : Form → Nat → Ctx → Nat) (eff : Form → Nat → Nat → Ctx → Ctx) : Prop :=
  ∀ c u s t v l m z, UnitStarts c u op s t → operand (unitCall c u op s) use false t = .ok (v, l, m) →
    ok u.form (8 * operandBytes op u.form) (m % 2 ^ (8 * operandBytes op u.form)) (v.ctx c) →
    putSpans c (stackMode (modeOf u.form)) (decide (use = .rmw)) .store ((unitCall c u op s).ea (t.ctx c)).toNat (operandBytes op u.form) l
        (leBytes (operandBytes op u.form) (val u.form (8 * operandBytes op u.form) (v.ctx c)))
        (v.setCtx c ((unitCall c u op s).stepped
          (eff u.form (8 * operandBytes op u.form) (m % 2 ^ (8 * operandBytes op u.form)) (v.ctx c)))) = .ok z →
    exec (mk c u) s = .next (unitEnd (unitCall c u op s) z)

/-- An instruction traps at a vector from its operand, where bad holds: the entry of R76, with the unit's own address. -/
def ReadTraps (mk : Fin 32 → QUnit → Instr) (op : QOp) (use : Use) (vec : Nat) (bad : Form → Nat → Nat → Ctx → Prop) :
    Prop :=
  ∀ c u s t v l m, UnitStarts c u op s t → operand (unitCall c u op s) use false t = .ok (v, l, m) →
    bad u.form (8 * operandBytes op u.form) (m % 2 ^ (8 * operandBytes op u.form)) (v.ctx c) →
    exec (mk c u) s =
      entryRes s ((enter c (trapEntry (s.ctx c) (s.ctx c).pc
        { vec := vec, detail := 0, fetch := false, write := false, sw := false, aux := 0 }
        ((unitWords (QUnit.pre' u) op u.form).getD [])) s).map (groupDone c))

/-- An instruction whose meaning works on the whole state, and leaves PC to the sequence: eff is the state after it. -/
def SysUnit (mk : Fin 32 → QUnit → Instr) (op : QOp) (eff : Call → State → State) : Prop :=
  ∀ c u s t, UnitStarts c u op s t →
    exec (mk c u) s = .next (unitEnd (unitCall c u op s) (eff (unitCall c u op s) t))

/-! ## A context that reaches memory directly -/

/-- Memory is in its canonical form. -/
def MemoryCanonical (s : State) : Prop := Memory.wf s.mem

/-- Context c runs with translation off, the caches are OFF and empty, no line is poisoned, as after a reset (R170), and
memory is in its canonical form: an address is a physical address and every access goes to memory. -/
structure Bare (s : State) (c : Nat) : Prop where
  canonical : MemoryCanonical s
  flat : bitOf (s.ctx c).ttb 0 = false
  l2off : (s.pctl (cacheOf s c % 18)).l2 = .off
  l3off : s.caches.l3st = .off
  noL1 : s.caches.l1 = []
  noL2 : s.caches.l2 = []
  noL3 : s.caches.l3 = []
  noPoison : s.caches.poison = []

/-! ## Invariants -/

/-- MODE of every context is one that R51 allows: 10b is never held. -/
def ModesLegal (s : State) : Prop := ∀ c, (s.ctx c).mode ≠ 2

/-- Every PC lies on a halfword (R85). -/
def PcsEven (s : State) : Prop := ∀ c, bitOf (s.ctx c).pc 0 = false

end Sys2Proof.Machine
end

