-- ==== Sys2Proof/WellFormed.lean ====
section
/-! DEFINITION. Which terms of Instr are commands of the spec's language. A term that is none is refused by the meanings
with Refusal.illFormed; every well-formed command has a next state. -/
namespace Sys2Proof
open Sys2Proof.Machine

/-- The operation has a form with these fields (R84 to R101). -/
def unitWf (op : QOp) (u : QUnit) : Bool := (unitWords (QUnit.pre' u) op u.form).isSome

/-- A command is well formed: a unit is a word sequence of R84, a card names a source and kind of R236, a lane exists on
its port (R264, R323), a PCIe request has 1 to 512 bytes (R271), a WRITE record carries its sectors and JHEAD and CKPT_COMMIT are rows of their own
(R324), a queue carries units of its own class (R12). -/
def wellFormed : Instr → Bool
  | .ld _ u => unitWf .ld u
  | .st _ u => unitWf .st u
  | .ldx _ u => unitWf .ldx u
  | .stx _ u => unitWf .stx u
  | .ldy _ u => unitWf .ldy u
  | .sty _ u => unitWf .sty u
  | .leax _ u => unitWf .leax u
  | .leay _ u => unitWf .leay u
  | .xchg _ u => unitWf .xchg u
  | .add _ u => unitWf .add u
  | .adc _ u => unitWf .adc u
  | .sub _ u => unitWf .sub u
  | .sbb _ u => unitWf .sbb u
  | .and _ u => unitWf .and u
  | .or _ u => unitWf .or u
  | .xor _ u => unitWf .xor u
  | .shl _ u => unitWf .shl u
  | .shr _ u => unitWf .shr u
  | .sar _ u => unitWf .sar u
  | .rol _ u => unitWf .rol u
  | .ror _ u => unitWf .ror u
  | .tst _ u => unitWf .tst u
  | .cmp _ u => unitWf .cmp u
  | .cmpu _ u => unitWf .cmpu u
  | .mul _ u => unitWf .mul u
  | .mulh _ u => unitWf .mulh u
  | .mulhu _ u => unitWf .mulhu u
  | .div _ u => unitWf .div u
  | .divu _ u => unitWf .divu u
  | .rem _ u => unitWf .rem u
  | .remu _ u => unitWf .remu u
  | .br _ u => unitWf .br u
  | .call _ u => unitWf .call u
  | .cflush _ u => unitWf .cflush u
  | .cinvr _ u => unitWf .cinvr u
  | .fcmp _ u => unitWf .fcmp u
  | .fadd _ u => unitWf .fadd u
  | .fsub _ u => unitWf .fsub u
  | .fmul _ u => unitWf .fmul u
  | .fdiv _ u => unitWf .fdiv u
  | .fsqrt _ u => unitWf .fsqrt u
  | .fma _ u => unitWf .fma u
  | .fmin _ u => unitWf .fmin u
  | .fmax _ u => unitWf .fmax u
  | .dad _ u => unitWf .dad u
  | .dsb _ u => unitWf .dsb u
  | .dmul _ u => unitWf .dmul u
  | .drnd _ u => unitWf .drnd u
  | .dcmp _ u => unitWf .dcmp u
  | .dval _ u => unitWf .dval u
  | .dadExt _ u => unitWf .dadExt u
  | .dsbExt _ u => unitWf .dsbExt u
  | .dmulExt _ u => unitWf .dmulExt u
  | .drndExt _ u => unitWf .drndExt u
  | .dcmpExt _ u => unitWf .dcmpExt u
  | .dvalExt _ u => unitWf .dvalExt u
  | .ret _ u => unitWf .ret u
  | .reti _ u => unitWf .reti u
  | .wait _ u => unitWf .wait u
  | .trap _ u => unitWf .trap u
  | .fence _ u => unitWf .fence u
  | .pflush _ u => unitWf .pflush u
  | .pbar _ u => unitWf .pbar u
  | .punbar _ u => unitWf .punbar u
  | .rnda _ u => unitWf .rnda u
  | .mvax _ u => unitWf .mvax u
  | .mvxa _ u => unitWf .mvxa u
  | .mvay _ u => unitWf .mvay u
  | .mvya _ u => unitWf .mvya u
  | .not _ u => unitWf .not u
  | .neg _ u => unitWf .neg u
  | .xchgX _ u => unitWf .xchgX u
  | .xchgY _ u => unitWf .xchgY u
  | .fcvt _ u => unitWf .fcvt u
  | .fcvti _ u => unitWf .fcvti u
  | .icvtf _ u => unitWf .icvtf u
  | .dcvb _ u => unitWf .dcvb u
  | .dcvbExt _ u => unitWf .dcvbExt u
  | .bcvd _ u => unitWf .bcvd u
  | .ctOn _ u => unitWf .ctOn u
  | .ctOff _ u => unitWf .ctOff u
  | .repIteration _ op l f => (unitWords (.rep l) op f).isSome
  | .lock _ op l f => (unitWords (.lock l) op f).isSome
  | .interruptEntry .. => true
  | .entryTakeover .. => true
  | .mctEntry .. => true
  | .resetEntry .. => true
  | .mispredictResolve .. => true
  | .operandEntryAgeOut .. => true
  | .ctxTlbinvWrite .. => true
  | .ctxTtbWrite .. => true
  | .lineFill .. => true
  | .snoop .. => true
  | .cachePctlWrite .. => true
  | .cacheL3ctlWrite .. => true
  | .cacheDrainComplete .. => true
  | .cacheScrub .. => true
  | .memoryRequest .. => true
  | .patrolScrub .. => true
  | .queueEntry q _ pl => payloadFits q pl
  | .creditReturn .. => true
  | .controlWrite .. => true
  | .mgmtBar0Request .. => true
  | .letRollback .. => true
  | .umpireCodeError .. => true
  | .benchSelfTestDone .. => true
  | .substitutionResume .. => true
  | .handoverComplete .. => true
  | .slotWindowWrite .. => true
  | .eventArrival .. => true
  | .evtBallChange .. => true
  | .msixWrite .. => true
  | .ertSelection => true
  | .deliveryArrival .. => true
  | .deliveryWithdrawal .. => true
  | .ertMasksetWrite .. => true
  | .ertMaskclrWrite .. => true
  | .ertPendWrite .. => true
  | .ertSwraise .. => true
  | .ertSrcWrite .. => true
  | .ertEoi .. => true
  | .ertEoic .. => true
  | .faultCard f => cardListed f
  | .fcrClose .. => true
  | .fcrPinWrite .. => true
  | .nerrPulseEnd => true
  | .mbGoStart .. => true
  | .mbGoContinue .. => true
  | .mbGoAbort .. => true
  | .commandCheck .. => true
  | .commandDispatch => true
  | .substitute .. => true
  | .splitPair .. => true
  | .joinPair .. => true
  | .wayDelete .. => true
  | .memChannelOffline .. => true
  | .memChannelRebuild .. => true
  | .keyLoad .. => true
  | .keyErase .. => true
  | .formatLoad .. => true
  | .instanceCreate .. => true
  | .instanceReset .. => true
  | .instanceDrainComplete .. => true
  | .todSet .. => true
  | .todSetNoPps .. => true
  | .todSteer .. => true
  | .sensorCalibrate .. => true
  | .fwStage .. => true
  | .fwActivate .. => true
  | .fwDrainLimitExpiry => true
  | .fwImageSwitchDone .. => true
  | .sequencerUpdateStep => true
  | .attest .. => true
  | .faultLogRead .. => true
  | .warmReset .. => true
  | .warmResetWaitExpiry => true
  | .duplexBind .. => true
  | .duplexBindTimeout => true
  | .duplexSyncComplete => true
  | .duplexTakeover .. => true
  | .lkWrite .. => true
  | .chanDoorbell .. => true
  | .chanBindFresh .. => true
  | .chanBindSync .. => true
  | .chanUnbind .. => true
  | .unbindComplete .. => true
  | .chanJtailWrite .. => true
  | .sendSchedule .. => true
  | .dataMessage .. => true
  | .ackMessage .. => true
  | .nakMessage .. => true
  | .syncReq .. => true
  | .syncRsp .. => true
  | .syncSkip .. => true
  | .e2eTimeout .. => true
  | .rnrRetryTimer .. => true
  | .nopathTimeout .. => true
  | .syncTimeout .. => true
  | .flitWindow .. => true
  | .flitReceived .. => true
  | .linkReplayTimeout .. => true
  | .laneFailure port lane => decide (lane.val ≤ spareLane port)
  | .linkSilenceTimeout .. => true
  | .trainingComplete .. => true
  | .retrainTimer .. => true
  | .pcieInboundRequest _ req => decide (1 ≤ pcieSize req) && decide (pcieSize req ≤ 512)
  | .rootPortLinkEvent .. => true
  | .mgperst .. => true
  | .mirrorWrite _ mask data t =>
    decide (t ≠ 2) && decide (t ≠ 3) && (decide (t ≠ 1) || decide (data.length = 16 * sectors mask))
  | .mirrorJhead .. => true
  | .mirrorCkptCommit .. => true
  | .appliedCount .. => true
  | .dupxSyncRead .. => true
  | .heartbeatSend => true
  | .heartbeat .. => true
  | .partnerLoss => true
  | .fenceFlit => true
  | .relinquish => true
  | .takeoverComplete => true
  | .checkpoint .. => true
  | .zipSubmit .. => true
  | .zipChunk .. => true
  | .ciphSubmit .. => true
  | .cipherUnit .. => true
  | .tamperAlarm .. => true
  | .sensorAlarm .. => true
  | .keyErasureComplete => true
  | .ciphAlarmClear .. => true
  | .instCtxownWrite .. => true
  | .bucketRefill => true
  | .todTick .. => true
  | .deadlineReached .. => true
  | .timeDlarmWrite .. => true
  | .timeNowfRead .. => true
  | .timeRead .. => true
  | .ppsEdge .. => true
  | .holdoverEntry => true
  | .holdoverCorrection => true
  | .ppsOutPulseEnd => true
  | .entropyStartTest .. => true
  | .healthTestFailure .. => true
  | .entropyRestart => true
  | .drbgReseed .. => true
  | .drbgSeedTimeout => true
  | .powerOn .. => true
  | .nreset .. => true
  | .thermalTripRelease => true
  | .blockReset .. => true
  | .contextReset .. => true
  | .contextRelease .. => true
  | .contextWakeWrite .. => true
  | .napWake .. => true
  | .gateEntry .. => true
  | .gateExit .. => true
  | .pllLockLoss .. => true
  | .railCheck .. => true
  | .railFailure .. => true
  | .vstbyLoss => true
  | .sensorUpdate .. => true
  | .dbgCtlWrite .. => true
  | .dbgHaltWrite .. => true
  | .csacc .. => true
  | .jtagInstruction .. => true
  | .i3cRead .. => true
  | .i3cAddressAssign .. => true
  | .controlRead .. => true
  | .undefinedEncoding .. => true
  | .nresetRelease .. => true
  | .relinquishTimeout => true
  | .watchdogRestart => true
  | .mgmtLinkError .. => true

end Sys2Proof
end

