-- ==== Sys2Proof/Certificates/Slice0/Obligations.lean ====
section
/-! DEFINITION. The statements for the provers. Each says what a command, a unit or the machine does, in the terms of
Sys2Proof/Safety.lean; OBLIGATIONS.json lists them. -/
open Sys2Proof Sys2Proof.Machine

/-! ## The queue and the encoding -/

/-- Every step of a non-empty queue is exec of the command at its front, with the queue's rest; an empty queue idles (the
model's choice, log entry 3). -/
def Obligations.StepRunsFrontCommand : Prop :=
  (∀ (s : State) (i : Instr) (r : List Instr), s.pending = i :: r → step s = exec i { s with pending := r }) ∧
    ∀ s : State, s.pending = [] → step s = .next s

/-- A unit that the encoding tables write as a sequence of halfwords (R84 to R101) is read back from those halfwords,
whatever follows them, with every field as it was; a prefix stands before no CT.ON and no CT.OFF (R71). -/
def Obligations.DecodeOfEncode : Prop :=
  ∀ (pre : Pre) (op : QOp) (f : Form) (w : List HWord) (h0 h1 h2 : HWord),
    (pre = .none ∨ grpOf op = none) → unitWords pre op f = some w → w = [h0, h1, h2].take w.length →
    decodeUnit h0 h1 h2 = .unit pre op f

/-- What the decoder reads from halfwords encodes to those halfwords: no bit of a unit is dropped; and units of several
families, written out bit by bit from R88, R93, R99 and R101, decode to what they stand for. -/
def Obligations.EncodeOfDecode : Prop :=
  (∀ (pre : Pre) (op : QOp) (f : Form) (h0 h1 h2 : HWord), decodeUnit h0 h1 h2 = .unit pre op f →
    ∃ w, unitWords pre op f = some w ∧ w = [h0, h1, h2].take w.length) ∧
  decodeUnit 0xC909#16 0x8010#16 0 = .unit .none .add (.long 0 1 3 0x10) ∧
  decodeUnit 0x06C3#16 0 0 = .unit .none .ld (.short 3 3 3) ∧
  decodeUnit 0xFF00#16 0x0305#16 0 = .unit .none .trap (.long 0 0 0 0x305) ∧
  decodeUnit 0xB010#16 0 0 = .unit .none .mvax (.short 0 0 0x10) ∧
  decodeUnit 0xB900#16 0x0E80#16 0 = .unit (.rep 0) .st (.short 3 2 0) ∧
  decodeUnit 0xBB00#16 0 0 = .unit .none .ctOn (.grp 0)

/-! ## Integer units -/

/-- LD, LDX and LDY load W bits zero-extended; LEAX and LEAY write the whole effective address; the moves and
exchanges act on 64 bits; ST, STX and STY store the low W bits; XCHG writes the low W bits of A to memory and places the old
memory value in A, zero-extended. None changes a flag: nothing else of the context changes but what the mode steps and PC
(R103, R104). -/
def Obligations.LoadsStoresMoves : Prop :=
  ReadUnit .ld .ld always (fun _ _ m x => { x with a := w64 m }) ∧
  ReadUnit .ldx .ldx always (fun _ _ m x => { x with x := w64 m }) ∧
  ReadUnit .ldy .ldy always (fun _ _ m x => { x with y := w64 m }) ∧
  AddrUnit .leax .leax (fun ea x => { x with x := ea }) ∧
  AddrUnit .leay .leay (fun ea x => { x with y := ea }) ∧
  RegUnit .mvax .mvax (fun _ _ x => { x with x := x.a }) ∧
  RegUnit .mvxa .mvxa (fun _ _ x => { x with a := x.x }) ∧
  RegUnit .mvay .mvay (fun _ _ x => { x with y := x.a }) ∧
  RegUnit .mvya .mvya (fun _ _ x => { x with a := x.y }) ∧
  RegUnit .xchgX .xchgX (fun _ _ x => { x with a := x.x, x := x.a }) ∧
  RegUnit .xchgY .xchgY (fun _ _ x => { x with a := x.y, y := x.a }) ∧
  StoreUnit .st .st .write always (fun _ w x => x.a.toNat % 2 ^ w) (fun _ _ _ x => x) ∧
  StoreUnit .stx .stx .write always (fun _ w x => x.x.toNat % 2 ^ w) (fun _ _ _ x => x) ∧
  StoreUnit .sty .sty .write always (fun _ w x => x.y.toNat % 2 ^ w) (fun _ _ _ x => x) ∧
  StoreUnit .xchg .xchg .rmw always (fun _ w x => x.a.toNat % 2 ^ w) (fun _ _ m x => { x with a := w64 m })

/-- ADD, ADC, SUB, SBB and NEG: the result and the four flags of R105 at width W, the result zero-extended in A. MUL: the
low half of the product, with C = V = 1 when the signed product does not fit; MULH and MULHU: the high halves of the signed and
of the unsigned product, with C = V = 0. -/
def Obligations.AddSubtractMultiply : Prop :=
  ReadUnit .add .add always (fun _ w m x =>
    let a := x.a.toNat % 2 ^ w
    x.result ((a + m) % 2 ^ w)
      { n := ((a + m) % 2 ^ w).testBit (w - 1), z := decide ((a + m) % 2 ^ w = 0), c := decide (2 ^ w ≤ a + m)
        v := !fits w (signedOf w a + signedOf w m) }) ∧
  ReadUnit .adc .adc always (fun _ w m x =>
    let a := x.a.toNat % 2 ^ w
    let k := if bitOf x.ps 1 then 1 else 0
    x.result ((a + m + k) % 2 ^ w)
      { n := ((a + m + k) % 2 ^ w).testBit (w - 1), z := decide ((a + m + k) % 2 ^ w = 0)
        c := decide (2 ^ w ≤ a + m + k), v := !fits w (signedOf w a + signedOf w m + (k : Nat)) }) ∧
  ReadUnit .sub .sub always (fun _ w m x =>
    let a := x.a.toNat % 2 ^ w
    let r := (a + 2 ^ w - m) % 2 ^ w
    x.result r
      { n := r.testBit (w - 1), z := decide (r = 0), c := decide (a < m), v := !fits w (signedOf w a - signedOf w m) }) ∧
  ReadUnit .sbb .sbb always (fun _ w m x =>
    let a := x.a.toNat % 2 ^ w
    let k := if bitOf x.ps 1 then 1 else 0
    let r := (a + 2 * 2 ^ w - m - k) % 2 ^ w
    x.result r
      { n := r.testBit (w - 1), z := decide (r = 0), c := decide (a < m + k)
        v := !fits w (signedOf w a - signedOf w m - (k : Nat)) }) ∧
  RegUnit .neg .neg (fun _ w x =>
    let a := x.a.toNat % 2 ^ w
    let r := (2 ^ w - a) % 2 ^ w
    x.result r { n := r.testBit (w - 1), z := decide (r = 0), c := decide (a ≠ 0), v := decide (a = 2 ^ (w - 1)) }) ∧
  ReadUnit .mul .mul always (fun _ w m x =>
    let a := x.a.toNat % 2 ^ w
    let p := signedOf w a * signedOf w m
    x.result (a * m % 2 ^ w) (nz w (a * m % 2 ^ w) (!fits w p) (!fits w p))) ∧
  ReadUnit .mulh .mulh always (fun _ w m x =>
    let p := signedOf w (x.a.toNat % 2 ^ w) * signedOf w m
    x.result (lowBits w (p / (2 ^ w : Nat))) (nz w (lowBits w (p / (2 ^ w : Nat))) false false)) ∧
  ReadUnit .mulhu .mulhu always (fun _ w m x =>
    let r := x.a.toNat % 2 ^ w * m / 2 ^ w
    x.result r (nz w r false false))

/-- AND, OR, XOR, NOT and TST: bitwise at width W, N and Z from the result, C = V = 0; TST writes no result. Shifts and
rotates by k, the operand modulo W: the result, and the last bit shifted or rotated out in C, 0 when k = 0; V = 0 (R105). -/
def Obligations.LogicAndShifts : Prop :=
  ReadUnit .and .and always (fun _ w m x => x.result (x.a.toNat % 2 ^ w &&& m) (nz w (x.a.toNat % 2 ^ w &&& m) false false)) ∧
  ReadUnit .or .or always (fun _ w m x => x.result (x.a.toNat % 2 ^ w ||| m) (nz w (x.a.toNat % 2 ^ w ||| m) false false)) ∧
  ReadUnit .xor .xor always (fun _ w m x => x.result (x.a.toNat % 2 ^ w ^^^ m) (nz w (x.a.toNat % 2 ^ w ^^^ m) false false)) ∧
  ReadUnit .tst .tst always (fun _ w m x => x.setFlags (nz w (x.a.toNat % 2 ^ w &&& m) false false)) ∧
  RegUnit .not .not (fun _ w x =>
    x.result (2 ^ w - 1 - x.a.toNat % 2 ^ w) (nz w (2 ^ w - 1 - x.a.toNat % 2 ^ w) false false)) ∧
  ReadUnit .shl .shl always (fun _ w m x =>
    let a := x.a.toNat % 2 ^ w
    let k := m % w
    x.result (a * 2 ^ k % 2 ^ w) (nz w (a * 2 ^ k % 2 ^ w) (decide (k ≠ 0) && a.testBit (w - k)) false)) ∧
  ReadUnit .shr .shr always (fun _ w m x =>
    let a := x.a.toNat % 2 ^ w
    let k := m % w
    x.result (a / 2 ^ k) (nz w (a / 2 ^ k) (decide (k ≠ 0) && a.testBit (k - 1)) false)) ∧
  ReadUnit .sar .sar always (fun _ w m x =>
    let a := x.a.toNat % 2 ^ w
    let k := m % w
    let r := lowBits w (signedOf w a / (2 ^ k : Nat))
    x.result r (nz w r (decide (k ≠ 0) && a.testBit (k - 1)) false)) ∧
  ReadUnit .rol .rol always (fun _ w m x =>
    let a := x.a.toNat % 2 ^ w
    let k := m % w
    let r := (a * 2 ^ k + a / 2 ^ (w - k)) % 2 ^ w
    x.result r (nz w r (decide (k ≠ 0) && r.testBit 0) false)) ∧
  ReadUnit .ror .ror always (fun _ w m x =>
    let a := x.a.toNat % 2 ^ w
    let k := m % w
    let r := (a / 2 ^ k + a * 2 ^ (w - k)) % 2 ^ w
    x.result r (nz w r (decide (k ≠ 0) && r.testBit (w - 1)) false))

/-- CMP and CMPU: the flags of SUB, no register but predicate PT, which takes COND over A and m sign-extended for CMP and
zero-extended for CMPU (R90, R105). -/
def Obligations.Compares : Prop :=
  let flags (w m : Nat) (x : Ctx) : Ctx :=
    let a := x.a.toNat % 2 ^ w
    let r := (a + 2 ^ w - m) % 2 ^ w
    x.setFlags { n := r.testBit (w - 1), z := decide (r = 0), c := decide (a < m)
                 v := !fits w (signedOf w a - signedOf w m) }
  ReadUnit .cmp .cmp always (fun f w m x =>
    (flags w m x).setPred (layoutOf f / 2 ^ 12 % 8)
      (condInt (layoutOf f / 2 ^ 9 % 8) (signedOf w (x.a.toNat % 2 ^ w)) (signedOf w m))) ∧
  ReadUnit .cmpu .cmpu always (fun f w m x =>
    (flags w m x).setPred (layoutOf f / 2 ^ 12 % 8)
      (condInt (layoutOf f / 2 ^ 9 % 8) ((x.a.toNat % 2 ^ w : Nat) : Int) (m : Int)))

/-- DIV and REM divide signed values, DIVU and REMU unsigned ones, truncated toward zero; V = 1 only for the most negative
dividend over -1, whose quotient is the dividend and whose remainder is 0; a divisor of 0 traps DIVZERO at vector 08h with
the unit's own address and no effect (R106). -/
def Obligations.Divide : Prop :=
  let ok (_ : Form) (_ m : Nat) (_ : Ctx) : Prop := m ≠ 0
  let zero (_ : Form) (_ m : Nat) (_ : Ctx) : Prop := m = 0
  ReadUnit .div .div ok (fun _ w m x =>
    let a := signedOf w (x.a.toNat % 2 ^ w)
    let r := lowBits w (a.tdiv (signedOf w m))
    x.result r (nz w r false (decide (a = -(2 ^ (w - 1) : Nat) ∧ signedOf w m = -1)))) ∧
  ReadUnit .rem .rem ok (fun _ w m x =>
    let a := signedOf w (x.a.toNat % 2 ^ w)
    let r := lowBits w (a.tmod (signedOf w m))
    x.result r (nz w r false (decide (a = -(2 ^ (w - 1) : Nat) ∧ signedOf w m = -1)))) ∧
  ReadUnit .divu .divu ok (fun _ w m x =>
    x.result (x.a.toNat % 2 ^ w / m) (nz w (x.a.toNat % 2 ^ w / m) false false)) ∧
  ReadUnit .remu .remu ok (fun _ w m x =>
    x.result (x.a.toNat % 2 ^ w % m) (nz w (x.a.toNat % 2 ^ w % m) false false)) ∧
  ReadTraps .div .div .read 8 zero ∧ ReadTraps .rem .rem .read 8 zero ∧ ReadTraps .divu .divu .read 8 zero ∧
  ReadTraps .remu .remu .read 8 zero

/-! ## Decimal units -/

/-- DAD, DSB and DMUL, narrow and extended: with both operands valid, the exact result, truncated, with its flags and DOV
(R110, R112 to R114); with one of them invalid, DDATA at vector 09h and no effect (R110). -/
def Obligations.DecimalArithmetic : Prop :=
  let okN (_ : Form) (w m : Nat) (x : Ctx) : Prop :=
    decOk (x.a.toNat % 2 ^ w) (2 * (w / 8) - 1) = true ∧ decOk m (2 * (w / 8) - 1) = true
  let okE (_ : Form) (_ m : Nat) (x : Ctx) : Prop :=
    decOk (x.x.toNat * 2 ^ 64 + x.a.toNat) 31 = true ∧ decOk m 31 = true
  let narrow (f : Int → Int → Int) (_ : Form) (w m : Nat) (x : Ctx) : Ctx :=
    x.decResult false (2 * (w / 8) - 1)
      (f (decVal (x.a.toNat % 2 ^ w) (2 * (w / 8) - 1)) (decVal m (2 * (w / 8) - 1)))
  let ext (f : Int → Int → Int) (_ : Form) (_ m : Nat) (x : Ctx) : Ctx :=
    x.decResult true 31 (f (decVal (x.x.toNat * 2 ^ 64 + x.a.toNat) 31) (decVal m 31))
  ReadUnit .dad .dad okN (narrow (· + ·)) ∧ ReadUnit .dsb .dsb okN (narrow (· - ·)) ∧
  ReadUnit .dmul .dmul okN (narrow (· * ·)) ∧ ReadUnit .dadExt .dadExt okE (ext (· + ·)) ∧
  ReadUnit .dsbExt .dsbExt okE (ext (· - ·)) ∧ ReadUnit .dmulExt .dmulExt okE (ext (· * ·)) ∧
  ReadTraps .dad .dad .read 9 (fun f w m x => ¬ okN f w m x) ∧
  ReadTraps .dsb .dsb .read 9 (fun f w m x => ¬ okN f w m x) ∧
  ReadTraps .dmul .dmul .read 9 (fun f w m x => ¬ okN f w m x) ∧
  ReadTraps .dadExt .dadExt .read 9 (fun f w m x => ¬ okE f w m x) ∧
  ReadTraps .dsbExt .dsbExt .read 9 (fun f w m x => ¬ okE f w m x) ∧
  ReadTraps .dmulExt .dmulExt .read 9 (fun f w m x => ¬ okE f w m x)

/-- DCMP compares by value into N, Z and C; DVAL reports the validity of its operand and never traps; DCVB, its extended
form and BCVD convert, DCVB of an invalid value trapping DDATA (R110, R114, R117). -/
def Obligations.DecimalCompareAndConvert : Prop :=
  let okN (_ : Form) (w m : Nat) (x : Ctx) : Prop :=
    decOk (x.a.toNat % 2 ^ w) (2 * (w / 8) - 1) = true ∧ decOk m (2 * (w / 8) - 1) = true
  let okE (_ : Form) (_ m : Nat) (x : Ctx) : Prop :=
    decOk (x.x.toNat * 2 ^ 64 + x.a.toNat) 31 = true ∧ decOk m 31 = true
  let cmp (i j : Int) (x : Ctx) : Ctx :=
    x.setFlags { n := decide (i < j), z := decide (i = j), c := decide (j < i), v := false }
  let val (k m : Nat) (x : Ctx) : Ctx :=
    x.setFlags { n := decOk m k && decNeg m && decide (decMag m k ≠ 0), z := decOk m k, c := !digitsOk m k, v := !signOk m }
  ReadUnit .dcmp .dcmp okN (fun _ w m x =>
    cmp (decVal (x.a.toNat % 2 ^ w) (2 * (w / 8) - 1)) (decVal m (2 * (w / 8) - 1)) x) ∧
  ReadUnit .dcmpExt .dcmpExt okE (fun _ _ m x => cmp (decVal (x.x.toNat * 2 ^ 64 + x.a.toNat) 31) (decVal m 31) x) ∧
  ReadTraps .dcmp .dcmp .read 9 (fun f w m x => ¬ okN f w m x) ∧
  ReadTraps .dcmpExt .dcmpExt .read 9 (fun f w m x => ¬ okE f w m x) ∧
  ReadUnit .dval .dval always (fun _ w m x => val (2 * (w / 8) - 1) m x) ∧
  ReadUnit .dvalExt .dvalExt always (fun _ _ m x => val 31 m x) ∧
  RegUnit .bcvd .bcvd (fun _ _ x => x.decResult true 31 (signedOf 64 x.a.toNat)) ∧
  (∀ c u s t, UnitStarts c u .dcvb s t → decOk (t.ctx c).a.toNat 15 = true →
    exec (.dcvb c u) s = .next (unitEnd (unitCall c u .dcvb s) (t.setCtx c
      ((t.ctx c).result (lowBits 64 (decVal (t.ctx c).a.toNat 15))
        (nz 64 (lowBits 64 (decVal (t.ctx c).a.toNat 15)) false false))))) ∧
  (∀ c u s t, UnitStarts c u .dcvbExt s t → decOk ((t.ctx c).x.toNat * 2 ^ 64 + (t.ctx c).a.toNat) 31 = true →
    let v := decVal ((t.ctx c).x.toNat * 2 ^ 64 + (t.ctx c).a.toNat) 31
    exec (.dcvbExt c u) s = .next (unitEnd (unitCall c u .dcvbExt s) (t.setCtx c
      ((t.ctx c).result (lowBits 64 v) (nz 64 (lowBits 64 v) false (!fits 64 v))))))

/-- DRND: the accumulator takes the amount rounded to DIGITS under DMODE, and the breakage v - r goes to the operand, both
from the exact r (R115, R116); an invalid accumulator traps DDATA (R110). -/
def Obligations.DecimalRound : Prop :=
  let okN (_ : Form) (w _ : Nat) (x : Ctx) : Prop := decOk (x.a.toNat % 2 ^ w) (2 * (w / 8) - 1) = true
  let okE (_ : Form) (_ _ : Nat) (x : Ctx) : Prop := decOk (x.x.toNat * 2 ^ 64 + x.a.toNat) 31 = true
  let rounded (f : Form) (k : Nat) (v : Int) : Int :=
    let d := layoutOf f % 32
    if d = 0 then v else if k ≤ d then 0 else roundTo (layoutOf f / 2 ^ 12 % 8) v (10 ^ d)
  let vN (w : Nat) (x : Ctx) : Int := decVal (x.a.toNat % 2 ^ w) (2 * (w / 8) - 1)
  let vE (x : Ctx) : Int := decVal (x.x.toNat * 2 ^ 64 + x.a.toNat) 31
  StoreUnit .drnd .drnd .write okN
    (fun f w x => packDec (vN w x - rounded f (2 * (w / 8) - 1) (vN w x)) (2 * (w / 8) - 1))
    (fun f w _ x => x.decResult false (2 * (w / 8) - 1) (rounded f (2 * (w / 8) - 1) (vN w x))) ∧
  StoreUnit .drndExt .drndExt .write okE
    (fun f _ x => packDec (vE x - rounded f 31 (vE x)) 31)
    (fun f _ _ x => x.decResult true 31 (rounded f 31 (vE x))) ∧
  ReadTraps .drnd .drnd .write 9 (fun f w m x => ¬ okN f w m x) ∧
  ReadTraps .drndExt .drndExt .write 9 (fun f w m x => ¬ okE f w m x)

/-! ## Floating-point units -/

/-- FADD, FSUB, FMUL, FDIV, FSQRT and FMA: A takes the result that the operation delivers for the operands in the format
of SIZE under FPSR.RM, its exceptions join FPSR, and no flag or predicate changes (R122, R124, R127, R130). FMIN, FMAX, FCMP
and the conversions: what each writes (R125 to R129). -/
def Obligations.FloatOperations : Prop :=
  let f (w : Nat) : Fmt := if w = 32 then binary32 else binary64
  let ra (w : Nat) (v : Word) : FVal := (f w).decode (v.toNat % 2 ^ w)
  ReadUnit .fadd .fadd always (fun _ w m x => x.fresult (faddV (f w) x.rm (ra w x.a) ((f w).decode m))) ∧
  ReadUnit .fsub .fsub always (fun _ w m x => x.fresult (faddV (f w) x.rm (ra w x.a) ((f w).decode m).flip)) ∧
  ReadUnit .fmul .fmul always (fun _ w m x => x.fresult (fmulV (f w) x.rm (ra w x.a) ((f w).decode m))) ∧
  ReadUnit .fdiv .fdiv always (fun _ w m x => x.fresult (fdivV (f w) x.rm (ra w x.a) ((f w).decode m))) ∧
  ReadUnit .fsqrt .fsqrt always (fun _ w m x => x.fresult (fsqrtV (f w) x.rm ((f w).decode m))) ∧
  ReadUnit .fma .fma always (fun _ w m x => x.fresult (fmaV (f w) x.rm (ra w x.a) (ra w x.x) ((f w).decode m))) ∧
  ReadUnit .fmin .fmin always (fun _ w m x => x.fresult (fminmax (f w) true (x.a.toNat % 2 ^ w) m)) ∧
  ReadUnit .fmax .fmax always (fun _ w m x => x.fresult (fminmax (f w) false (x.a.toNat % 2 ^ w) m)) ∧
  ReadUnit .fcmp .fcmp always (fun u w m x =>
    let k := compareV (ra w x.a) ((f w).decode m)
    ((x.setFlags { n := decide (k = .lt), z := decide (k = .eq), c := decide (k = .gt), v := decide (k = .un) }).setPred
        (layoutOf u / 2 ^ 12 % 8) (condFloat (layoutOf u / 2 ^ 9 % 8) k)).raiseExc
      { Exc.none with iv := (ra w x.a).snan || ((f w).decode m).snan }) ∧
  RegUnit .fcvt .fcvt (fun _ w x => x.fresult (convertV (if w = 32 then binary64 else binary32) x.rm (ra w x.a))) ∧
  RegUnit .fcvti .fcvti (fun _ w x => x.fresult (toInt x.rm (ra w x.a))) ∧
  RegUnit .icvtf .icvtf (fun _ w x =>
    x.fresult (roundF (f w) x.rm (decide (signedOf 64 x.a.toNat < 0)) (signedOf 64 x.a.toNat).natAbs 0))

/-! ## Where operands lie -/

/-- The effective address of each mode (R62 to R64), from the register that addresses, the size of the operand and the
address of the instruction's first halfword; a branch counts its displacement in halfwords. Post-increment and pre-decrement
step their register by the size and every other mode leaves the registers alone (R62); a step of S drops the operand-file
entries that leave its window (R142). -/
def Obligations.EffectiveAddresses : Prop :=
  (∀ (x : Ctx) (ipc : Word) (n : Nat) (br : Bool) (p : BitVec 3) (z : BitVec 2) (o : BitVec 15) (o6 : BitVec 6),
    (∀ (b : Base) (i : Nat), b = baseOf i → i < 3 →
      x.ea ipc br n (modeOf (.long p z (BitVec.ofNat 4 (3 * i)) o)) = x.base b ∧
      x.ea ipc br n (modeOf (.long p z (BitVec.ofNat 4 (3 * i + 1)) o)) = x.base b ∧
      x.ea ipc br n (modeOf (.long p z (BitVec.ofNat 4 (3 * i + 2)) o)) = x.base b - BitVec.ofNat 64 n ∧
      x.ea ipc br n (modeOf (.long p z (BitVec.ofNat 4 (9 + i)) o)) = x.base b + o.signExtend 64) ∧
    x.ea ipc br n (modeOf (.long p z 12 o)) =
      x.x + x.y * BitVec.ofNat 64 (2 ^ (o.toNat / 2 ^ 12)) + (o.setWidth 12).signExtend 64 ∧
    x.ea ipc false n (modeOf (.long p z 13 o)) = ipc + o.signExtend 64 ∧
    x.ea ipc true n (modeOf (.long p z 13 o)) = ipc + o.signExtend 64 * 2 ∧
    x.ea ipc br n (modeOf (.long p z 14 o)) = BitVec.ofNat 64 o.toNat ∧
    x.ea ipc br n (modeOf (.short z 6 o6)) = x.s + BitVec.ofNat 64 (8 * o6.toNat)) ∧
  ∀ (k : Call) (x : Ctx),
    (modeOf k.f = .post .x → k.stepped x = { x with x := x.x + w64 k.stepBytes }) ∧
    (modeOf k.f = .pre .x → k.stepped x = { x with x := x.x - w64 k.stepBytes }) ∧
    (modeOf k.f = .post .y → k.stepped x = { x with y := x.y + w64 k.stepBytes }) ∧
    (modeOf k.f = .pre .y → k.stepped x = { x with y := x.y - w64 k.stepBytes }) ∧
    (modeOf k.f = .post .s → k.stepped x = (x.setS (x.s + w64 k.stepBytes)).trim) ∧
    (modeOf k.f = .pre .s → k.stepped x = (x.setS (x.s - w64 k.stepBytes)).trim) ∧
    ((∀ b, modeOf k.f ≠ .post b ∧ modeOf k.f ≠ .pre b) → k.stepped x = x)

/-- A context that reaches memory directly: its fetch succeeds and changes nothing, and an operand that it reads is the
little-endian value of the bytes at its effective address, or the immediate cut to W bits (R58, R63, R66, R103). The operand
file is invisible (R143): in the modes that it serves, a read of a context whose file is empty returns what memory holds too,
and changes nothing but the file. -/
def Obligations.BareFetchAndRead : Prop :=
  (∀ (s : State) (c len : Nat), Bare s c → (s.ctx c).pc.toNat + len ≤ s.usable → len ≤ 6 → breakpoint s c = none →
    beginUnit c len false s = .ok s) ∧
  (∀ (s : State) (k : Call) (v : Word) (use : Use) (lock : Bool), modeOf k.f = .imm v →
    operand k use lock s = .ok (s, [], v.toNat % 2 ^ (8 * operandBytes k.op k.f))) ∧
  (∀ (s : State) (k : Call), Bare s k.c → (∀ v, modeOf k.f ≠ .imm v) → stackMode (modeOf k.f) = false →
    (k.ea (s.ctx k.c)).toNat + operandBytes k.op k.f ≤ s.usable →
    (isNarrow k.op || isExt k.op) = false ∨ (k.ea (s.ctx k.c)).toNat % operandBytes k.op k.f = 0 →
    ∃ l, operand k .read false s =
      .ok (s, l, leNat (Memory.bytes s.mem (k.ea (s.ctx k.c)).toNat (operandBytes k.op k.f)))) ∧
  ∀ (s : State) (k : Call), Bare s k.c → stackMode (modeOf k.f) = true → (s.ctx k.c).opfile = [] →
    (k.ea (s.ctx k.c)).toNat + operandBytes k.op k.f ≤ s.usable →
    (isNarrow k.op || isExt k.op) = false ∨ (k.ea (s.ctx k.c)).toNat % operandBytes k.op k.f = 0 →
    ∃ l f, operand k .read false s =
      .ok (s.setCtx k.c { s.ctx k.c with opfile := f }, l,
        leNat (Memory.bytes s.mem (k.ea (s.ctx k.c)).toNat (operandBytes k.op k.f))) ∨
      operand k .read false s =
        .ok (s, l, leNat (Memory.bytes s.mem (k.ea (s.ctx k.c)).toNat (operandBytes k.op k.f)))

/-- The frame of a store (R146): the checks pass, the bytes at the effective address take the value, every other byte of
memory and every register of the context stays as it was. -/
def Obligations.BareStoreFrame : Prop :=
  ∀ (s : State) (c n : Nat) (stack met : Bool) (ea : Word) (v : Nat), Bare s c → 1 ≤ n → n ≤ 16 →
    ea.toNat + n ≤ s.usable →
    ∃ l z f, checkSpans c .store ea.toNat n s = .ok (s, l) ∧
      putSpans c stack met .store ea.toNat n l (leBytes n v) s = .ok z ∧
      z.ctx c = { s.ctx c with opfile := f } ∧ (∀ d, d ≠ c → z.ctx d = s.ctx d) ∧
      Memory.bytes z.mem ea.toNat n = leBytes n v ∧
      ∀ a, a < ea.toNat ∨ ea.toNat + n ≤ a → Memory.read z.mem a = Memory.read s.mem a

/-! ## Control flow, barriers and cache operations -/

/-- BR loads PC with the effective address, bit 0 cleared; CALL stores the address of the next unit at S - 8 after the
mode's own change of S, and sets S; RET takes PC from the 8 bytes at S (R64, R85, R406). -/
def Obligations.Branches : Prop :=
  (∀ c u s t, UnitStarts c u .br s t →
    let k := unitCall c u .br s
    let v := noteTaken k (evenPc (k.ea (t.ctx c))) t
    exec (.br c u) s =
      .next (ownEnd c (v.setCtx c { k.stepped (v.ctx c) with pc := evenPc (k.ea (t.ctx c)), rep := false }))) ∧
  (∀ c u s t z, UnitStarts c u .call s t →
    let k := unitCall c u .call s
    let y := k.stepped (t.ctx c)
    let v := noteTaken k (evenPc (k.ea (t.ctx c))) z
    put c (y.s - 8).toNat 8 k.next.toNat (t.setCtx c y) = .ok z →
    exec (.call c u) s =
      .next (ownEnd c (v.setCtx c
        { ((v.ctx c).moveS (y.s - 8)).pushRas k.next with pc := evenPc (k.ea (t.ctx c)), rep := false }))) ∧
  ∀ c u s t z v, UnitStarts c u .ret s t → load c (t.ctx c).s.toNat 8 t = .ok (z, v) →
    exec (.ret c u) s =
      .next (ownEnd c (z.setCtx c
        { ((z.ctx c).moveS ((t.ctx c).s + 8)).popRas with pc := evenPc (w64 v), rep := false }))

/-- TRAP n takes the entry of vector 20h + n with SW = 1 and the next unit as return PC, in the mode of R75 (R74, R77).
RETI, with no delivery to take first, restores PC and PS from the frame and moves S by 32; RP, UC and WK stay (R78). -/
def Obligations.TrapAndReti : Prop :=
  (∀ c u s t z, UnitStarts c u .trap s t →
    let k := unitCall c u .trap s
    enter c { vec := 0x20 + layoutOf u.form % 256, shown := 0x20 + layoutOf u.form % 256
              mode := if (t.ctx c).mode = 0 then 1 else 3, ret := k.next, detail := 0, fetch := false, write := false
              sw := true, words := 0, aux := 0, deliv := false, mct := false } t = .ok z →
    exec (.trap c u) s = .next (ownEnd c z)) ∧
  ∀ c u s t z v, UnitStarts c u .reti s t → takeable t c = none → load c (t.ctx c).s.toNat 16 t = .ok (z, v) →
    let ps := w64 (v / 2 ^ 64)
    ps &&& psReserved = 0 → fld ps 13 12 ≠ 2 → fld ps 13 12 ≤ (t.ctx c).mode →
    let y := (z.ctx c).setS ((t.ctx c).s + 32)
    exec (.reti c u) s =
      .next (ownEnd c (z.setCtx c
        { y with ps := blend ps y.ps 0xFF030000#64, pc := evenPc (w64 v), rep := false }.trim))

/-- FENCE drops the operand-file entries (R144); PFLUSH empties the pair's tables and the context's own history and return
stack (R152); PBAR and PUNBAR move the barrier depth within 0 to 15 (R153); CT.ON and CT.OFF write PS.CT (R71); RNDA gives
64 bits with C = 0, or 0 with C = 1 while the DRBG gives none (R352); WAIT completes with WK = 1 beside a wake source, else
enters NAP (R364). -/
def Obligations.BarriersAndWaits : Prop :=
  SysUnit .fence .fence (fun k t => t.setCtx k.c { t.ctx k.c with opfile := [] }) ∧
  SysUnit .pflush .pflush (fun k t =>
    let v := mapPred t k.c fun _ => []
    v.setCtx k.c { v.ctx k.c with hist := 0, histSpec := 0, ras := [], rasSpec := [] }) ∧
  RegUnit .pbar .pbar (fun _ _ x => { x with barrier := if x.barrier < 15 then x.barrier + 1 else x.barrier }) ∧
  RegUnit .punbar .punbar (fun _ _ x => { x with barrier := x.barrier - 1 }) ∧
  RegUnit .ctOn .ctOn (fun _ _ x => { x with ps := setBit x.ps 15 true }) ∧
  RegUnit .ctOff .ctOff (fun _ _ x => { x with ps := setBit x.ps 15 false }) ∧
  SysUnit .rnda .rnda (fun k t =>
    if drbgUp t then
      (drbgDraw t).1.setCtx k.c { t.ctx k.c with a := (drbgDraw t).2, ps := setBit (t.ctx k.c).ps 1 false }
    else t.setCtx k.c { t.ctx k.c with a := 0, ps := setBit (t.ctx k.c).ps 1 true }) ∧
  (∀ c u s t, UnitStarts c u .wait s t → wakeSource t c = true →
    exec (.wait c u) s = .next (ownEnd c (t.setCtx c
      { t.ctx c with pc := (unitCall c u .wait s).next, ps := setBit (t.ctx c).ps 16 true, wakeLatch := false
                     rep := false }))) ∧
  ∀ c u s t, UnitStarts c u .wait s t → wakeSource t c = false →
    exec (.wait c u) s = .next (ownEnd c (t.setCtx c
      { t.ctx c with run := .nap, waitLen := (unitCall c u .wait s).len, rep := false }))

/-- CFLUSH drops the line of its address from every cache of the module and from the operand file (R174, R145). CINVR of a
whole L1 drops what that cache holds, sets its INV bit while it is OFF and leaves 0 lines skipped in X; CINVR of the whole L2
with INCLUDE_LOCKED leaves it no line; one of a range runs over the lines of the checked range (R171, R173). -/
def Obligations.CacheUnits : Prop :=
  (∀ c u s t v l, UnitStarts c u .cflush s t →
    let k := unitCall c u .cflush s
    let lines := (l.filter fun sp => decide (sp.region = .memory)).map fun sp => sp.pa / 128
    checkSpans c .read (k.ea (t.ctx c)).toNat 1 t = .ok (v, l) → lines.any (opBusy v c) = false →
    let w := lines.foldl dropAll v
    exec (.cflush c u) s =
      .next (unitEnd k (w.setCtx c (k.stepped ((w.ctx c).dropOpLines fun ln => lines.contains ln))))) ∧
  (∀ c u s t, UnitStarts c u .cinvr s t → (layoutOf u.form).testBit 11 = true → layoutOf u.form / 2 ^ 12 % 8 < 2 →
    let k := unitCall c u .cinvr s
    let o := cacheOf t c
    let code := decide (layoutOf u.form / 2 ^ 12 % 8 = 0)
    let v := setCaches t { t.caches with l1 := t.caches.l1.filter fun l => !(decide (l.pair = o) && (l.code == code) && true) }
    let w := setInv v c (pairOf t c) (layoutOf u.form / 2 ^ 12 % 8) 0
    exec (.cinvr c u) s =
      .next (unitEnd k (w.setCtx c (k.stepped { (w.ctx c).dropOpLines (fun _ => true) with x := 0 })))) ∧
  (∀ c u s t, UnitStarts c u .cinvr s t → (layoutOf u.form).testBit 11 = true → (layoutOf u.form).testBit 10 = true →
    layoutOf u.form / 2 ^ 12 % 8 = 2 →
    ∃ v, exec (.cinvr c u) s = .next (unitEnd (unitCall c u .cinvr s) v) ∧ v.mem = t.mem ∧
      ∀ l ∈ v.caches.l2, l.owner ≠ cacheOf t c) ∧
  ∀ c u s t v l, UnitStarts c u .cinvr s t → (layoutOf u.form).testBit 11 = false →
    let k := unitCall c u .cinvr s
    cinvrSpans c (cinvrRange (k.ea (t.ctx c)).toNat (t.ctx c).a.toNat) t = .ok (v, l) →
    (∀ q ∈ v.caches.l2, inSpans l q.line = true → lineBusy v c true (q.line * 128) 128 q.line = false) →
    exec (.cinvr c u) s = .next (unitEnd k (cinvrLines k false (inSpans l) v))

/-! ## Prefixes, predicates and traps -/

/-- A unit whose predicate is 0 retires with no effect but PC: for every operation but the branches, which train their
direction too (R67, R149). -/
def Obligations.PredicateFalse : Prop :=
  ∀ (op : QOp) (c : Fin 32) (u : QUnit) (s t : State), PrefixStarts c (QUnit.pre' u) op u.form s t (unitCall c u op s) →
    (t.ctx c).pred (predOf (QUnit.pre' u) u.form) = false →
    exec (unitInstr op c u) s =
      .next (unitEnd (unitCall c u op s)
        (if op = .br ∨ op = .call then noteDirection t c (unitCall c u op s).ipc ((unitCall c u op s).backward (t.ctx c)) false
          else t))

/-- The traps that come before the predicate and the operand, in the order of R73: ILLEGAL, RESFIELD and PREFIX of an
encoding, then PRIV of R54 for RETI, WAIT and CINVR in user mode. Each is entered with the unit's own address. -/
def Obligations.EarlyTraps : Prop :=
  ∀ (op : QOp) (c : Fin 32) (u : QUnit) (s t : State) (w : List HWord), unitWords (QUnit.pre' u) op u.form = some w →
    ready s c = true → haltDue s c = false → beginUnit c (2 * w.length) false s = .ok t →
    let taken (vec detail : Nat) : Res :=
      entryRes s ((enter c (trapEntry (s.ctx c) (s.ctx c).pc
        { vec := vec, detail := detail, fetch := false, write := false, sw := false, aux := 0 } w) s).map (groupDone c))
    (illegal op u.form = true → exec (unitInstr op c u) s = taken 2 0) ∧
    (illegal op u.form = false → (badPre (QUnit.pre' u) || badFields op u.form) = true →
      exec (unitInstr op c u) s = taken 3 0) ∧
    (illegal op u.form = false → (badPre (QUnit.pre' u) || badFields op u.form) = false →
      badPrefix (QUnit.pre' u) op u.form = true → exec (unitInstr op c u) s = taken 4 0) ∧
    (encTrap (QUnit.pre' u) op u.form = none → (op = .reti ∨ op = .wait ∨ op = .cinvr) → (t.ctx c).mode = 0 →
      exec (unitInstr op c u) s = taken 5 1)

/-- REP: with X = 0 the unit retires with no effect but PC; else one iteration takes its effect and decrements X, and PC
moves past the unit when X reaches 0 (R69). Halfwords that spell no unit take the trap of R102. -/
def Obligations.RepAndUndefined : Prop :=
  (∀ c op low f s t k, PrefixStarts c (.rep low) op f s t k → (t.ctx c).x = 0 →
    exec (.repIteration c op low f) s = .next (ownEnd c (t.setCtx c { t.ctx c with pc := k.next, rep := false }))) ∧
  (∀ c op low f s t k use eff z, PrefixStarts c (.rep low) op f s t k → (t.ctx c).x ≠ 0 →
    (t.ctx c).pred (predOf (.rep low) f) = true → semOf op = .val use eff → valueBody use eff false k t = .ok z →
    let n := (z.ctx c).x - 1
    exec (.repIteration c op low f) s =
      .next (ownEnd c (z.setCtx c
        (if n = 0 then { z.ctx c with x := n, pc := k.next, rep := false } else { z.ctx c with x := n, rep := true })))) ∧
  ∀ (c : Fin 32) h0 h1 h2 s t vec w z, decodeUnit h0 h1 h2 = .bad vec w → ready s c = true → haltDue s c = false →
    beginUnit c (2 * w.length) false s = .ok t →
    enter c (trapEntry (s.ctx c) (s.ctx c).pc
      { vec := vec, detail := 0, fetch := false, write := false, sw := false, aux := 0 } w) s = .ok z →
    exec (.undefinedEncoding c h0 h1 h2) s = .next (ownEnd c z)

/-- LOCK (R70): the result of the operation goes to the operand and the old memory value to A; LOCK CMPU stores X where A
equals the operand, else A takes the operand. The operand-file entries are dropped first (R144). -/
def Obligations.Lock : Prop :=
  ∀ c op low f s t k v l m z, PrefixStarts c (.lock low) op f s t k → (t.ctx c).pred (predOf (.lock low) f) = true →
    let n := operandBytes op f
    let w := 8 * n
    let acc : Acc := { Acc.store with lock := true }
    let t' := t.setCtx c { t.ctx c with opfile := [] }
    operand k .rmw true t' = .ok (v, l, m) →
    let old := m % 2 ^ w
    let a := (v.ctx c).a.toNat % 2 ^ w
    let addr := (k.ea (t'.ctx c)).toNat
    let puts (r : Nat) (y : Ctx) : Prop := putSpans c (stackMode (modeOf f)) true acc addr n l (leBytes n r)
      (v.setCtx c (k.stepped y)) = .ok z
    (∀ use eff y, op ≠ .xchg → op ≠ .cmpu → semOf op = .val use eff →
      eff { n := n, m := m, ea := k.ea (t'.ctx c), lay := layoutOf f } (v.ctx c) = .ok (y, none) →
      puts (y.a.toNat % 2 ^ w) { y with a := w64 old } → exec (.lock c op low f) s = .next (unitEnd k z)) ∧
    (op = .xchg → puts a { v.ctx c with a := w64 old } → exec (.lock c op low f) s = .next (unitEnd k z)) ∧
    (op = .cmpu → a = old →
      ∀ y, compare zeroExt { n := n, m := m, ea := k.ea (t'.ctx c), lay := layoutOf f } (v.ctx c) = .ok (y, none) →
      puts ((v.ctx c).x.toNat % 2 ^ w) y → exec (.lock c op low f) s = .next (unitEnd k z)) ∧
    (op = .cmpu → a ≠ old →
      ∀ y, compare zeroExt { n := n, m := m, ea := k.ea (t'.ctx c), lay := layoutOf f } (v.ctx c) = .ok (y, none) →
      exec (.lock c op low f) s = .next (unitEnd k (v.setCtx c (k.stepped { y with a := w64 old }))))

/-! ## Entries -/

/-- Taking a trap or an interrupt, for a context that reaches memory directly (R76, R77): the frame stands at S - 32 of the
new mode's bank, holding return PC, PS, TRAPINFO and the fourth word; PC takes the word at VBASE + 8 × vector; MODE is the
entry's; A, X, Y and every byte outside the frame stay. -/
def Obligations.EntryThroughMemory : Prop :=
  ∀ (s : State) (c : Nat) (e : Entry), Bare s c → e.mode = 1 ∨ e.mode = 3 → e.deliv = false → e.mct = false →
    let sp := ((s.ctx c).inMode e.mode).s - 32
    let vb := if e.mode = 3 then (s.ctx c).vbaseH else (s.ctx c).vbaseS
    sp.toNat + 32 ≤ s.usable → vb.toNat + 8 * e.vec + 8 ≤ s.usable →
    ∃ t, enter c e s = .ok t ∧ (t.ctx c).s = sp ∧ (t.ctx c).mode = e.mode ∧
      (t.ctx c).pc = evenPc (Memory.word t.mem (vb.toNat + 8 * e.vec)) ∧
      (t.ctx c).a = (s.ctx c).a ∧ (t.ctx c).x = (s.ctx c).x ∧ (t.ctx c).y = (s.ctx c).y ∧
      (t.ctx c).ie = (s.ctx c).ie ∧
      Memory.bytes t.mem sp.toNat 32 =
        wordsBytes [e.ret, psOf s c, w64 (trapInfo e (s.ctx c).mode), w64 e.aux] ∧
      ∀ a, a < sp.toNat ∨ sp.toNat + 32 ≤ a → Memory.read t.mem a = Memory.read s.mem a

/-- INTERRUPT_ENTRY takes the delivery that has come, MCT_ENTRY the machine check, RESET_ENTRY the first PC of R79, and
ENTRY_TAKEOVER before the end of cycle 11 in one mode replaces the vector of the lower event by that of the higher, and
later, or into another mode, takes the higher with a second frame (R80 to R82, R226, R238). A
machine-check entry of a context that reaches memory directly completes in hypervisor mode at vector 1 with IE = 0, and the
check is no longer pending (R76). -/
def Obligations.Entries : Prop :=
  (∀ (c : Fin 32) (s t : State) (d : Delivery), boundary s c = true → (s.ctx c).mct = false → takeable s c = some d →
    enter c { vec := 0x20 + d.vector.toNat, shown := 0x20 + d.vector.toNat, mode := if d.hyp then 3 else 1
              ret := (s.ctx c).pc, detail := 0, fetch := false, write := false, sw := false, words := 0, aux := 0
              deliv := true, mct := false } s = .ok t →
    exec (.interruptEntry c) s = .next (settle (warmStops t))) ∧
  (∀ (c : Fin 32) (s t : State), boundary s c = true → (s.ctx c).mct = true →
    enter c { vec := 1, shown := 1, mode := 3, ret := (s.ctx c).pc, detail := 0, fetch := false, write := false
              sw := false, words := 0, aux := 0, deliv := false, mct := true } s = .ok t →
    exec (.mctEntry c) s = .next (settle (warmStops t))) ∧
  (∀ (c : Fin 32) (s t : State) (h : Word), entersNow s c = true →
    let x := s.ctx c
    let y := { x with ps := setBit (setFld x.ps 13 12 3) 14 false, ttb := setBit x.ttb 0 false, tlb := [], opfile := []
                      entering := false, fresh := false, rep := false }
    vectorRead c x.vbaseH.toNat (s.setCtx c y) = .done t h →
    exec (.resetEntry c) s = .next (settle (warmStops (t.setCtx c { t.ctx c with pc := evenPc h })))) ∧
  (∀ (c : Fin 32) (n : Fin 1024) (k : Fin 15) (s t : State) (d h : Delivery), boundary s c = true → (s.ctx c).mct = false →
    takeable s c = some d → overtakes s c n k d = true → k ≤ 11 → bitOf (srcOf s n) 59 = d.hyp →
    slotAt (reached s n c) c = some h →
    enter c { vec := 0x20 + h.vector.toNat, shown := 0x20 + (if k < 4 then h.vector.toNat else d.vector.toNat)
              mode := if h.hyp then 3 else 1, ret := (s.ctx c).pc, detail := 0, fetch := false, write := false
              sw := false, words := 0, aux := 0, deliv := true, mct := false } (reached s n c) = .ok t →
    exec (.entryTakeover c n k) s = .next (settle (warmStops t))) ∧
  (∀ (c : Fin 32) (n : Fin 1024) (k : Fin 15) (s v t : State) (d : Delivery), boundary s c = true → (s.ctx c).mct = false →
    takeable s c = some d → overtakes s c n k d = true → (11 < k ∨ bitOf (srcOf s n) 59 ≠ d.hyp) →
    takeInterrupt c s = .ok v → slotAt v c = none → (v.ctx c).run = .run → takeInterrupt c (reached v n c) = .ok t →
    exec (.entryTakeover c n k) s = .next (settle (warmStops t))) ∧
  ∀ (c : Fin 32) (s : State), boundary s c = true → (s.ctx c).mct = true → quiet s = true → s.sp.warmMb = none → Bare s c →
    let sp := ((s.ctx c).inMode 3).s - 32
    sp.toNat + 32 ≤ s.usable → (s.ctx c).vbaseH.toNat + 16 ≤ s.usable →
    ∃ t, exec (.mctEntry c) s = .next t ∧ (t.ctx c).mct = false ∧ (t.ctx c).mode = 3 ∧ (t.ctx c).ie = false ∧
      (t.ctx c).s = sp ∧ (t.ctx c).pc = evenPc (Memory.word t.mem ((s.ctx c).vbaseH.toNat + 8))

/-- The direction tables predict by the longest match, and a backward branch without one as taken (R149). A misprediction
returns the speculative history and return stack to the retired ones and may leave the branch in the target structures;
whatever its path has read, memory, the registers, the events and the cards stay, no line becomes dirty and no translation
is discarded (R150, R155, R156). Stores to CTX_TLBINV and CTX_TTB drop translations and the operand file (R58, R61, R145);
an aged entry leaves the operand file (R144). -/
def Obligations.ContextCommands : Prop :=
  (∀ (l : List PredEntry) (pc : Word) (h : BitVec 160) (b : Bool),
    ((∀ t, t < 5 → ∀ e ∈ l, e.isFor t pc h = false) → predictTaken l pc h b = b) ∧
    ∀ t e, t < 5 → (l.find? fun e => e.isFor t pc h) = some e → (∀ u, t < u → u < 5 → ∀ e ∈ l, e.isFor u pc h = false) →
      predictTaken l pc h b = Config.predTaken e.counter) ∧
  (∀ (c : Fin 32) (b target : Word) (i : Bool) (s : State), Calm s → runnable s c = true →
    exec (.mispredictResolve c b target i []) s =
      .next ((noteTarget s c b i target).setCtx c
        { (noteTarget s c b i target).ctx c with histSpec := ((noteTarget s c b i target).ctx c).hist
                                                 rasSpec := ((noteTarget s c b i target).ctx c).ras })) ∧
  (∀ (c : Fin 32) (b target : Word) (i : Bool) (wrong : List (Bool × Word)) (s : State), Calm s → runnable s c = true →
    ∃ t, exec (.mispredictResolve c b target i wrong) s = .next t ∧ t.mem = s.mem ∧ t.ert = s.ert ∧ t.fcr = s.fcr ∧
      (∀ d, d ≠ c.val → t.ctx d = s.ctx d) ∧
      (∃ l, (∀ e ∈ (s.ctx c).tlb, e ∈ l) ∧
        t.ctx c = { s.ctx c with tlb := l, histSpec := (s.ctx c).hist, rasSpec := (s.ctx c).ras }) ∧
      ∀ ln, dirtyAnywhere t ln = true → dirtyAnywhere s ln = true) ∧
  (∀ (c : Fin 32) (v : Word) (s : State), Calm s →
    exec (.ctxTlbinvWrite c v) s = .next (s.setCtx c
      { s.ctx c with opfile := []
                     tlb := if bitOf v 0 then [] else (s.ctx c).tlb.filter fun e => !e.covers (v.toNat % 2 ^ 57) })) ∧
  (∀ (c : Fin 32) (v : Word) (s : State), Calm s →
    exec (.ctxTtbWrite c v) s =
      .next (s.setCtx c { s.ctx c with ttb := v &&& 0x000FFFFFFFFFF001#64, tlb := [], opfile := [] })) ∧
  ∀ (c : Fin 32) (slot : Word) (s : State), Calm s →
    exec (.operandEntryAgeOut c slot) s = .next (s.setCtx c
      { s.ctx c with opfile := (s.ctx c).opfile.filter fun e => decide (e.va ≠ slot.toNat / 8 * 8) })

/-- Every floating-point instruction other than FCMP leaves N, Z, C, V and P1 to P7 unchanged, and reports its exceptions
in FPSR: what it does to a context leaves PS as it was and only sets bits of FPSR (R127, R52). -/
def Obligations.FloatFlagsUnchanged : Prop :=
  ∀ op ∈ [QOp.fadd, .fsub, .fmul, .fdiv, .fsqrt, .fma, .fmin, .fmax, .fcvt, .fcvti, .icvtf],
    ∃ use eff, (∀ c u s, exec (unitInstr op c u) s = plain c u op (.val use eff) s) ∧
      ∀ (g : Args) (x : Ctx), ∃ r e, eff g x = .ok ({ x with a := r, fpsr := x.fpsr ||| e }, none)

/-! ## The whole machine -/

/-- What State.reset leaves (R8, R51 to R53, R211, R232, R248; the memory's form is the model's own): nothing runs, memory
lists nothing and is canonical, every PC is even, every MODE is legal, every context is STOPPED in hypervisor mode, every
ERT source is masked, nothing is pending, and contexts 2p and 2p + 1 lie on pair p below 16. -/
def Obligations.ResetState : Prop :=
  let s := State.reset
  MemoryCanonical s ∧ PcsEven s ∧ ModesLegal s ∧ s.live = false ∧ s.pending = [] ∧
    (∀ c, (s.ctx c).run = .stopped ∧ (s.ctx c).mode = 3 ∧ (s.ctx c).a = 0 ∧ (s.ctx c).x = 0 ∧ (s.ctx c).y = 0 ∧
      (s.ctx c).su = 0 ∧ (s.ctx c).ss = 0 ∧ (s.ctx c).sh = 0 ∧ (s.ctx c).fpsr = 0) ∧
    (∀ n, n < 1024 → bitOf s.ert.mask n = true ∧ bitOf s.ert.pend n = false) ∧
    (∀ p, p < 16 → (s.pair p).st = .active ∧ (s.pair p).slot0 = some (2 * p) ∧ (s.pair p).slot1 = some (2 * p + 1)) ∧
    (s.pair 16).st = .bench ∧ (s.pair 17).st = .bench ∧ ∀ n a, Memory.read s.mem a = 0 ∧ (s.mb n).st = .idle

/-- Every step keeps memory in its canonical form: addresses strictly rising, no byte listed that reads as an unlisted
one does. -/
def Obligations.MemoryStaysCanonical : Prop :=
  ∀ s t : State, MemoryCanonical s → step s = .next t → MemoryCanonical t

/-- A well-formed command completes in every state: it is never refused and never faults. -/
def Obligations.WellFormedCompletes : Prop :=
  ∀ (i : Instr) (s : State), wellFormed i = true → Completes i s

/-! ## Caches and memory -/

/-- Cache control (R171, R172, R178): an L2 comes ON from OFF with INV = 1, so do the L1s under an L2 that is ON, and the L3;
an L2 or the L3 disabled with a dirty line is DISABLE_PENDING and a clean one OFF and empty, and an L2 takes its L1s with it;
the end of the drain makes an L2 or the L3 OFF and empty. -/
def Obligations.CacheControl : Prop :=
  (∀ s r (p : Fin 18) v, Reaches s r (0x2000200 + 8 * p.val) (.cachePctl p) →
    bitOf v 10 = true → bitOf v 9 = false → bitOf v 8 = false → (s.pctl p).l1i = .off → (s.pctl p).l1d = .off →
    (s.pctl p).l2 = .off → (s.pctl p).l2Inv = true →
    exec (.cachePctlWrite r p v) s = .next (s.setPctl p { s.pctl p with l2 := .on, l2Inv := false })) ∧
  (∀ s r (p : Fin 18) v, Reaches s r (0x2000200 + 8 * p.val) (.cachePctl p) →
    bitOf v 10 = true → bitOf v 9 = true → bitOf v 8 = true → (s.pctl p).l1i = .off → (s.pctl p).l1d = .off →
    (s.pctl p).l2 = .on → (s.pctl p).l1iInv = true → (s.pctl p).l1dInv = true →
    exec (.cachePctlWrite r p v) s = .next (s.setPctl p { s.pctl p with
      l1i := .on, l1iInv := false, l1d := .on, l1dInv := false })) ∧
  (∀ s r (p : Fin 18) v, Reaches s r (0x2000200 + 8 * p.val) (.cachePctl p) →
    bitOf v 10 = false → bitOf v 9 = false → bitOf v 8 = false → (s.pctl p).l2 = .on → l2Dirty s p = true →
    ∃ t, exec (.cachePctlWrite r p v) s = .next t ∧
      t.pctl p = { s.pctl p with l2 := .disablePending, l1i := .off, l1d := .off } ∧ t.caches.l2 = s.caches.l2) ∧
  (∀ s r (p : Fin 18) v, Reaches s r (0x2000200 + 8 * p.val) (.cachePctl p) →
    bitOf v 10 = false → bitOf v 9 = false → bitOf v 8 = false → (s.pctl p).l2 = .on → l2Dirty s p = false →
    ∃ t, exec (.cachePctlWrite r p v) s = .next t ∧
      t.pctl p = { s.pctl p with l2 := .off, l1i := .off, l1d := .off } ∧ ∀ l ∈ t.caches.l2, l.owner % 18 ≠ p.val) ∧
  (∀ s r v, Reaches s r 0x2000000 .cacheL3ctl → bitOf v 8 = true → s.caches.l3st = .off → s.caches.l3inv = true →
    exec (.cacheL3ctlWrite r v) s = .next (setCaches s { s.caches with l3st := .on, l3inv := false })) ∧
  (∀ s r v, Reaches s r 0x2000000 .cacheL3ctl → bitOf v 8 = false → s.caches.l3st = .on →
    exec (.cacheL3ctlWrite r v) s =
      .next (setCaches s (if s.caches.l3.any (·.dirty) then { s.caches with l3st := .disablePending }
        else { s.caches with l3st := .off, l3 := [] }))) ∧
  (∀ s, Calm s → s.caches.l3st = .disablePending →
    exec (.cacheDrainComplete .l3) s = .next (setCaches s { s.caches with l3st := .off, l3 := [] })) ∧
  ∀ s (p : Fin 18), Calm s → (s.pctl p).l2 = .disablePending →
    ∃ t, exec (.cacheDrainComplete (.l2 p)) s = .next t ∧ (t.pctl p).l2 = .off ∧ (∀ l ∈ t.caches.l2, l.owner % 18 ≠ p.val) ∧
      t.mem = s.mem

/-- Fills, snoops and errors in the caches (R160, R163, R164, R176): in an L2 that is ON, with a credit of its line-fill
queue, the first sector of a miss allocates the line FILLING in a way that its context may use, and that sector is the
critical one; a further one clears its sector and the last makes the line valid and serves the snoops that it held; a snoop
of a valid line drops it and of a FILLING one is held; an uncorrectable sector discards the line at the cost of a let; a
clean L3 line with an error is dropped and reported; a scrub meets its errors one after the other. -/
def Obligations.CacheTraffic : Prop :=
  (∀ s (c : Fin 32) code line (way : Fin 16) (k : Fin 8) p slot, Calm s → placeOf s c = some (p, slot) →
    (s.pctl p).l2 = .on → l1Wants s (cacheOf s c) code = false → s.inMemory (line * 128) 128 = true →
    noCredit s .lineFill p (cacheOf s c) = false → l2Find s (cacheOf s c) line = none →
    way.val ∈ l2Ways s (cacheOf s c % 18) c →
    exec (.lineFill c line way k .good code) s =
      .next (allocL2 s (cacheOf s c) way line (BitVec.ofNat 8 (s.owner c)) (setBit 0xFF#8 k false) (some (c, k)))) ∧
  (∀ s (c : Fin 32) code line (way : Fin 16) (k : Fin 8) p slot l, Calm s → placeOf s c = some (p, slot) →
    (s.pctl p).l2 = .on → s.inMemory (line * 128) 128 = true → noCredit s .lineFill p (cacheOf s c) = false →
    l2Find s (cacheOf s c) line = some l → bitOf l.filling k = true →
    let o := cacheOf s c
    let t := setCaches s { s.caches with l2 := s.caches.l2.map fun q =>
      if q.owner = o ∧ q.line = line then { q with filling := setBit l.filling k false } else q }
    (setBit l.filling k false ≠ 0 → exec (.lineFill c line way k .good code) s = .next t) ∧
    (setBit l.filling k false = 0 → exec (.lineFill c line way k .good code) s = .next (fillDone t o line)) ∧
    exec (.lineFill c line way k .uncorrectable code) s =
      .next (settle (letUnnamed (fillDone (dropL2 s o line) o line) p slot))) ∧
  (∀ s (p : Fin 18) line l, Calm s → l2Find s p line = some l → l2Find s (p + 18) line = none → l.filling = 0 →
    exec (.snoop p line true) s = .next (dropL2 s p line)) ∧
  (∀ s (p : Fin 18) line l i, Calm s → l2Find s p line = some l → l2Find s (p + 18) line = none → l.filling ≠ 0 →
    exec (.snoop p line i) s = .next (setCaches s { s.caches with
      snoops := s.caches.snoops ++ [{ pair := p, line := line, invalidate := i }] })) ∧
  (∀ s (v : Fin 16) line l, Calm s → l3Find s line = some l → l.dirty = false →
    exec (.cacheScrub [.l3Clean v line]) s =
      .next (settle (card (dropL3 s line) (96 + v) 3 l.inst.toNat 0 (line * 128)))) ∧
  ∀ s errs, s.live = true → exec (.cacheScrub errs) s = .next (settle (errs.foldl cacheError s))

/-- The memory controller (R157, R180 to R182): a line lies on one of the 12 channels, and on its stripe's channel that
holds it, which is not the parity channel; with a credit of the channel, and the channel serving, a read returns the line,
a write replaces its line and a full stripe its eleven lines, which are then free of poison; a line that can neither be read
nor rebuilt is poisoned and reported, but not by a read on a mispredicted path; a scrub meets its errors one after the
other. -/
def Obligations.MemoryRequests : Prop :=
  (∀ line, lineAt (stripeOf line) (channelOf line) = some line ∧ channelOf line < 12) ∧
  (∀ s line e m, Calm s → s.inMemory (line * 128) 128 = true → noCredit s .memRequest 0 (channelOf line) = false →
    serves s (channelOf line) (stripeOf line) = true → (e = .none ∨ m = true) →
    exec (.memoryRequest .read line e m) s =
      .next { s with bus := { s.bus with cpl := .bytes (Memory.bytes s.mem (line * 128) 128) } }) ∧
  (∀ s line data m, Calm s → s.inMemory (line * 128) 128 = true → noCredit s .memRequest 0 (channelOf line) = false →
    serves s (channelOf line) (stripeOf line) = true → data.length = 128 →
    ∃ t, exec (.memoryRequest (.write data) line .none m) s = .next t ∧
      t.mem = Memory.writes s.mem (line * 128) data ∧ t.ctxs = s.ctxs) ∧
  (∀ s line data m, Calm s → MemoryCanonical s → s.inMemory (line / 11 * 11 * 128) 1408 = true →
    noCredit s .memRequest 0 (channelOf line) = false → serves s (channelOf line) (stripeOf line) = true →
    data.length = 1408 →
    ∃ t, exec (.memoryRequest (.fullStripe data) line .none m) s = .next t ∧
      Memory.bytes t.mem (line / 11 * 11 * 128) 1408 = data ∧ ∀ k < 11, line / 11 * 11 + k ∉ t.caches.poison) ∧
  (∀ s line, Calm s → s.inMemory (line * 128) 128 = true → serves s (channelOf line) (stripeOf line) = true →
    noCredit s .memRequest 0 (channelOf line) = false →
    exec (.memoryRequest .read line (.uncorrectable true) false) s =
      .next (settle (memOp (card (addPoison s line) (128 + channelOf line) 5 0 0 (line * 128)) .read line))) ∧
  ∀ s errs, s.live = true → fld s.memc.cfg 15 8 ≠ 0 →
    exec (.patrolScrub errs) s =
      .next (settle (errs.foldl (fun t e => if t.inMemory (e.1 * 128) 128 then memError t e.1 e.2 else t) s))

/-! ## Queues and control space -/

/-- Queues (R12, R14, R15, R17, R20): a unit that its producer may send takes one credit, occupies its consumer and takes
effect, and one that it may not send changes nothing; a producer without a credit or, for a request, without room for its
response may not send; a consumer that returns a credit gives it back to the producer, and the units of the queue that
waited for it are sent; a card without a credit waits at its block. -/
def Obligations.Queues : Prop :=
  (∀ s q pl, s.live = true → payloadFits q pl = true → canSend s q pl = true →
    (responseClass q.cls = false ∨ (queueOf s q).dropping = 0) →
    exec (.queueEntry q .good pl) s = .next (settle (consume (takeCredit s q pl) pl))) ∧
  (∀ s q pl, canSend s q pl = true → responseClass q.cls = false →
    0 < (queueOf s q).credits ∧ (queueOf (takeCredit s q pl) q).credits = (queueOf s q).credits - 1 ∧
      (queueOf (takeCredit s q pl) q).held = (queueOf s q).held + 1 ∧ takeCredit s q pl = { s with
        bus := { s.bus with queues := (takeCredit s q pl).bus.queues } }) ∧
  (∀ s q e pl, Calm s → payloadFits q pl = true → canSend s q pl = false →
    exec (.queueEntry q e pl) s = .next s) ∧
  (∀ s q pl, (queueOf s q).credits = 0 ∨ (∃ a n, responseOf q pl = some (a, n) ∧ a.cls ≠ .controlReturn ∧
      fullCredits s a < (queueOf s a).reserved + (queueOf s a).held + n) → canSend s q pl = false) ∧
  (∀ s q, s.live = true → (queueOf s q).held ≠ 0 → q.cls ≠ .controlReturn →
    exec (.creditReturn q) s = .next (settle (releaseWaits (setQueue s
      { queueOf s q with credits := (queueOf s q).credits + 1, held := (queueOf s q).held - 1 }) q))) ∧
  (∀ s q, Calm s → (queueOf s q).held ≠ 0 → q.cls ≠ .controlReturn → s.bus.waitCards = [] → s.bus.waitEvents = [] →
    s.bus.waitCtl = [] →
    exec (.creditReturn q) s = .next (setQueue s
      { queueOf s q with credits := (queueOf s q).credits + 1, held := (queueOf s q).held - 1 })) ∧
  (∀ s q c, q.cls = .faultCard → c ∈ s.bus.waitCards → c.block = q.producer →
    c ∈ (releaseWaits s q).fcr.inbox ∧ c ∉ (releaseWaits s q).bus.waitCards) ∧
  ∀ s c, (noCredit s .faultCard c.block 0 = true →
      sendCard s c = { s with bus := { s.bus with waitCards := s.bus.waitCards ++ [c] } }) ∧
    (noCredit s .faultCard c.block 0 = false → s.bus.waitCards = [] →
      sendCard s c = { s with fcr := { s.fcr with inbox := s.fcr.inbox ++ [c] } })

/-- Control space (R23, R25, R26): a write that is issued and passes reaches its register; a context's or the management
link's that fails is dropped and reported by the first check it fails, width, then alignment, then mapping, then permission;
a read returns the register, here MEMC_CFG; a management request above 8 bytes completes with Unsupported Request and
performs nothing. -/
def Obligations.ControlSpace : Prop :=
  (∀ s r (off : BitVec 40) v g, Reaches s r off.toNat g → (regWrite s r off.toNat v g).bus.waitCtl = [] →
    exec (.controlWrite r off .w8 v) s = .next (settle (writeDone (regWrite s r off.toNat v g) r))) ∧
  (∀ s r (off : BitVec 40) v k, Reaches s r off.toNat (.cacheL2mask k) →
    exec (.controlWrite r off .w8 v) s =
      .next (setCaches s { s.caches with l2mask := s.caches.l2mask.set k (v.extractLsb' 0 16) })) ∧
  (∀ s r (off : BitVec 40) w v, s.live = true → Issues s r off.toNat → r ≠ .jtag → widthBytes w < 8 →
    exec (.controlWrite r off w v) s = .next (settle (card s 480 0x0A (reqInst s r) 0 off.toNat))) ∧
  (∀ s r (off : BitVec 40) v, s.live = true → Issues s r off.toNat → r ≠ .jtag → off.toNat % 8 ≠ 0 →
    exec (.controlWrite r off .w8 v) s = .next (settle (card s 480 0x0D (reqInst s r) 0 off.toNat))) ∧
  (∀ s r (off : BitVec 40) v, s.live = true → Issues s r off.toNat → r ≠ .jtag → off.toNat % 8 = 0 →
    (regAt off.toNat = none ∨ ∃ g, regAt off.toNat = some g ∧ regMapped s g = false) →
    exec (.controlWrite r off .w8 v) s = .next (settle (card s 480 0x0B (reqInst s r) 0 off.toNat))) ∧
  (∀ s r (off : BitVec 40) v g, s.live = true → Issues s r off.toNat → r ≠ .jtag → off.toNat % 8 = 0 →
    regAt off.toNat = some g → regMapped s g = true → permitted s r true g = false →
    exec (.controlWrite r off .w8 v) s = .next (settle (card s 480 0x0C (reqInst s r) 0 off.toNat))) ∧
  (∀ s r (off : BitVec 40), Calm s → Issues s r off.toNat → ctlCheck s r false off.toNat 8 = .ok .memcCfg →
    exec (.controlRead r off .w8) s = .next { s with bus := { s.bus with cpl := .data s.memc.cfg } }) ∧
  (∀ s (off : BitVec 40) len v w, Calm s → s.chan.mgmtUp = true → 8 < len →
    exec (.mgmtBar0Request w off len v) s = .next { s with bus := { s.bus with cpl := .unsupported } }) ∧
  ∀ s (off : BitVec 40) v k, Reaches s .mgmt off.toNat (.cacheL2mask k) → s.chan.mgmtUp = true →
    exec (.mgmtBar0Request true off 8 v) s =
      .next (setCaches s { s.caches with l2mask := s.caches.l2mask.set k (v.extractLsb' 0 16) })

/-! ## Pairs and contexts -/

/-- Lets (R190, R191, R195, R196, R207): a let adds one to its counter and to the lets of its slot's group, and changes no
register and no byte of memory; the other slot's group keeps its count; its card is that of its cause. The next one after
three on a group stops the copy of a split pair. A line that differs at its eviction is discarded when it is clean and
written poisoned when it is dirty and both copies pass their codes. -/
def Obligations.Lets : Prop :=
  (∀ s (p : Fin 18) cause copy slot async k, Calm s → pairWorks s p = true → (∀ l b, cause ≠ .miscompareLine l b) →
    k = (if (s.pair p).st = .split then copy else slot) → ((s.pair p).st = .split → letsSplit cause = true) →
    (s.pair p).groupOf k < 3 →
    ∃ t, exec (.letRollback p cause copy slot async) s =
        .next (settle (match (if async then none else letKind cause) with
          | none => t
          | some m => card t p m (s.owner ((slotCtx s p k).getD 0)) (if m = 2 then b2n copy else 0) 0)) ∧
      (t.pair p).groupOf k = (s.pair p).groupOf k + 1 ∧ (t.pair p).groupOf (!k) = (s.pair p).groupOf (!k) ∧
      (t.pair p).letcnt = (if async then (s.pair p).letcnt else satInc (s.pair p).letcnt) ∧
      (t.pair p).divcnt = (if async then satInc (s.pair p).divcnt else (s.pair p).divcnt) ∧ t.mem = s.mem ∧
      ∀ c, (t.ctx c).a = (s.ctx c).a ∧ (t.ctx c).x = (s.ctx c).x ∧ (t.ctx c).y = (s.ctx c).y ∧
        (t.ctx c).ps = (s.ctx c).ps ∧ (t.ctx c).pc = (s.ctx c).pc) ∧
  (∀ s (p : Fin 18) cause copy slot async c, Calm s → pairWorks s p = true → (s.pair p).st = .split →
    letsSplit cause = true → 3 ≤ (s.pair p).groupOf copy → slotCtx s p copy = some c →
    ∃ t, exec (.letRollback p cause copy slot async) s = .next (settle (card t p 6 (s.owner c) (b2n copy) 0)) ∧
      (t.ctx c).run = .stopped ∧ (t.ctx c).pc = (s.ctx c).pc ∧ (t.pair p).groupOf copy = 0 ∧
      (t.pair p).letcnt = (s.pair p).letcnt ∧ (∀ d, d ≠ c → t.ctx d = s.ctx d) ∧ t.mem = s.mem) ∧
  (∀ s (p : Fin 18) line both copy slot async l, Calm s → pairWorks s p = true → (s.pair p).st = .active →
    l2Find s p line = some l →
    (l.dirty = false → exec (.letRollback p (.miscompareLine line both) copy slot async) s =
      .next (settle (card (dropL2 s p line) p 7 l.inst.toNat 0 (line * 128)))) ∧
    (l.dirty = true → both = true → exec (.letRollback p (.miscompareLine line both) copy slot async) s =
      .next (settle (card (addPoison (l3Insert (dropL2 s p line) line l.inst true) line) p 8 l.inst.toNat 0
        (line * 128))))) ∧
  ∀ s (p : Fin 18) cause copy slot async, Calm s → pairWorks s p = false →
    exec (.letRollback p cause copy slot async) s = .next s

/-- Substitution and hand-over (R198, R200, R201, R202, R205, R206, R208, R210, R212): a code error of the umpire begins a
substitution, which takes the lowest bench pair or waits for one in progress; a bench pair that fails its test is fenced
and the next is tried; the one that passes takes over the contexts, which keep their registers, and the old pair is fenced;
a hand-over ends SPLIT or ACTIVE, and a pair that joins has empty L2s and a cleared predictor; a slot window writes its
context, or the write is held while the pair is in transition. -/
def Obligations.PairCommands : Prop :=
  (∀ s (p : Fin 18) slot b, Calm s → pairWorks s p = true → (s.pair p).st = .active → (∀ q, (s.pair q).subst = none) →
    benchPair s = some b →
    ∃ t, exec (.umpireCodeError p slot) s = .next (settle t) ∧ (t.pair p).st = .substituting ∧
      (t.pair p).subst = some { bench := some b, told := true, passed := false, mb := none, turn := 1 } ∧
      (t.pair p).lastlet.reason = 6 ∧ (t.pair p).lastlet.slot = slot ∧ (t.pair p).letcnt = (s.pair p).letcnt) ∧
  (∀ s (p : Fin 18) slot, Calm s → pairWorks s p = true → (s.pair p).st = .active → (s.pair p).subst = none →
    substServed s = true →
    ∃ t u, exec (.umpireCodeError p slot) s = .next (settle t) ∧ (t.pair p).st = .substituting ∧
      (t.pair p).subst = some u ∧ u.bench = none ∧ (t.pair p).letcnt = (s.pair p).letcnt) ∧
  (∀ s (b : Fin 18) p u, Calm s →
    (pairNums.find? fun q => decide ((s.pair q).subst.bind (·.bench) = some b.val)) = some p →
    (s.pair p).subst = some u →
    exec (.benchSelfTestDone b true) s =
      .next (s.setPair p { s.pair p with subst := some { u with passed := true } })) ∧
  (∀ s (b : Fin 18) p u d, Calm s →
    (pairNums.find? fun q => decide ((s.pair q).subst.bind (·.bench) = some b.val)) = some p →
    (s.pair p).subst = some u → (s.pair p).st = .substituting → (s.pair b).st = .bench →
    (∀ q, q ≠ p → (s.pair q).subst = none) →
    (pairNums.find? fun q => decide ((s.pair q).st = .bench) && !(s.pair q).failed && decide (q ≠ b.val)) = some d →
    ∃ t, exec (.benchSelfTestDone b false) s = .next (settle t) ∧ (t.pair b).st = .fenced ∧ (t.pair b).failed = true ∧
      (t.pair p).subst = some { u with bench := some d, told := true } ∧ b.val ∈ t.crp.kept.fenced ∧ t.mem = s.mem) ∧
  (∀ s (p : Fin 18) n u b, Calm s → (s.pair p).subst = some u → u.bench = some b → u.passed = true → u.mb = none →
    (∀ q, q ≠ p.val → (s.pair q).subst = none) → b ≠ p.val → (s.pair p).held = [] →
    ∃ t, exec (.substitutionResume p n) s = .next t ∧ (t.pair b).st = .active ∧ (t.pair b).slot0 = (s.pair p).slot0 ∧
      (t.pair b).slot1 = (s.pair p).slot1 ∧ (t.pair p).st = .fenced ∧ (t.pair p).slot0 = none ∧ t.mem = s.mem ∧
      ∀ c, (t.ctx c).a = (s.ctx c).a ∧ (t.ctx c).pc = (s.ctx c).pc ∧ (t.ctx c).ps = (s.ctx c).ps) ∧
  (∀ s (p : Fin 18) h, Calm s → (s.pair p).handover = some h → (s.pair p).held = [] →
    ∃ t, exec (.handoverComplete p) s = .next t ∧ (t.pair p).st = (if h.toSplit then .split else .active) ∧
      (t.pair p).handover = none ∧ t.mem = s.mem ∧ t.ctxs = s.ctxs ∧
      (h.toSplit = false → (t.pair p).pred = [] ∧ (t.pair p).predT = [] ∧ ∀ l ∈ t.caches.l2, l.owner % 18 ≠ p.val) ∧
      ∀ n, h.mb = some n → (t.mb n).st = .done) ∧
  (∀ s r (p : Fin 18) k (off : BitVec 14) v c, Reaches s r (slotOff p k off.toNat) (.slot p k off.toNat) →
    slotHeld s p = false → (s.pair p).gated = false → slotCtx s p k = some c →
    (off = 0x3000 → exec (.slotWindowWrite r p k off v) s =
      .next (s.setCtx c { s.ctx c with pc := v &&& ~~~1#64, rep := false })) ∧
    (off = 0x3008 → exec (.slotWindowWrite r p k off v) s = .next (s.setCtx c { s.ctx c with a := v }))) ∧
  ∀ s r (p : Fin 18) k (off : BitVec 14) v, Reaches s r (slotOff p k off.toNat) (.slot p k off.toNat) →
    slotHeld s p = true →
    exec (.slotWindowWrite r p k off v) s = .next (s.setPair p { s.pair p with
      held := (s.pair p).held ++ [{ req := r, inst := reqInst s r, write := true
                                    off := (if k then 0xC000 else 0x8000) + off.toNat, w := 8, v := v }] })

/-- GATE, NAP, reset, release and wake of contexts (R53, R362, R364, R366, R367): an idle pair in AUTO gates with its L2
empty, and leaves GATE again; a wake source completes the WAIT of a context in NAP with WK = 0; a C reset clears the
registers and the ERT state of the context; a released context runs, a fresh one to its reset entry, and the release of one
that is not STOPPED has no effect; a wake write sets the latch. -/
def Obligations.ContextPower : Prop :=
  (∀ s (p : Fin 18), Calm s → bitOf s.crp.auto p = true → (s.pair p).gated = false →
    (s.pair p).st = .active ∨ (s.pair p).st = .split → pairIdle s p = true →
    (∃ t, exec (.gateEntry p false) s = .next t ∧ (t.pair p).gated = true ∧
      (∀ l ∈ t.caches.l2, l.owner % 18 ≠ p.val) ∧ t.mem = s.mem) ∧
    exec (.gateEntry p true) s = .next (cleanL2 s p)) ∧
  (∀ s (p : Fin 18), Calm s → (s.pair p).gated = true → (s.pair p).st ≠ .bench → (s.pair p).st ≠ .fenced →
    ∃ t, exec (.gateExit p) s = .next t ∧ (t.pair p).gated = false ∧ (t.pair p).pred = [] ∧ t.mem = s.mem) ∧
  (∀ s (c : Fin 32) p k, Calm s → wakeSource s c = true → placeOf s c = some (p, k) → (s.pair p).gated = false →
    (s.ctx c).run = .nap → haltDue s c = false →
    exec (.napWake c) s = .next (s.setCtx c { s.ctx c with
      run := .run, pc := (s.ctx c).pc + w64 (s.ctx c).waitLen, ps := setBit (s.ctx c).ps 16 false, wakeLatch := false })) ∧
  (∀ s (c : Fin 32), Calm s →
    ∃ t, exec (.contextReset c) s = .next t ∧ t.ctx c = { Ctx.reset with mct := (s.ctx c).mct } ∧ stackOf t c = [] ∧
      slotAt t c = none ∧ (∀ d, d ≠ c.val → t.ctx d = s.ctx d) ∧ t.mem = s.mem) ∧
  (∀ s (c : Fin 32) p k, Calm s → placeOf s c = some (p, k) → (s.pair p).gated = false → (s.pair p).st ≠ .fenced →
    (s.dup.st ≠ .backup ∨ bitOf s.dup.ckptMask c = false) → (s.ctx c).run = .stopped →
    ((s.ctx c).fresh = true →
      exec (.contextRelease c) s = .next (s.setCtx c { s.ctx c with run := .run, entering := true })) ∧
    ((s.ctx c).fresh = false → exec (.contextRelease c) s = .next (({ s with aud := { s.aud with
      halt := setBit s.aud.halt c false } } : State).setCtx c { s.ctx c with run := .run, dbgHalted := false }))) ∧
  (∀ s (c : Fin 32), Calm s → (s.ctx c).run ≠ .stopped → exec (.contextRelease c) s = .next s) ∧
  ∀ s (c : Fin 32) p k, Calm s → placeOf s c = some (p, k) → (s.pair p).gated = false → (s.ctx c).run ≠ .nap →
    exec (.contextWakeWrite c) s = .next (s.setCtx c { s.ctx c with wakeLatch := true })

/-! ## Event router -/

/-- An event carries the instance and innings of the work that caused it; one whose innings is stale is discarded and sets
no pending bit (R215). One whose innings is current sets the pending bit of its source and nothing else (R216); a ball and a
software source are raised by no block (R213). What the block sends arrives: no event waits for a credit (R12). -/
def Obligations.StaleEventDiscarded : Prop :=
  (∀ s (n : Fin 1024) (i : BitVec 8) (k : BitVec 12), Calm s → Flows s → s.inningsOf i.toNat ≠ k →
    exec (.eventArrival n i k) s = .next s) ∧
  (∀ s (n : Fin 1024) (i : BitVec 8) (k : BitVec 12), Calm s → Flows s → s.inningsOf i.toNat = k →
    reservedSource n = false → blockSource n = true →
    exec (.eventArrival n i k) s = .next { s with ert := { s.ert with pend := setBit s.ert.pend n true } }) ∧
  ∀ s (n : Fin 1024) (i : BitVec 8) (k : BitVec 12), Calm s → (blockSource n = false ∨ reservedSource n = true) →
    exec (.eventArrival n i k) s = .next s

/-- An MSI-X write with data outside 0 to 127 raises no source and is counted in ERT_MSIDROP (R214); one within raises its
source, 512 plus the data for port 0, 640 plus the data for port 1 (R213). -/
def Obligations.MsixOutOfRangeDropped : Prop :=
  (∀ s port (data : BitVec 32), Calm s → 127 < data.toNat →
    exec (.msixWrite port data) s = .next { s with ert := { s.ert with msidrop := satInc s.ert.msidrop } }) ∧
  ∀ s port (data : BitVec 32), Calm s → Flows s → data.toNat ≤ 127 →
    exec (.msixWrite port data) s = .next { s with ert := { s.ert with
      pend := setBit s.ert.pend ((if port then 640 else 512) + data.toNat) true } }

/-- R218: a masked source gathers pending state but is never selected; a write of 1 to a bit of ERT_PENDk clears the
pending bit of an edge source, and does nothing to a level source or to one in a slot or in service. -/
def Obligations.PendingWrites : Prop :=
  (∀ s n, Flows s → reservedSource n = false → n < 1024 →
    bitOf (raise s n).ert.pend n = true ∧ (raise s n).ert.mask = s.ert.mask) ∧
  (∀ s n, bitOf s.ert.mask n = true → n ∉ candidates s) ∧
  ∀ s r (k : Fin 16) v, Reaches s r (0x100100 + 8 * k.val) (.ertPend k) →
    ∃ p, exec (.ertPendWrite r k v) s = .next { s with ert := { s.ert with pend := p } } ∧
      ∀ n, bitOf p n =
        (bitOf s.ert.pend n && !(decide (n / 64 = k.val) && bitOf v (n % 64) && !isLevel s n && !inSlot s n &&
          !inService s n))

/-- The event router's other commands (R216, R217, R220 to R229): what each leaves. -/
def Obligations.EventRouterCommands : Prop :=
  (∀ s (n : Fin 64) level held sampled, Calm s → fld (srcOf s n) 55 48 + 2 ≤ held → isLevel s n = true →
    exec (.evtBallChange n level held sampled) s =
      .next { s with ert := { s.ert with ball := setBit s.ert.ball n level } }) ∧
  (∀ s (n : Fin 64) level held sampled, Calm s → fld (srcOf s n) 55 48 + 2 ≤ held → isLevel s n = false →
    bitOf s.ert.ball n ≠ level → bitOf (srcOf s n) 60 ≠ level →
    exec (.evtBallChange n level held sampled) s =
      .next { s with ert := { s.ert with ball := setBit s.ert.ball n level, pend := setBit s.ert.pend n true } }) ∧
  (∀ s, Calm s → exec .ertSelection s = .next (ertCycle s)) ∧
  (∀ s (c : Fin 32) d p k, Calm s → noCredit s .eventDelivery 0 c = false → slotAt s c = some d →
    placeOf s c = some (p, k) → (s.pair p).gated = false →
    exec (.deliveryArrival c) s =
      .next ((setSlot s c (some { d with arrived := true })).setCtx c (s.ctx c).wake)) ∧
  (∀ s (c : Fin 32) d, Calm s → slotAt s c = some d → withdrawDue s c = true → isLevel s d.source = false →
    ∃ t, exec (.deliveryWithdrawal c) s = .next t ∧ slotAt t c = none ∧
      t.ert.pend = setBit s.ert.pend d.source true) ∧
  (∀ s r (k : Fin 16) v, Reaches s r (0x100200 + 8 * k.val) (.ertMaskset k) →
    ∃ t, exec (.ertMasksetWrite r k v) s = .next t ∧
      t.ert.mask = s.ert.mask ||| ((v.setWidth 1024) <<< (64 * k.val)) ∧
      ∀ c d, c < 32 → slotAt s c = some d → d.source / 64 = k.val → bitOf v (d.source % 64) = true →
        (d.age < 25 → slotAt t c = some { d with lateMask := true }) ∧ (25 ≤ d.age → slotAt t c = none)) ∧
  (∀ s r (k : Fin 16) v, Reaches s r (0x100280 + 8 * k.val) (.ertMaskclr k) →
    exec (.ertMaskclrWrite r k v) s =
      .next { s with ert := { s.ert with mask := s.ert.mask &&& ~~~((v.setWidth 1024) <<< (64 * k.val)) } }) ∧
  (∀ s r v, Reaches s r 0x100400 .ertSwraise →
    ∃ p, exec (.ertSwraise r v) s = .next { s with ert := { s.ert with pend := p } } ∧
      ∀ n, bitOf p n = (bitOf s.ert.pend n || (decide (128 ≤ n) && decide (n < 192) && bitOf v (n - 128)))) ∧
  (∀ s r (n : Fin 1024) v, Reaches s r (0x102000 + 8 * n.val) (.ertSrc n) → fld v 47 40 < 0xE0 →
    exec (.ertSrcWrite r n v) s =
      .next { s with ert := { s.ert with src := s.ert.src.set n (v &&& srcMask n) } }) ∧
  (∀ s r (n : Fin 1024) v, Reaches s r (0x102000 + 8 * n.val) (.ertSrc n) → 0xE0 ≤ fld v 47 40 →
    exec (.ertSrcWrite r n v) s = .next (settle (card s 480 0x0E (reqInst s r) 0 (0x102000 + 8 * n.val)))) ∧
  (∀ s (c : Fin 32) e l, Reaches s (.ctx c) 0x108008 .ertEoi → stackOf s c = e :: l →
    ∃ t, exec (.ertEoi c) s = .next t ∧ stackOf t c = l ∧ t.mem = s.mem) ∧
  (∀ s (c : Fin 32), Reaches s (.ctx c) 0x108008 .ertEoi → stackOf s c = [] →
    exec (.ertEoi c) s = .next { s with ert := { s.ert with underflow := setBit s.ert.underflow c true } }) ∧
  ∀ s r (c : Fin 32) e l, Reaches s r (0x100808 + 0x40 * c.val) (.ertEoic c) → stackOf s c = e :: l →
    ∃ t, exec (.ertEoic r c) s = .next t ∧ stackOf t c = l ∧ t.mem = s.mem

/-- A source goes to an eligible context that is among the least busy (R219, R220): no other eligible context that has had
no delivery in this cycle runs at a lower priority. -/
def Obligations.LeastBusyChosen : Prop :=
  ∀ s used n c, chooseCtx s used n = some c →
    c < 32 ∧ eligible s n c = true ∧ c ∉ used ∧
      ∀ d, d < 32 → eligible s n d = true → d ∉ used → runPrio s c ≤ runPrio s d

/-! ## Fault collection -/

/-- The FCR (R43, R234, R236, R240 to R243, R245, R296): a card whose reaction is INT opens in the slot of its severity and
raises its ERT source, with the fields that its row of R236 gives a meaning; one that is only logged closes itself into the
log; a key slot whose copies have failed is erased, and the command that a firmware error names ends INTERNAL; a close frees
the slot and logs the card; HOLD follows FCR_PIN; the pulse ends; the management link and the watchdog report theirs. -/
def Obligations.FaultCommands : Prop :=
  (∀ s (f : FaultRec) v, Calm s → Flows s → f.bound = none → severity f.source f.kind.toNat = some v → v < 4 →
    ¬(f.source = 306 ∧ f.kind = 3) → ¬(f.source = 320 ∧ f.kind = 1) →
    actionOf (reactOf s f.source) v = 1 → pinOf (reactOf s f.source) v = false →
    keyOf (reactOf s f.source) v = false → openCard s v = none →
    ∃ t o, exec (.faultCard f) s = .next t ∧ openCard t v = some o ∧ o.source = f.source ∧ o.kind = f.kind ∧
      o.inst = f.inst ∧ o.copyLane = (if laneMeant f.source then f.copyLane else 0) ∧
      o.address = (if addrMeant f.source f.kind.toNat then f.address else 0) ∧ o.merged = 0 ∧
      bitOf t.ert.pend (264 + v) = true ∧ t.fcr.log = s.fcr.log ∧ t.mem = s.mem ∧ t.ctxs = s.ctxs) ∧
  (∀ s (f : FaultRec) v, Calm s → Flows s → f.bound = none → severity f.source f.kind.toNat = some v → v < 4 →
    ¬(f.source = 306 ∧ f.kind = 3) → ¬(f.source = 320 ∧ f.kind = 1) →
    actionOf (reactOf s f.source) v = 0 → pinOf (reactOf s f.source) v = false →
    keyOf (reactOf s f.source) v = false → openCard s v = none → s.fcr.log.length < 1024 →
    ∃ t e, exec (.faultCard f) s = .next t ∧ t.fcr.log = s.fcr.log ++ [e] ∧ e.seq = s.fcr.nextSeq ∧
      openCard t v = none ∧ t.ert = s.ert ∧ t.mem = s.mem ∧ t.ctxs = s.ctxs) ∧
  (∀ s (f : FaultRec), s.live = true → f.bound = none → f.source = 306 → f.kind = 3 →
    ∃ t, exec (.faultCard f) s = .next (settle t) ∧ keySlot t f.address.toNat = none ∧
      ∀ m, m ≠ f.address.toNat → keySlot t m = keySlot s m) ∧
  (∀ s (f : FaultRec), s.live = true → f.bound = none → f.source = 320 → f.kind = 1 → f.address.toNat < 64 →
    (s.mb f.address.toNat).busy = true →
    ∃ t, exec (.faultCard f) s = .next (settle (soloRelease t)) ∧ (t.mb f.address.toNat).st = .failed ∧
      (t.mb f.address.toNat).code = 0x0B) ∧
  (∀ s r v o, Reaches s r 0x200008 .fcrClose → openCard s (fld v 1 0) = some o →
    ∃ t, exec (.fcrClose r v) s = .next t ∧ openCard t (fld v 1 0) = none ∧
      t.fcr.nextSeq = s.fcr.nextSeq + 1 ∧ t.mem = s.mem ∧ t.ert = s.ert) ∧
  (∀ s r v, Reaches s r 0x200010 .fcrPin →
    exec (.fcrPinWrite r v) s = .next { s with fcr := { s.fcr with hold := bitOf v 0 } }) ∧
  (∀ s, quiet s = true → exec .nerrPulseEnd s = .next { s with fcr := { s.fcr with pulse := false } }) ∧
  (∀ s u, s.live = true →
    exec (.mgmtLinkError u) s = .next (settle (card s 167 (if u then 2 else 1) 0 0 0))) ∧
  ∀ s, s.live = true → exec .watchdogRestart s = .next (settle (soloRelease (spReset (card s 320 3 0 0 0))))

/-! ## Service processor -/

/-- R38: an SP block reset ends every mailbox in ACCEPTED, RUNNING or PARTIAL with FAILED and RESET_ABORTED; PHASE, TAG and
PROGRESS stay, the PROGRESS of an INSTANCE_RESET that waits for its work at what it shows; the result area is cleared; every
other mailbox stays as it was. What a bind that has ended held back then finishes, and control accesses that waited for the
block are sent (flushCtl, soloRelease). A power-on or module reset returns every mailbox to its reset values. -/
def Obligations.SpResetEndsCommands : Prop :=
  (∀ s, s.live = true → bitOf s.crp.brstat 8 = false →
    ∃ t, exec (.blockReset .sp) s = .next (settle (flushCtl (soloRelease t))) ∧ ∀ n, n < 64 →
      ((s.mb n).st = .accepted ∨ (s.mb n).st = .running ∨ (s.mb n).st = .partialSt →
        (t.mb n).st = .failed ∧ (t.mb n).code = 0x0A ∧ (t.mb n).phase = (s.mb n).phase ∧ (t.mb n).tag = (s.mb n).tag ∧
          (t.mb n).res = [] ∧ ((s.mb n).opcode ≠ 0x0401 → (t.mb n).progress = (s.mb n).progress) ∧
          ∀ i, (s.mb n).opcode = 0x0401 → (s.mb n).st ≠ .accepted → i = fld ((s.mb n).arg 1) 7 0 → i < 4 →
            (s.inst i).drainMb = some n → (s.mb n).progress.toNat ≤ workEnded s i →
            (t.mb n).progress = BitVec.ofNat 32 (workEnded s i)) ∧
      ((s.mb n).st ≠ .accepted → (s.mb n).st ≠ .running → (s.mb n).st ≠ .partialSt → t.mb n = s.mb n)) ∧
  ∀ s n c, (pReset s).mb n = .reset n ∧ (mReset s c).mb n = .reset n

/-- The mailbox hardware and the command checks (R34 to R37, R42): START captures the command area and clears the result
area, and is ignored while a command runs; CONTINUE takes the next chunk of a command in PARTIAL, and is ignored otherwise;
ABORT ends a command that waits, and is ignored while one runs that it cannot end; a check refuses with the first code that applies, or
confirms; a dispatch starts the oldest waiting command whose resource is free, an ATTEST with its report (R397). -/
def Obligations.Mailboxes : Prop :=
  (∀ s r (n : Fin 64), Reaches s r (0x400 * n.val + 0x308) (.mbGo n) → (s.mb n).st = .idle →
    ∃ t, exec (.mbGoStart r n) s = .next t ∧ (t.mb n).st = .accepted ∧
      (t.mb n).cap = some { words := (List.range 32).map fun k => (s.mb n).cmd.get k 0, req := r, inst := reqInst s r } ∧
      (t.mb n).res = [] ∧
      (t.mb n).phase = !(s.mb n).phase ∧ (t.mb n).tag = ((s.mb n).cmd.get 0 0).extractLsb' 32 16 ∧
      (t.mb n).progress = 0 ∧ (t.mb n).cmd = (s.mb n).cmd) ∧
  (∀ s r (n : Fin 64), Reaches s r (0x400 * n.val + 0x308) (.mbGo n) → (s.mb n).st = .running →
    exec (.mbGoStart r n) s = .next (s.setMb n { s.mb n with goIgnored := true })) ∧
  (∀ s r (n : Fin 64), Reaches s r (0x400 * n.val + 0x308) (.mbGo n) → (s.mb n).st = .partialSt →
    exec (.mbGoContinue r n) s = .next (s.setMb n { s.mb n with
      cap := some { words := (List.range 32).map fun k => (s.mb n).cmd.get k 0, req := r, inst := reqInst s r }
      st := .running, chunk := true })) ∧
  (∀ s r (n : Fin 64), Reaches s r (0x400 * n.val + 0x308) (.mbGo n) → (s.mb n).st ≠ .partialSt →
    exec (.mbGoContinue r n) s = .next (s.setMb n { s.mb n with goIgnored := true })) ∧
  (∀ s r (n : Fin 64), Reaches s r (0x400 * n.val + 0x308) (.mbGo n) → (s.mb n).st = .accepted →
    ∃ t, exec (.mbGoAbort r n) s = .next t ∧ (t.mb n).st = .failed ∧ (t.mb n).code = 7 ∧ (t.mb n).res = []) ∧
  (∀ s r (n : Fin 64), Reaches s r (0x400 * n.val + 0x308) (.mbGo n) → (s.mb n).st = .running →
    abortable s (s.mb n) = false →
    exec (.mbGoAbort r n) s = .next (s.setMb n { s.mb n with goIgnored := true })) ∧
  (∀ s (n : Fin 64) k, Calm s → (s.mb n).st = .accepted → (s.mb n).checked = false → s.sp.fw = .running →
    noCredit s .mailbox n 0 = false → refusal s (s.mb n) = some k → k < 256 →
    ∃ t, exec (.commandCheck n) s = .next t ∧ (t.mb n).st = .refused ∧ (t.mb n).code = BitVec.ofNat 8 k) ∧
  (∀ s (n : Fin 64), Calm s → (s.mb n).st = .accepted → (s.mb n).checked = false → s.sp.fw = .running →
    noCredit s .mailbox n 0 = false → refusal s (s.mb n) = none →
    exec (.commandCheck n) s = .next (s.setMb n { s.mb n with checked := true, code := 0x0C#8 })) ∧
  (∀ s n, Calm s → s.sp.fw = .running → (busyMbs s).length < 8 → nextCommand s = some n → (s.mb n).opcode ≠ 0x0602 →
    exec .commandDispatch s = .next (s.setMb n { s.mb n with st := .running, code := 0, out := [] })) ∧
  ∀ s n b, Calm s → s.sp.fw = .running → (busyMbs s).length < 8 → nextCommand s = some n → (s.mb n).opcode = 0x0602 →
    b = report s [(s.mb n).arg 1, (s.mb n).arg 2, (s.mb n).arg 3, (s.mb n).arg 4] →
    exec .commandDispatch s =
      .next (s.setMb n { s.mb n with st := .running, code := 0, out := bytesWords b.length b })

/-! ## The command set -/

/-- SUBSTITUTE, SPLIT_PAIR, JOIN_PAIR, WAY_DELETE and the memory channel commands (R44, R177, R183, R184): what each does
when it is taken up and none of its failures applies. -/
def Obligations.DcsPairsMemory : Prop :=
  (∀ s (n : Fin 64) x t p b, TakesUp s n 0x0100 x t → argPair x = some p → (s.pair p).st = .active →
    (∀ q, (s.pair q).subst = none) → benchPair s = some b →
    ∃ u, exec (.substitute n) s = .next (settle u) ∧ (u.pair p).st = .substituting ∧
      (u.pair p).subst = some { bench := some b, told := true, passed := false, mb := some n.val, turn := 1 }) ∧
  (∀ s (n : Fin 64) x t p, quiet s = true → TakesUp s n 0x0101 x t → argPair x = some p → (s.pair p).st = .active →
    ∃ u, exec (.splitPair n) s = .next u ∧ (u.pair p).st = .handover ∧
      (u.pair p).handover = some { toSplit := true, mb := some n.val } ∧ u.mem = s.mem ∧ u.ctxs = s.ctxs) ∧
  (∀ s (n : Fin 64) x t p, quiet s = true → TakesUp s n 0x0102 x t → argPair x = some p → (s.pair p).st = .split →
    ∃ u, exec (.joinPair n) s = .next u ∧ (u.pair p).st = .handover ∧
      (u.pair p).handover = some { toSplit := false, mb := some n.val } ∧ u.mem = s.mem ∧ u.ctxs = s.ctxs) ∧
  (∀ s (n : Fin 64) x t way, quiet s = true → TakesUp s n 0x0200 x t → stray x [(1, 0xF11F03#64)] = false →
    fld (x.arg 1) 1 0 = 2 → fld (x.arg 1) 12 8 ≤ 17 → (x.arg 2).toNat = way → way < 16 →
    l2Deleted s (fld (x.arg 1) 12 8) way = false → waysLeft s false (fld (x.arg 1) 12 8) ≠ 1 →
    bitOf s.caches.l2lock way = false →
    ∃ u, exec (.wayDelete n) s = .next u ∧ (u.mb n).st = .done ∧ (u.mb n).code = 0 ∧ u.mem = s.mem ∧
      bitOf (u.caches.l2del.get (fld (x.arg 1) 12 8) 0#32) (way + 16 * b2n (bitOf (x.arg 1) 16)) = true ∧
      u.crp.kept.l2del = u.caches.l2del ∧ ∀ l ∈ u.caches.l2, inWay false (fld (x.arg 1) 12 8) way l = false) ∧
  (∀ s (n : Fin 64) x t, quiet s = true → TakesUp s n 0x0200 x t → stray x [(1, 0xF11F03#64)] = false →
    fld (x.arg 1) 1 0 = 3 → (x.arg 2).toNat < 32 →
    bitOf (s.caches.l3del.get (fld (x.arg 1) 21 20 * 4 + fld (x.arg 1) 23 22) 0#32) (x.arg 2).toNat = false →
    waysLeft s true (fld (x.arg 1) 21 20 * 4 + fld (x.arg 1) 23 22) ≠ 1 →
    bitOf s.caches.l3lock (x.arg 2).toNat = false →
    ∃ u, exec (.wayDelete n) s = .next u ∧ (u.mb n).st = .done ∧ u.mem = s.mem ∧
      bitOf (u.caches.l3del.get (fld (x.arg 1) 21 20 * 4 + fld (x.arg 1) 23 22) 0#32) (x.arg 2).toNat = true) ∧
  (∀ s (n : Fin 64) x t, quiet s = true → Flows s → TakesUp s n 0x0201 x t → (x.arg 1).toNat ≤ 11 →
    s.chst (x.arg 1).toNat = .online → othersOnline s (x.arg 1).toNat = true →
    ∃ u, exec (.memChannelOffline n) s = .next u ∧ u.chst (x.arg 1).toNat = .offline ∧ (u.mb n).st = .done ∧
      bitOf u.ert.pend 287 = true ∧ u.mem = s.mem) ∧
  (∀ s (n : Fin 64) x t, quiet s = true → TakesUp s n 0x0202 x t → (x.arg 1).toNat ≤ 11 →
    s.chst (x.arg 1).toNat = .offline → s.memc.skip.get (x.arg 1).toNat 0 = 0 →
    ∃ u, exec (.memChannelRebuild n .trained) s = .next u ∧ u.chst (x.arg 1).toNat = .rebuilding ∧
      (u.mb n).st = .running ∧ (u.mb n).step = 2 ∧ (u.mb n).aux = (x.arg 1).toNat ∧ u.mem = s.mem) ∧
  (∀ s (n : Fin 64) mib k, Calm s → running s n 0x0202 = true → (s.mb n).step = 2 →
    ∃ u, exec (.memChannelRebuild n (.advance mib k)) s = .next u ∧
      u.memc.ptr.get (s.mb n).aux 0 = s.memc.ptr.get (s.mb n).aux 0 + mib * 8192 ∧ u.memc.ch = s.memc.ch ∧
      u.mem = s.mem) ∧
  ∀ s (n : Fin 64), Calm s → running s n 0x0202 = true → (s.mb n).step = 2 →
    ∃ u, exec (.memChannelRebuild n .finished) s = .next u ∧ u.chst (s.mb n).aux = .online ∧ (u.mb n).st = .done ∧
      u.mem = s.mem

/-- Keys, format tables and instances (R44, R46, R274, R275, R296, R298, R299, R309, R313, R317 to R321): a key is loaded into an
empty slot, slots are erased, a table is loaded whole or waits for its next chunk, an instance is created with full
buckets, and its reset advances the innings and then, when the boundaries hold it, stops its contexts; the reset of a
privileged instance ends when its work has. -/
def Obligations.DcsKeysTablesInstances : Prop :=
  (∀ s (n : Fin 64) x t slot ty kek key, quiet s = true → TakesUp s n 0x0300 x t → slot = fld (x.arg 1) 11 0 →
    ty = fld (x.arg 1) 19 16 → stray x [(1, 0xF0FFF#64), (2, 0xFFFF#64)] = false → ty ≤ 3 →
    x.argWords = 2 + wrappedLen ty / 8 → (256 ≤ slot ∨ ty < 2) →
    ((x.arg 2).toNat < 256 ∨ (x.arg 2).toNat = 0x8000) → inAlarm s = false → s.ciph.erasing = false →
    kekOf s (x.arg 2).toNat = some kek → kwUnwrap kek (wordsBytes (x.argsFrom 3)) = some key →
    (ty < 2 ∨ key.take (key.length / 2) ≠ key.drop (key.length / 2)) → keySlot s slot = none →
    ∃ u, exec (.keyLoad n) s = .next u ∧ (u.mb n).st = .done ∧ (u.mb n).code = 0 ∧
      keySlot u slot = some { ktype := BitVec.ofNat 4 ty, key := key, counter := 1, kcv := kcvOf ty key } ∧
      (∀ m, m ≠ slot → keySlot u m = keySlot s m) ∧ u.mem = s.mem) ∧
  (∀ s (n : Fin 64) x t, Flows s → TakesUp s n 0x0301 x t → (x.arg 2).toNat ≠ 0 →
    (x.arg 1).toNat + (x.arg 2).toNat ≤ 4096 →
    ∃ u, exec (.keyErase n) s = .next (settle u) ∧ (u.mb n).st = .done ∧ bitOf u.ert.pend 274 = true ∧
      ∀ m, keySlot u m =
        if (x.arg 1).toNat ≤ m ∧ m < (x.arg 1).toNat + (x.arg 2).toNat then none else keySlot s m) ∧
  (∀ s (n : Fin 64) x t b, quiet s = true → TakesUp s n 0x0302 x t → stray x [(1, 0x1F000F#64)] = false →
    tableInUse s ((x.arg 1).toNat % 16) ((x.arg 1).toNat / 2 ^ 16) = false →
    takeChunk x.buf (x.argsFrom 3) (x.arg 2).toNat x.last = .complete b → tableOk b = true →
    ∃ u, exec (.formatLoad n) s = .next u ∧ (u.mb n).st = .done ∧ (u.mb n).code = 0 ∧ u.mem = s.mem ∧
      ∀ z, z < 4 → zipTable u z ((x.arg 1).toNat / 2 ^ 16) =
        if ((x.arg 1).toNat % 16).testBit z then some { bytes := b, crc := crc32c b }
        else zipTable s z ((x.arg 1).toNat / 2 ^ 16)) ∧
  (∀ s (n : Fin 64) x t b, quiet s = true → TakesUp s n 0x0302 x t → stray x [(1, 0x1F000F#64)] = false →
    tableInUse s ((x.arg 1).toNat % 16) ((x.arg 1).toNat / 2 ^ 16) = false →
    takeChunk x.buf (x.argsFrom 3) (x.arg 2).toNat x.last = .more b →
    ∃ u, exec (.formatLoad n) s = .next u ∧ (u.mb n).st = .partialSt ∧ (u.mb n).buf = b ∧ u.zips = s.zips ∧
      u.mem = s.mem) ∧
  (∀ s (n : Fin 64) x t i, quiet s = true → TakesUp s n 0x0400 x t → i = (x.arg 1).toNat → 4 ≤ i → i ≤ 255 →
    stray x [(2, 0x7F7F7F#64), (3, 0xFFFFFFFF#64), (4, 0xFFFFFF#64), (5, 0xFFFFFFFF#64), (6, 0xFFFFFF#64),
      (7, 0xFFFFFFFF#64), (8, 0xFFFFFF#64)] = false → badWeight (x.arg 2) = false →
    badBucket (bucketWord (x.arg 3) (x.arg 4)) false = false →
    badBucket (bucketWord (x.arg 5) (x.arg 6)) true = false →
    badBucket (bucketWord (x.arg 7) (x.arg 8)) true = false → (s.inst i).present = false →
    ∃ u, exec (.instanceCreate n) s = .next u ∧ (u.mb n).st = .done ∧ (u.inst i).present = true ∧
      (u.inst i).weight = x.arg 2 ∧ (u.inst i).bktch = bucketWord (x.arg 3) (x.arg 4) ∧
      (u.inst i).bktz = bucketWord (x.arg 5) (x.arg 6) ∧ (u.inst i).bktk = bucketWord (x.arg 7) (x.arg 8) ∧
      (∀ k, k < 7 → tokensOf u i k = burstOf u i k) ∧ (∀ j, j ≠ i → u.inst j = s.inst j) ∧ u.mem = s.mem) ∧
  (∀ s (n : Fin 64) x t i, quiet s = true → TakesUp s n 0x0401 x t → i = fld (x.arg 1) 7 0 → 4 ≤ i →
    stray x [(1, 0x1FF#64), (2, 0x1FFF#64)] = false → (s.inst i).present = true →
    (bitOf (x.arg 2) 12 = false ∨ (s.inst i).innings = (x.arg 2).extractLsb' 0 12) →
    ∃ u, exec (.instanceReset n) s = .next u ∧ (u.mb n).st = .running ∧ (u.inst i).innings = (s.inst i).innings + 1 ∧
      (u.inst i).phase = .resetting ∧ (u.inst i).drainMb = some n.val ∧
      u.chan.recvs = s.chan.recvs.filter (fun o => decide (o.inst.toNat ≠ i)) ∧ u.ctxs = s.ctxs ∧ u.mem = s.mem) ∧
  (∀ s (n : Fin 64) i, Calm s → running s n 0x0401 = true → (s.mb n).step ≠ 0 → i = fld ((s.mb n).arg 1) 7 0 →
    (s.inst i).phase = .resetting → (s.inst i).drainMb = some n.val →
    ∃ u, exec (.instanceReset n) s = .next u ∧ (u.mb n).st = .done ∧ (u.inst i).phase = .idle ∧
      (u.inst i).innings = (s.inst i).innings ∧
      (∀ c, c < 32 → s.owner c = i → (u.ctx c).run = .stopped ∧ (u.ctx c).a = (s.ctx c).a ∧
        (u.ctx c).pc = (s.ctx c).pc) ∧
      (∀ c, c < 32 → s.owner c ≠ i → u.ctx c = s.ctx c) ∧ u.mem = s.mem) ∧
  (∀ s (i : Fin 4) n, Calm s → Flows s → (s.inst i).drainMb = some n → workLeft s i = 0 →
    ∃ u, exec (.instanceDrainComplete i) s = .next u ∧ (u.inst i).innings = (s.inst i).innings + 1 ∧
      (u.inst i).phase = .idle ∧ (u.mb n).st = .done ∧ bitOf u.ert.pend 275 = true ∧ u.mem = s.mem) ∧
  (∀ s r (c : Fin 32) v, Reaches s r (0x7000100 + 8 * c.val) (.instCtxown c) → (s.inst (fld v 7 0)).present = true →
    exec (.instCtxownWrite r c v) s =
      .next { s with insts := { s.insts with ctxown := s.insts.ctxown.set c (v.extractLsb' 0 8) } }) ∧
  ∀ s r (c : Fin 32) v, Reaches s r (0x7000100 + 8 * c.val) (.instCtxown c) → (s.inst (fld v 7 0)).present = false →
    exec (.instCtxownWrite r c v) s =
      .next (settle (card s 480 0x0E (reqInst s r) 0 (0x7000100 + 8 * c.val)))

/-- Time, sensors, firmware, logs, warm reset and LK_WRITE (R44 to R47, R246, R270, R344, R345, R360, R369, R397): what
each does when it is taken up and none of its failures applies, and the events of a firmware activation. Whether a package
is signed is a free value, so both its ends are stated. -/
def Obligations.DcsTimeFirmware : Prop :=
  (∀ s (n : Fin 64) x t, quiet s = true → TakesUp s n 0x0500 x t → stray x [(3, 0xFFFF0003#64)] = false →
    (bitOf (x.arg 3) 1 = false ∨ s.time.steps = (x.arg 3).extractLsb' 16 16) → bitOf (x.arg 3) 0 = false →
    ∃ u, exec (.todSet n) s = .next u ∧ u.tod = x.arg 1 ++ x.arg 2 ∧ u.time.set = true ∧
      u.time.steps = s.time.steps + 1 ∧ u.time.clkfault = false ∧ (u.mb n).st = .done ∧ u.mem = s.mem) ∧
  (∀ s (n : Fin 64) x t, quiet s = true → TakesUp s n 0x0500 x t → stray x [(3, 0xFFFF0003#64)] = false →
    (bitOf (x.arg 3) 1 = false ∨ s.time.steps = (x.arg 3).extractLsb' 16 16) → bitOf (x.arg 3) 0 = true →
    exec (.todSet n) s = .next { t with time := { t.time with setAtPps := some n.val } }) ∧
  (∀ s (n : Fin 64), Calm s → s.time.setAtPps = some n.val → running s n 0x0500 = true →
    ∃ u, exec (.todSetNoPps n) s = .next u ∧ u.time.setAtPps = none ∧ (u.mb n).st = .failed ∧ (u.mb n).code = 0x53 ∧
      u.tod = s.tod) ∧
  (∀ s (n : Fin 64) x t, quiet s = true → TakesUp s n 0x0501 x t →
    x.arg 1 = BitVec.ofInt 64 (signedOf 32 (x.arg 1).toNat) → (x.arg 2).toInt.natAbs ≤ 2 ^ 31 → x.arg 3 ≠ 0 →
    (x.arg 3).toNat < 2 ^ 32 → (x.arg 3).toNat ≠ s.time.steer.toNat →
    (s.time.disc = false ∨ s.time.locked = false) →
    ∃ u, exec (.todSteer n) s = .next u ∧ u.time.trim = (x.arg 1).extractLsb' 0 32 ∧
      u.time.steerOff = (x.arg 2).toInt ∧ u.time.steerDone = 0 ∧ u.time.slewing = decide (x.arg 2 ≠ 0) ∧
      (u.mb n).st = (if x.arg 2 ≠ 0 then .running else .done) ∧ u.tod = s.tod ∧ u.mem = s.mem) ∧
  (∀ s (n : Fin 64) x t k pts, quiet s = true → TakesUp s n 0x0502 x t → k = (x.arg 1).toNat → k ≤ 31 → k ≠ 30 →
    pts = (x.argsFrom 2).map calPoint → (∀ w ∈ x.argsFrom 2, fld w 63 48 = 0) → 2 ≤ pts.length → rising pts = true →
    (∀ p ∈ pts, (calRange k).1 ≤ p.2.toInt ∧ p.2.toInt ≤ (calRange k).2) →
    ∃ u, exec (.sensorCalibrate n) s = .next u ∧ u.crp.kept.curves.get k none = some pts ∧ (u.mb n).st = .done ∧
      u.mem = s.mem) ∧
  (∀ s (n : Fin 64) x t b, quiet s = true → TakesUp s n 0x0600 x t → (x.arg 1).toNat ≤ 8388608 →
    takeChunk x.buf (x.argsFrom 2) (x.arg 1).toNat x.last = .complete b →
    ∃ u, exec (.fwStage n) s = .next u ∧
      u.sp.staged =
        (if Config.packageSigned b = true ∧ s.crp.kept.rollback.toNat ≤ (Config.packageVersion b).toNat then
          some { bytes := b, version := Config.packageVersion b, minimum := Config.packageMinimum b } else none) ∧
      (u.mb n).st = (if u.sp.staged.isSome = true then .done else .failed) ∧ u.mem = s.mem) ∧
  (∀ s (n : Fin 64) x t b, quiet s = true → TakesUp s n 0x0600 x t → (x.arg 1).toNat ≤ 8388608 →
    takeChunk x.buf (x.argsFrom 2) (x.arg 1).toNat x.last = .more b →
    ∃ u, exec (.fwStage n) s = .next u ∧ (u.mb n).st = .partialSt ∧ (u.mb n).buf = b) ∧
  (∀ s (n : Fin 64) x t p, quiet s = true → TakesUp s n 0x0601 x t → (x.arg 1).toNat ≤ 1000000 →
    s.sp.staged = some p → s.sp.fw = .running → (busyMbs s).any (fun m => decide (m ≠ n.val)) = true →
    exec (.fwActivate n) s =
      .next { t with sp := { t.sp with activateMb := some n.val, old := s.sp.running, retried := 0, seqDone := 0 } }) ∧
  (∀ s (n : Fin 64) x t p, TakesUp s n 0x0601 x t → (x.arg 1).toNat ≤ 1000000 → s.sp.staged = some p →
    s.sp.fw = .running → (busyMbs s).all (fun m => decide (m = n.val)) = true →
    ∃ u k, exec (.fwActivate n) s = .next (settle { soloRelease u with
        sp := { (soloRelease u).sp with fw := .switching, retried := k } }) ∧
      u.sp.activateMb = some n.val ∧ u.sp.old = s.sp.running ∧
      ∀ m, m < 64 → m ≠ n.val → (s.mb m).st = .accepted → (u.mb m).st = .failed ∧ (u.mb m).code = 8) ∧
  (∀ s n, Calm s → n < 64 → s.sp.activateMb = some n → s.sp.fw = .running → (s.mb n).step = 1 →
    ∃ u k, exec .fwDrainLimitExpiry s = .next (settle { soloRelease u with
        sp := { (soloRelease u).sp with fw := .switching, retried := k } }) ∧
      ∀ m, m < 64 → m ≠ n → (s.mb m).busy = true ∨ (s.mb m).st = .accepted →
        (u.mb m).st = .failed ∧ (u.mb m).code = 8) ∧
  (∀ s n p, Calm s → s.sp.fw = .switching → s.sp.activateMb = some n → s.sp.staged = some p →
    ∃ u, exec (.fwImageSwitchDone true) s = .next u ∧ u.sp.fw = .running ∧ u.sp.running = p.version ∧
      u.chan.seqstat = 1 ∧ (u.mb n).step = 2) ∧
  (∀ s n p, Calm s → s.sp.fw = .switching → s.sp.activateMb = some n → s.sp.staged = some p →
    ∃ u, exec (.fwImageSwitchDone false) s = .next u ∧ u.sp.fw = .running ∧ u.sp.running = s.sp.running ∧
      u.sp.activateMb = none ∧ (u.mb n).st = .failed ∧ (u.mb n).code = 0x59) ∧
  (∀ s n, Calm s → Flows s → s.sp.activateMb = some n → s.sp.fw = .running → (s.mb n).step = 2 →
    s.dup.st ≠ .takingOver → s.sp.seqDone < 7 →
    ∃ u, exec .sequencerUpdateStep s = .next (settle u) ∧ u.sp.seqDone = s.sp.seqDone + 1 ∧
      u.chan.seqstat = BitVec.ofNat 8 (2 ^ (s.sp.seqDone + 1)) ∧ bitOf u.ert.pend 315 = true) ∧
  (∀ s n, Calm s → s.sp.activateMb = some n → s.sp.fw = .running → (s.mb n).step = 2 → s.dup.st = .takingOver →
    exec .sequencerUpdateStep s = .next s) ∧
  (∀ s n, Calm s → s.sp.activateMb = some n → s.sp.fw = .running → (s.mb n).step = 2 → s.dup.st ≠ .takingOver →
    s.sp.seqDone = 7 →
    ∃ u, exec .sequencerUpdateStep s = .next (settle u) ∧ (u.mb n).st = .done ∧ u.sp.staged = none ∧
      u.sp.activateMb = none ∧ u.sp.lastActivated = some s.sp.running) ∧
  (∀ s (n : Fin 64) x t, quiet s = true → TakesUp s n 0x0602 x t →
    ∃ u, exec (.attest n) s = .next u ∧ (u.mb n).res = mkRes x (decide (63 < x.out.length)) (x.out.take 63) ∧
      (u.mb n).out = x.out.drop 63 ∧ (u.mb n).st = (if x.out.length ≤ 63 then .done else .partialSt) ∧
      u.mem = s.mem) ∧
  (∀ s (n : Fin 64) x t ws, quiet s = true → TakesUp s n 0x0603 x t → stray x [(3, 1#64)] = false →
    ws = (logPick s (x.arg 1).toNat (x.arg 2).toNat).flatMap (·.words) →
    ∃ u, exec (.faultLogRead n) s = .next u ∧ (u.mb n).res = mkRes x (decide (60 < ws.length)) (ws.take 60) ∧
      (u.mb n).st = (if ws.length ≤ 60 then .done else .partialSt) ∧
      (bitOf (x.arg 3) 0 = false → u.fcr = s.fcr) ∧
      (bitOf (x.arg 3) 0 = true → ws.length ≤ 60 → u.fcr.log = s.fcr.log.filter (fun e =>
        decide (e.seq ∉ (logPick s (x.arg 1).toNat (x.arg 2).toNat).map (·.seq))))) ∧
  (∀ s (n : Fin 64) x t, TakesUp s n 0x0700 x t → (∀ m, m < 64 → m ≠ n → (s.mb m).busy = false) →
    ∃ u, exec (.warmReset n) s = .next (settle u) ∧ u.sp.warmMb = some n.val ∧
      (∀ c, midPrefix s c = false → (u.ctx c).run = .stopped) ∧ (∀ c, midPrefix s c = true → u.ctx c = s.ctx c) ∧
      ((∀ c, midPrefix s c = false) → u.chan.quiesce = true) ∧ u.mem = s.mem) ∧
  (∀ s n, s.live = true → n < 64 → running s n 0x0700 = true → (s.mb n).step = 1 →
    (∀ m, m < 64 → m ≠ n → running s m 0x0700 = false) →
    ∃ u k, exec .warmResetWaitExpiry s = .next (settle (warmBegin (soloRelease u) n k)) ∧
      ∀ m, m < 64 → m ≠ n → (s.mb m).busy = true → (u.mb m).st = .failed ∧ (u.mb m).code = 0x0A) ∧
  (∀ s (n : Fin 64) x t g m, TakesUp s n 0x0800 x t → (x.arg 1).toNat % 8 = 0 → regAt (x.arg 1).toNat = some g →
    regMapped s g = true → lkMask g = some m → x.arg 3 &&& ~~~m = 0 → (∀ k, g ≠ .mbCtrl k) →
    ∃ u, exec (.lkWrite n) s = .next (settle u) ∧ (u.mb n).st = .done ∧ (u.mb n).code = 0) ∧
  ∀ s (n : Fin 64) x t, quiet s = true → TakesUp s n 0x0800 x t → x.arg 1 = 0x4000008 → x.arg 3 = 0x3FFF →
    ∃ u, exec (.lkWrite n) s = .next u ∧ u.chan.modid = (x.arg 2).extractLsb' 0 14 ∧ (u.mb n).st = .done ∧
      u.mem = s.mem

/-! ## Channel subsystem -/

/-- The channel's registers (R250, R253, R254, R258, R262, R268, R319): binding in both ways, unbinding, the journal's tail,
an accepted SEND and an accepted RECEIVE, a doorbell that was in flight when its instance was reset, and the choice for a
port's next flit window. -/
def Obligations.ChannelRegisters : Prop :=
  (∀ s r (n : BitVec 16), Reaches s r 0x4000030 .chanBind → MemoryCanonical s → subReach s n.toNat = true →
    sdState s n.toNat = 0 →
    ∃ u, exec (.chanBindFresh r n) s = .next u ∧ sdWord u n.toNat 2 = 1 ∧ sdWord u n.toNat 3 = 1 ∧
      sdWord u n.toNat 4 = 0 ∧ sdWord u n.toNat 6 = w64 (1 + n.toNat % 8 * 256) ∧ u.chan.bindSub = n ∧
      u.chan.sends = s.chan.sends ∧ u.chan.recvs = s.chan.recvs) ∧
  (∀ s r (n : BitVec 16), Reaches s r 0x4000030 .chanBind → subReach s n.toNat = true → sdState s n.toNat ≠ 0 →
    exec (.chanBindFresh r n) s = .next s) ∧
  (∀ s r (n : BitVec 16), Reaches s r 0x4000030 .chanBind → MemoryCanonical s → subReach s n.toNat = true →
    (sdState s n.toNat = 0 ∨ sdState s n.toNat = 2) →
    ∃ u, exec (.chanBindSync r n) s = .next u ∧ sdState u n.toNat = 3 ∧ u.chan.bindSub = n ∧
      u.chan.sends = s.chan.sends ∧
      (∀ p, firstPort s n.toNat = some p → (u.port p).out = (s.port p).out ++ [.syncReq n.toNat]) ∧
      (firstPort s n.toNat = none → u.chan.unsent = s.chan.unsent ++ [.syncReq n.toNat])) ∧
  (∀ s r (n : BitVec 16), Reaches s r 0x4000030 .chanBind → subReach s n.toNat = true →
    (sdState s n.toNat = 1 ∨ sdState s n.toNat = 2) → n.toNat ∉ s.chan.unbinding →
    ∃ u, exec (.chanUnbind r n) s = .next (settle u) ∧ u.chan.unbinding = n.toNat :: s.chan.unbinding ∧
      u.chan.recvs = s.chan.recvs.filter (fun o => decide (o.s ≠ n.toNat)) ∧ u.chan.sends = s.chan.sends) ∧
  (∀ s (n : BitVec 16), Calm s → MemoryCanonical s → subReach s n.toNat = true → n.toNat ∈ s.chan.unbinding →
    (∀ o ∈ s.chan.sends, o.s ≠ n.toNat) →
    ∃ u, exec (.unbindComplete n) s = .next u ∧ sdState u n.toNat = 0 ∧ n.toNat ∉ u.chan.unbinding ∧
      u.chan.sends = s.chan.sends ∧ u.chan.recvs = s.chan.recvs) ∧
  (∀ s r (i : Fin 256) v, Reaches s r (0x4001018 + 0x20 * i.val) (.chanJtail i) →
    (∀ k, ringBits s i = some k → s.inMemory (ringBase s i) (128 * 2 ^ k) = true) →
    ((∀ k ∈ (ringEntries s i).takeWhile (fun k => decide (k ≠ fld v 23 0)), fld (entryWord0 s i k) 52 50 ≠ 0) →
      ∃ u, exec (.chanJtailWrite r i v) s = .next u ∧ (u.jour i).tail = BitVec.ofNat 24 (fld v 23 0) ∧
        (u.jour i).head = (s.jour i).head ∧ u.mem = s.mem) ∧
    ((s.jour i).tail.toNat ≠ fld v 23 0 →
      (∃ k ∈ (ringEntries s i).takeWhile (fun k => decide (k ≠ fld v 23 0)), fld (entryWord0 s i k) 52 50 = 0) →
      exec (.chanJtailWrite r i v) s =
        .next (settle (card s 480 0x0E (reqInst s r) 0 (0x4001018 + 0x20 * i.val))))) ∧
  (∀ s r (n : BitVec 16) v issued w, Reaches s r (0x4100000 + 8 * n.toNat) (.chanDb n.toNat) → IssuedNow s r issued →
    subReach s n.toNat = true → opbReach s v = true → v &&& 0xFFF000000000007F#64 = 0 →
    reqInst s r = sdInst s n.toNat → s.chan.en = true → s.dup.relinquishing = false → s.chan.quiesce = false →
    sdState s n.toNat = 1 → n.toNat ∉ s.chan.unbinding → queued s n.toNat < sdDepth s n.toNat →
    s.refusesWork (reqInst s r) = false → ringFull s (sdInst s n.toNat) = false →
    w = (List.range 8).map (fun k => Memory.word s.mem (v.toNat + 8 * k)) → badOpb w = false →
    (fld (w.getD 0 0) 3 0 = 1 → s.time.dlbits &&& w.getD 2 0 = 0 → txSeq s n.toNat < 2 ^ 48 →
      (∀ u ∈ s.chan.unjournalled, u.s = n.toNat → u.opid ≠ w.getD 1 0) → rebuiltSend s n.toNat (w.getD 1 0) = none →
      ∃ u o, exec (.chanDoorbell r n v issued) s = .next (settle u) ∧ u.chan.sends = s.chan.sends ++ [o] ∧
        o.s = n.toNat ∧ o.opb = v.toNat ∧ o.opid = w.getD 1 0 ∧ o.seq = BitVec.ofNat 48 (txSeq s n.toNat) ∧
        o.st = .queued ∧ o.length = (w.getD 4 0).toNat ∧ o.innings = s.inningsOf (reqInst s r) ∧ o.tod = s.tod ∧
        u.chan.recvs = s.chan.recvs) ∧
    (fld (w.getD 0 0) 3 0 = 2 → s.chan.early = [] →
      ∃ o, exec (.chanDoorbell r n v issued) s =
          .next { s with chan := { s.chan with recvs := s.chan.recvs ++ [o] } } ∧ o.s = n.toNat ∧ o.opb = v.toNat ∧
        o.capacity = (w.getD 4 0).toNat ∧ o.innings = s.inningsOf (reqInst s r))) ∧
  (∀ s (c : Fin 32) (n : BitVec 16) v k, Calm s → Issues s (.ctx c) (0x4100000 + 8 * n.toNat) →
    k.innings ≠ s.inningsOf k.inst.toNat → exec (.chanDoorbell (.ctx c) n v (some k)) s = .next s) ∧
  (∀ s (n : Fin 4) p o, Calm s → s.chan.en = true → (s.port n).isUp = true → chosenSend s n = none →
    p = s.setPort n { s.port n with chosen := none } →
    (p.chan.sends.filter fun o => eligibleFlit p n o && (p.port n).mayData n (linkClass p o)).find? (firstTier p) = some o →
    findSend s o.s o.seq = some o →
    ∃ u, exec (.sendSchedule n) s = .next u ∧ (u.port n).chosen = some (o.s, o.seq) ∧
      (findSend u o.s o.seq).map (·.st) = some .onWire ∧ u.mem = s.mem) ∧
  ∀ s (n : Fin 4) p l o, Calm s → s.chan.en = true → (s.port n).isUp = true → chosenSend s n = none →
    p = s.setPort n { s.port n with chosen := none } →
    l = p.chan.sends.filter (fun o => eligibleFlit p n o && (p.port n).mayData n (linkClass p o)) →
    l.find? (firstTier p) = none → secondTier p l = some o → o.st = .queued → findSend s o.s o.seq = some o →
    ∃ u, exec (.sendSchedule n) s = .next u ∧ (u.port n).chosen = some (o.s, o.seq) ∧
      (findSend u o.s o.seq).map (·.st) = some .onWire ∧
      (findSend u o.s o.seq).map (·.demoted) = some (o.demoted || decide (o.cls = 0)) ∧ u.mem = s.mem

/-- Messages of the fabric and their timers (R250, R257, R259 to R262): an accepted message is acknowledged, and so is one that
has been received already; an unbound subchannel and one without a RECEIVE answer with a NAK; acknowledgements, NAKs and
timers move the operation they name; synchronisation ends BOUND. -/
def Obligations.ChannelMessages : Prop :=
  (∀ s (p : Fin 4) h l o os, s.live = true → (s.port p).isUp = true → forUs s h = true →
    subReach s h.dstSub.toNat = true → sdState s h.dstSub.toNat ≠ 0 → fromRemote s h = true →
    h.seq.toNat = rxExpect s h.dstSub.toNat → bitOf (rxMap s h.dstSub.toNat) 0 = false →
    (∀ m ∈ s.chan.early ++ s.chan.rxHeld, m.s ≠ h.dstSub.toNat) → s.chan.quiesce = false → crc32c l = h.crc →
    l.length = h.length.toNat → posted s h.dstSub.toNat = o :: os → l.length ≤ o.capacity →
    ringFull s (sdInst s h.dstSub.toNat) = false → mirroring s = false →
    ∃ u, exec (.dataMessage p h l) s = .next (settle u) ∧
      (u.port p).out = (s.port p).out ++ [.ack (answer h)] ∧ u.chan.sends = s.chan.sends) ∧
  (∀ s (p : Fin 4) h l, Calm s → (s.port p).isUp = true → forUs s h = true → subReach s h.dstSub.toNat = true →
    sdState s h.dstSub.toNat ≠ 0 → fromRemote s h = true → h.seq.toNat < rxExpect s h.dstSub.toNat →
    exec (.dataMessage p h l) s = .next (queueOut s p (.ack (answer h)))) ∧
  (∀ s (p : Fin 4) h l, Calm s → (s.port p).isUp = true → forUs s h = true → subReach s h.dstSub.toNat = true →
    (sdState s h.dstSub.toNat = 0 ∨ fromRemote s h = false) →
    exec (.dataMessage p h l) s = .next (queueOut s p (.nak (answer h) .refused))) ∧
  (∀ s h o, s.live = true → forUs s h = true → fromRemote s h = true → subReach s h.dstSub.toNat = true →
    findSend s h.dstSub.toNat h.seq = some o → o.st ≠ .heldBack → mirroring s = false →
    ∃ u, exec (.ackMessage h) s = .next (settle u) ∧
      u.chan.sends =
        s.chan.sends.filter (fun k => !(decide (k.s = h.dstSub.toNat) && decide (k.seq = h.seq)))) ∧
  (∀ s h o, Calm s → forUs s h = true → fromRemote s h = true → subReach s h.dstSub.toNat = true →
    findSend s h.dstSub.toNat h.seq = some o → o.st = .onWire →
    (o.rnr < limitOf s 47 40 →
      exec (.nakMessage h .rnr) s = .next (setSend s { o with st := .rnrWait, rnr := o.rnr + 1 })) ∧
    (o.counted + 1 < limitOf s 31 24 → exec (.nakMessage h .badCrc) s = .next (setSend (chanJoin s o.inst.toNat o.cls.toNat)
        { o with st := .queued, counted := o.counted + 1, stay := false, left := 0 })) ∧
    ∃ u, exec (.nakMessage h .refused) s = .next (settle u) ∧
      (Flows s → s.inningsOf o.inst.toNat = o.innings → bitOf u.ert.pend 313 = true) ∧
      ∀ k ∈ u.chan.sends, k.s = h.dstSub.toNat → k.st = .heldBack) ∧
  (∀ s (p : Fin 4) h, Calm s → forUs s h = true → subReach s h.dstSub.toNat = true →
    sdState s h.dstSub.toNat ≠ 0 → fromRemote s h = true →
    exec (.syncReq p h) s = .next (queueOut s p (.syncRsp (answer h) (BitVec.ofNat 48 (rxExpect s h.dstSub.toNat))
      (rxMap s h.dstSub.toNat) (opidList s h.dstSub.toNat)))) ∧
  (∀ s (p : Fin 4) h, Calm s → forUs s h = true → subReach s h.dstSub.toNat = true →
    (sdState s h.dstSub.toNat = 0 ∨ fromRemote s h = false) → exec (.syncReq p h) s = .next (queueOut s p (.nak (answer h) .refused))) ∧
  (∀ s h rx map opids, s.live = true → MemoryCanonical s → forUs s h = true → fromRemote s h = true → subReach s h.dstSub.toNat = true →
    sdState s h.dstSub.toNat = 3 →
    ∃ u, exec (.syncRsp h rx map opids) s = .next (settle u) ∧ sdState u h.dstSub.toNat = 1) ∧
  (∀ s h d, Calm s → MemoryCanonical s → forUs s h = true → fromRemote s h = true → subReach s h.dstSub.toNat = true →
    sdState s h.dstSub.toNat ≠ 0 → h.seq.toNat = rxExpect s h.dstSub.toNat + d → d < 64 →
    (d ≠ 0 → exec (.syncSkip h) s =
      .next (setSd s h.dstSub.toNat 4 (setBit (rxMap s h.dstSub.toNat) d true))) ∧
    (d = 0 → rxMap s h.dstSub.toNat = 0 → s.chan.early = [] →
      ∃ u, exec (.syncSkip h) s = .next u ∧
        rxExpect u h.dstSub.toNat = (rxExpect s h.dstSub.toNat + 1) % 2 ^ 48 ∧ u.chan = s.chan)) ∧
  (∀ s (n : BitVec 16) q o, Calm s → subReach s n.toNat = true → findSend s n.toNat q = some o → o.st = .onWire →
    frozen s n.toNat = false →
    (o.counted + 1 < limitOf s 31 24 → exec (.e2eTimeout n q) s = .next (setSend (chanJoin s o.inst.toNat o.cls.toNat)
        { o with st := .queued, counted := o.counted + 1, stay := false, left := 0 })) ∧
    (limitOf s 31 24 ≤ o.counted + 1 →
      ∃ u, exec (.e2eTimeout n q) s = .next (settle u) ∧
        (Flows s → s.inningsOf o.inst.toNat = o.innings → bitOf u.ert.pend 313 = true) ∧
        ∀ k ∈ u.chan.sends, k.s = n.toNat → k.st = .heldBack)) ∧
  (∀ s (n : BitVec 16) q o, Calm s → subReach s n.toNat = true → findSend s n.toNat q = some o → o.st = .rnrWait →
    exec (.rnrRetryTimer n q) s =
      .next (setSend (chanJoin s o.inst.toNat o.cls.toNat) { o with st := .queued, stay := true, left := 0 })) ∧
  (∀ s (n : BitVec 16) q o, s.live = true → subReach s n.toNat = true → findSend s n.toNat q = some o →
    o.st ≠ .heldBack → upPorts s n.toNat = [] → frozen s n.toNat = false →
    ∃ u, exec (.nopathTimeout n q) s = .next (settle u) ∧
      (Flows s → s.inningsOf o.inst.toNat = o.innings → bitOf u.ert.pend 313 = true) ∧
      ∀ k ∈ u.chan.sends, k.s = n.toNat → k.st = .heldBack) ∧
  ∀ s (n : BitVec 16), Calm s → MemoryCanonical s → subReach s n.toNat = true → sdState s n.toNat = 3 →
    ∃ u, exec (.syncTimeout n) s = .next u ∧ sdState u n.toNat = 2 ∧ u.chan.sends = s.chan.sends ∧
      u.chan.recvs = s.chan.recvs ∧ .syncReq n.toNat ∉ u.chan.unsent

/-- What a flit window sends (R262, R264, R265, R268, R324), while nothing that a bind held back is to finish: a replayed
flit, a CONTROL flit, a flit of the answer in front, a flit of the chosen SEND, the records of port M, or IDLE. -/
def Obligations.FlitWindows : Prop :=
  (∀ s (n : Fin 5) e l, Calm s → soloRelease s = s → (s.port n).isUp = true → (s.port n).replaying = e :: l →
    ∃ u f, exec (.flitWindow n) s = .next u ∧ (u.port n).last = some f ∧ f.ftype = e.ftype ∧ f.lseq = e.lseq ∧
      f.cls = e.cls ∧ f.seg = e.seg ∧ (u.port n).replaying = l ∧ (u.port n).replay = (s.port n).replay ∧
      (u.port n).credits = (s.port n).credits ∧ u.mem = s.mem) ∧
  (∀ s (n : Fin 5) m l, Calm s → soloRelease s = s → (s.port n).isUp = true → (s.port n).replaying = [] →
    (s.port n).ctl = m :: l → (s.port n).replay.length < replaySize n →
    ∃ u f, exec (.flitWindow n) s = .next u ∧ (u.port n).last = some f ∧ f.ftype = 2 ∧ f.lseq = (s.port n).txSeq ∧
      f.link = m.note ∧ (u.port n).ctl = l ∧ (u.port n).txSeq = (s.port n).txSeq + 1 ∧
      (u.port n).replay.length = (s.port n).replay.length + 1 ∧ (u.port n).credits = (s.port n).credits ∧ u.mem = s.mem) ∧
  (∀ s (n : Fin 5) m l k, n.val < 4 → Calm s → soloRelease s = s → (s.port n).isUp = true → (s.port n).replaying = [] →
    (s.port n).ctl = [] → (s.port n).rest = 0 → (s.port n).out = m :: l → k = flitsOf m.shape.2 →
    0 < (s.port n).credits.getD m.shape.1.toNat 0 → (s.port n).replay.length < replaySize n →
    ∃ u f, exec (.flitWindow n) s = .next u ∧ (u.port n).last = some f ∧ f.ftype = 1 ∧ f.lseq = (s.port n).txSeq ∧
      f.cls = m.shape.1 ∧ f.seg = segOf k k ∧ (u.port n).txSeq = (s.port n).txSeq + 1 ∧
      (u.port n).replay = (s.port n).replay ++
        [{ ftype := 1, lseq := (s.port n).txSeq, cls := m.shape.1, seg := segOf k k, ctl := none }] ∧
      (u.port n).rest = k - 1 ∧ (u.port n).out = l ∧ u.mem = s.mem) ∧
  (∀ s (n : Fin 5) o, n.val < 4 → Calm s → soloRelease s = s → (s.port n).isUp = true → (s.port n).replaying = [] →
    (s.port n).ctl = [] → (s.port n).rest = 0 → (s.port n).out = [] → s.chan.en = true → chosenSend s n = some o →
    ∃ u f, exec (.flitWindow n) s = .next u ∧ (u.port n).last = some f ∧ f.ftype = 1 ∧ f.lseq = (s.port n).txSeq ∧
      f.cls = linkClass s o ∧ f.seg = segOf (flitsOf o.length) o.left ∧ (u.port n).txSeq = (s.port n).txSeq + 1 ∧
      (u.port n).chosen = none ∧ (findSend u o.s o.seq).map (·.left) = some (o.left - 1) ∧ u.mem = s.mem) ∧
  (∀ s m l, Calm s → soloRelease s = s → (s.port 4).isUp = true → (s.port 4).replaying = [] → (s.port 4).ctl = [] →
    copying s = false → (s.port 4).mir = m :: l → (s.port 4).mayData 4 m.cls = true →
    ∃ u f, exec (.flitWindow 4) s = .next u ∧ (u.port 4).last = some f ∧ f.ftype = 1 ∧ f.lseq = (s.port 4).txSeq ∧
      f.cls = m.cls ∧ (u.port 4).txSeq = (s.port 4).txSeq + 1 ∧
      ((u.port 4).mir, (u.port 4).mirPart) = packRecords m.cls 384 (s.port 4).mirPart (m :: l) ∧ u.mem = s.mem) ∧
  ∀ s (n : Fin 5), Calm s → soloRelease s = s → (s.port n).isUp = true → (s.port n).replaying = [] →
    (s.port n).ctl = [] → (n.val < 4 → (s.port n).rest = 0 ∧ (s.port n).out = [] ∧
      ∀ o ∈ s.chan.sends, o.st ≠ .queued ∧ o.st ≠ .onWire) →
    (n = 4 → copying s = false ∧ (s.port 4).mir = []) →
    ∃ u f, exec (.flitWindow n) s = .next u ∧ (u.port n).last = some f ∧ f.ftype = 0 ∧
      (u.port n).txSeq = (s.port n).txSeq ∧ (u.port n).replay = (s.port n).replay ∧ u.mem = s.mem

/-- Links and root ports (R213, R264 to R267, R271, R272, R323, R385): what a received flit does, replay, lanes, link states,
and what a root port and the management link do. -/
def Obligations.LinksAndRootPorts : Prop :=
  (∀ s (n : Fin 5) f, Calm s → (s.port n).isUp = true → f.good = true → f.ftype = 1 → f.lseq = (s.port n).rxSeq →
    f.nak = false →
    ∃ u, exec (.flitReceived n f) s = .next u ∧ (u.port n).rxSeq = (s.port n).rxSeq + 1 ∧
      (u.port n).ackOwed = true ∧ (u.port n).credits = addCredits (s.port n).credits f.credits) ∧
  (∀ s (n : Fin 5) f, Calm s → (s.port n).isUp = true → f.good = false →
    exec (.flitReceived n f) s = .next (s.setPort n { s.port n with nakOwed := true })) ∧
  (∀ s (n : Fin 5) f, Calm s → (s.port n).st = .training → (s.port n).trained = true → f.good = true →
    f.ftype.toNat ≤ 2 → 63 ≤ (s.port n).good →
    ∃ u, exec (.flitReceived n f) s = .next u ∧ (u.port n).st = .up ∧ (u.port n).credits = linkCredits n ∧
      (n.val < 4 → (u.port n).txSeq = 0 ∧ (u.port n).rxSeq = 0) ∧
      (Flows s → bitOf u.ert.pend (280 + n.val) = true)) ∧
  (∀ s (n : Fin 5), s.live = true → (s.port n).isUp = true → (s.port n).replay ≠ [] →
    ∃ u, exec (.linkReplayTimeout n) s = .next (settle u) ∧ (u.port n).replaying = (s.port n).replay ∧
      (u.port n).replays = satInc (s.port n).replays) ∧
  (∀ s (n : Fin 5) (lane : Fin 9), s.live = true → lane.val ≤ spareLane n → (s.port n).isUp = true →
    laneActive (s.port n) n lane = true →
    ∃ u, exec (.laneFailure n lane) s = .next (settle u) ∧
      (u.port n).st = (if (s.port n).st = .upHalf then .down else if (s.port n).spare = true then .upHalf else .up) ∧
      (u.port n).laneFails = satInc (s.port n).laneFails) ∧
  (∀ s (n : Fin 5), s.live = true → (s.port n).isUp = true →
    ∃ u, exec (.linkSilenceTimeout n) s = .next (settle u) ∧ (u.port n).st = .down ∧
      (n.val < 4 → (u.port n).replay = []) ∧ (u.port n).losses = satInc (s.port n).losses ∧
      (Flows s → bitOf u.ert.pend (280 + n.val) = true)) ∧
  (∀ s (n : Fin 5), Calm s → (s.port n).st = .training →
    exec (.trainingComplete n true) s = .next (s.setPort n { s.port n with trained := true, good := 0 })) ∧
  (∀ s (n : Fin 5), s.live = true → (s.port n).st = .training →
    ∃ u, exec (.trainingComplete n false) s = .next (settle u) ∧ (u.port n).st = .down) ∧
  (∀ s (n : Fin 5), Calm s → (s.port n).st = .down → ((s.port n).en = true ∨ n = 4) →
    ∃ u, exec (.retrainTimer n) s = .next u ∧ (u.port n).st = .training ∧
      (Flows s → bitOf u.ert.pend (280 + n.val) = true) ∧ u.mem = s.mem) ∧
  (∀ s p (a : BitVec 64) n, Calm s → noCredit s .pcieInbound (b2n p) 0 = false → 1 ≤ n → n ≤ 512 →
    exec (.pcieInboundRequest p (.read a n)) s = .next { s with bus := { s.bus with
      cpl := if s.inMemory a.toNat n then .bytes (Memory.bytes s.mem a.toNat n) else .unsupported } }) ∧
  (∀ s p (a : BitVec 64) l, Calm s → noCredit s .pcieInbound (b2n p) 0 = false → MemoryCanonical s → 1 ≤ l.length →
    l.length ≤ 512 → (a ≠ 0xFEE00000#64 ∨ l.length ≠ 4) → s.inMemory a.toNat l.length = true →
    ∃ u, exec (.pcieInboundRequest p (.write a l)) s = .next u ∧ Memory.bytes u.mem a.toNat l.length = l ∧
      ∀ b, (b < a.toNat ∨ a.toNat + l.length ≤ b) → Memory.read u.mem b = Memory.read s.mem b) ∧
  (∀ s p l, Calm s → noCredit s .pcieInbound (b2n p) 0 = false → Flows s → l.length = 4 → leNat l ≤ 127 →
    exec (.pcieInboundRequest p (.write 0xFEE00000#64 l)) s = .next { s with ert := { s.ert with
      pend := setBit s.ert.pend ((if p then 640 else 512) + leNat l) true } }) ∧
  (∀ s p id, Calm s →
    ∃ u, exec (.rootPortLinkEvent p .linkUp id) s = .next u ∧ (Flows s → bitOf u.ert.pend (285 + b2n p) = true) ∧
      (if p then u.chan.rootUp1 else u.chan.rootUp0) = true ∧ u.mem = s.mem) ∧
  (∀ s p id ev k, s.live = true → (ev, k) ∈ [(RootEv.correctable, 1), (.nonFatal, 2), (.fatal, 3)] →
    exec (.rootPortLinkEvent p ev id) s =
      .next (settle (card (raise s (285 + b2n p)) (165 + b2n p) k 0 0 id.toNat))) ∧
  (∀ s p id, s.live = true →
    ∃ u, exec (.rootPortLinkEvent p .linkDown id) s = .next (settle (card u (165 + b2n p) 3 0 0 id.toNat)) ∧
      (if p then u.chan.rootUp1 else u.chan.rootUp0) = false ∧ u.mem = s.mem) ∧
  ∀ s a, quiet s = true → exec (.mgperst a) s = .next { s with chan := { s.chan with mgmtUp := !a } }

/-! ## Duplex pair -/

/-- Records of the duplex pair (R236, R324, R326, R330, R333, R340, R407): a WRITE record writes the sectors of its mask and no
other byte; one for an address that holds nothing, and a record of a reserved type, is dropped, counted and reported; the
other records are noted; the applied count answers what waits for it; a checkpoint writes its slot, or is skipped where the
context cannot be held. -/
def Obligations.DuplexRecords : Prop :=
  (∀ s (line : Line) data, Calm s → MemoryCanonical s → applies s = true → s.inMemory (line * 128) 128 = true →
    data.length = 128 →
    ∃ u, exec (.mirrorWrite line 0xFF#8 data 1) s = .next u ∧ Memory.bytes u.mem (line * 128) 128 = data ∧
      (∀ a, (a < line * 128 ∨ line * 128 + 128 ≤ a) → Memory.read u.mem a = Memory.read s.mem a) ∧
      u.dup.appliedHere = s.dup.appliedHere + 1) ∧
  (∀ s (line : Line) (j : Fin 8) data, Calm s → MemoryCanonical s → applies s = true →
    s.inMemory (line * 128) 128 = true → data.length = 16 →
    ∃ u, exec (.mirrorWrite line (BitVec.ofNat 8 (2 ^ j.val)) data 1) s = .next u ∧
      Memory.bytes u.mem (line * 128 + 16 * j.val) 16 = data ∧
      ∀ a, (a < line * 128 + 16 * j.val ∨ line * 128 + 16 * j.val + 16 ≤ a) → Memory.read u.mem a = Memory.read s.mem a) ∧
  (∀ s (line : Line) mask data, s.live = true → applies s = true → s.inMemory (line * 128) 128 = false →
    data.length = 16 * sectors mask →
    exec (.mirrorWrite line mask data 1) s = .next (settle (card { s with dup := { s.dup with
      dropped := satInc s.dup.dropped } } 308 1 0 0 s.dup.partner.toNat))) ∧
  (∀ s (k : BitVec 4) (line : Line) mask data, s.live = true → applies s = true → k ≠ 1 → k ≠ 2 → k ≠ 3 →
    exec (.mirrorWrite line mask data k) s = .next (settle (card { s with dup := { s.dup with
      dropped := satInc s.dup.dropped } } 308 1 0 0 s.dup.partner.toNat))) ∧
  (∀ s (i : BitVec 8) head, Calm s → applies s = true →
    ∃ u, exec (.mirrorJhead i head) s = .next u ∧ u.dup.jheads = s.dup.jheads.set i.toNat head ∧
      u.dup.appliedHere = s.dup.appliedHere + 1 ∧ u.mem = s.mem) ∧
  (∀ s b (c : Fin 32), Calm s → applies s = true →
    ∃ u, exec (.mirrorCkptCommit b c) s = .next u ∧ ({ ctx := c, buf := b } : Commit) ∈ u.dup.commits ∧
      u.dup.appliedHere = s.dup.appliedHere + 1 ∧ u.mem = s.mem) ∧
  (∀ s (n : BitVec 64), s.live = true → mirroring s = true →
    ∃ u, exec (.appliedCount n) s = .next (settle (relinquishIfQuiet (releaseMirrored u))) ∧
      u.dup.partnerApplied = max s.dup.partnerApplied (min s.dup.sent (s.dup.sentBase + n.toNat)) ∧
      ∀ w ∈ u.dup.syncWaiters, u.dup.partnerApplied < w.2) ∧
  (∀ s r, Calm s → Issues s r 0x8000010 → ctlCheck s r false 0x8000010 8 = .ok .dupxSync →
    (mirroring s = false ∨ s.dup.sent ≤ s.dup.partnerApplied) → partnerGone s = false →
    exec (.dupxSyncRead r) s = .next { s with bus := { s.bus with cpl := .data (appliedCount s) } }) ∧
  (∀ s r, Calm s → Issues s r 0x8000010 → ctlCheck s r false 0x8000010 8 = .ok .dupxSync → mirroring s = true →
    partnerGone s = false → s.dup.partnerApplied < s.dup.sent →
    exec (.dupxSyncRead r) s =
      .next (askCount { s with dup := { s.dup with syncWaiters := s.dup.syncWaiters ++ [(r, s.dup.sent)] } })) ∧
  (∀ s (c : Fin 32), Calm s → MemoryCanonical s → s.dup.st = .primary → bitOf s.dup.ckptMask c = true →
    s.dup.ckptMs ≠ 0 → ckptReady s c true = true → s.inMemory (slotAddr s c false) 512 = true →
    ∃ u b, exec (.checkpoint c true) s = .next u ∧
      b = decide ((s.dup.ckptSeq.get c 0 + 1) % 2 = 1) ∧
      Memory.bytes u.mem (slotAddr s c b) 256 = wordsBytes (ckptWords s c (s.dup.ckptSeq.get c 0 + 1)) ∧
      u.dup.sent = s.dup.sent + 4 ∧ u.ctxs = s.ctxs ∧
      ∀ a, (a < slotAddr s c b ∨ slotAddr s c b + 256 ≤ a) → Memory.read u.mem a = Memory.read s.mem a) ∧
  ∀ s (c : Fin 32) b, Calm s → s.dup.st = .primary → bitOf s.dup.ckptMask c = true → s.dup.ckptMs ≠ 0 →
    ckptReady s c b = false →
    exec (.checkpoint c b) s = .next { s with dup := { s.dup with skipped := satInc s.dup.skipped } }

/-- The states of the duplex pair (R325, R331, R332, R334, R335, R337, R338): heartbeats, the partner's bind, the loss of the
partner, fencing, relinquishing, takeover and binding. -/
def Obligations.DuplexStates : Prop :=
  (∀ s, Calm s → (s.port 4).isUp = true →
    exec .heartbeatSend s = .next (s.setPort 4 { s.port 4 with
      ctl := (s.port 4).ctl ++ [.heartbeat s.dup.role s.chan.modid (BitVec.ofNat 3 s.dup.st.code)] })) ∧
  (∀ s role m (st : BitVec 3) b, Calm s → s.dup.st = .takingOver → (s.port 4).isUp = true →
    exec (.heartbeat role m st b) s = .next (({ s with dup := { s.dup with lost := false } } : State).setPort 4
      { s.port 4 with ctl := (s.port 4).ctl ++ [.fenceFlit] })) ∧
  (∀ s role m (st : BitVec 3) b n, Calm s → s.dup.st = .syncing → s.dup.bindMb = some n → (s.mb n).step = 1 →
    bindAgrees s role m b = true →
    exec (.heartbeat role m st (some b)) s = .next (({ s with dup := { s.dup with lost := false } } : State).setMb n
      { s.mb n with step := 2 })) ∧
  (∀ s role m (st : BitVec 3) b n, s.live = true → s.dup.st = .syncing → s.dup.bindMb = some n → (s.mb n).step = 1 →
    bindAgrees s role m b = false →
    ∃ u, exec (.heartbeat role m st (some b)) s = .next (settle (mbFail (soloRelease u) n 0x5B [])) ∧
      u.dup.st = (if s.dup.fromSolo then .solo else .unbound) ∧ u.dup.bindMb = none) ∧
  (∀ s role m b, s.live = true → s.dup.st = .backup → s.dup.relAsked = true →
    ∃ u, exec (.heartbeat role m 7#3 b) s = .next (settle u) ∧ u.dup.st = .takingOver ∧ u.chan.modid = s.dup.partner) ∧
  (∀ s, s.live = true → s.dup.st = .primary → s.dup.onLoss = false →
    ∃ u, exec .partnerLoss s = .next (settle u) ∧ u.dup.st = .partnerLost ∧ u.dup.syncWaiters = [] ∧
      (Flows s → bitOf u.ert.pend 276 = true) ∧ u.mem = s.mem) ∧
  (∀ s, s.live = true → s.dup.st = .primary → s.dup.onLoss = true →
    ∃ u, exec .partnerLoss s = .next (settle (releaseMirrored u)) ∧ u.dup.st = .solo ∧
      (Flows s → bitOf u.ert.pend 276 = true)) ∧
  (∀ s, s.live = true → s.dup.st = .backup → s.dup.lost = false → s.dup.autoTakeover = true →
    ∃ u, exec .partnerLoss s = .next (settle u) ∧ u.dup.st = .takingOver ∧ u.chan.modid = s.dup.partner) ∧
  (∀ s, s.live = true → s.dup.st = .backup → s.dup.lost = false → s.dup.autoTakeover = false →
    ∃ u, exec .partnerLoss s = .next (settle u) ∧ u.dup.st = .backup ∧ u.dup.lost = true ∧
      (Flows s → bitOf u.ert.pend 276 = true) ∧ u.mem = s.mem) ∧
  (∀ s n, s.live = true → s.dup.st = .syncing → s.dup.bindMb = some n →
    ∃ u, exec .partnerLoss s = .next (settle (mbFail (soloRelease u) n 0x5A [])) ∧
      u.dup.st = (if s.dup.fromSolo then .solo else .unbound) ∧ u.dup.bindMb = none ∧
      (Flows s → bitOf u.ert.pend 276 = true)) ∧
  (∀ s, Calm s → s.dup.st = .partnerLost →
    ∃ u, exec .fenceFlit s = .next u ∧ u.dup.st = .fenced ∧ u.chan.en = false ∧
      (Flows s → bitOf u.ert.pend 279 = true) ∧ u.mem = s.mem) ∧
  (∀ s, Calm s → s.dup.st = .primary → s.chan.rxHeld = [] → (∀ o ∈ s.chan.sends, o.st ≠ .heldBack) →
    ∃ u, exec .relinquish s = .next u ∧ u.dup.st = .fenced ∧ u.dup.relinquishing = false ∧ u.chan.en = false) ∧
  (∀ s o, Calm s → s.dup.st = .primary → o ∈ s.chan.sends → o.st = .heldBack →
    exec .relinquish s = .next { s with dup := { s.dup with relinquishing := true } }) ∧
  (∀ s, s.live = true → s.dup.st = .backup → s.dup.relAsked = true →
    ∃ u, exec .relinquishTimeout s = .next (settle u) ∧ u.dup.st = .takingOver ∧ u.chan.modid = s.dup.partner ∧
      u.dup.fromBackup = true ∧ (Flows s → bitOf u.ert.pend 276 = true)) ∧
  (∀ s, s.live = true → s.dup.st = .takingOver →
    ∃ u, exec .takeoverComplete s = .next (settle u) ∧ u.dup.st = .solo ∧
      (Flows s → bitOf u.ert.pend 277 = true) ∧ (∀ n, s.dup.takeMb = some n → (u.mb n).st = .done) ∧
      ((∀ p, (s.pair p).gated = false) → ∀ c, bitOf s.dup.ckptMask c = false → u.ctx c = s.ctx c)) ∧
  (∀ s (n : Fin 64) x t, quiet s = true → TakesUp s n 0x0701 x t → stray x [(2, 0x3FFF#64)] = false →
    (x.arg 1).toNat ≤ 1 → (x.arg 2).extractLsb' 0 14 ≠ s.chan.modid → x.arg 3 = 1000 → zonesHold s = true →
    s.dup.st = .unbound → (s.port 4).isUp = true →
    ∃ u, exec (.duplexBind n) s = .next u ∧ u.dup.st = .syncing ∧ u.dup.role = decide (x.arg 1 = 1) ∧
      u.dup.partner = (x.arg 2).extractLsb' 0 14 ∧ u.dup.period = 1000 ∧ u.dup.bindMb = some n.val ∧
      (u.mb n).st = .running ∧ (Flows s → bitOf u.ert.pend 279 = true) ∧ u.mem = s.mem) ∧
  (∀ s n, s.live = true → s.dup.bindMb = some n → s.dup.st = .syncing → (s.mb n).step = 1 →
    ∃ u, exec .duplexBindTimeout s = .next (settle (mbFail (soloRelease u) n 0x5A [])) ∧
      u.dup.st = (if s.dup.fromSolo then .solo else .unbound) ∧ u.dup.bindMb = none) ∧
  (∀ s n, Calm s → s.dup.bindMb = some n → s.dup.st = .syncing → (s.mb n).step = 2 →
    ∃ u, exec .duplexSyncComplete s = .next u ∧ u.dup.st = (if s.dup.role then .backup else .primary) ∧
      u.dup.bindMb = none ∧ (u.mb n).st = .done ∧
      ∀ c, c < 32 → s.dup.role = true → bitOf s.dup.ckptMask c = true → (u.ctx c).run = .stopped) ∧
  (∀ s (n : Fin 64) x t, quiet s = true → TakesUp s n 0x0702 x t → s.dup.st = .backup → s.dup.lost = false →
    (s.port 4).isUp = true →
    ∃ u, exec (.duplexTakeover n) s = .next u ∧ u.dup.relAsked = true ∧ u.dup.takeMb = some n.val ∧
      (u.port 4).ctl = (s.port 4).ctl ++ [.relinquish] ∧ (u.mb n).st = .running ∧ u.mem = s.mem) ∧
  ∀ s (n : Fin 64) x t, TakesUp s n 0x0702 x t → s.dup.st = .backup → s.dup.lost = true →
    ∃ u, exec (.duplexTakeover n) s = .next (settle u) ∧ u.dup.st = .takingOver ∧ u.dup.takeMb = some n.val ∧
      u.chan.modid = s.dup.partner

/-! ## Engines and keys -/

/-- Jobs of the engines, and the key store's alarms (R283 to R285, R302 to R304, R306, R307, R319): a job is queued, and one
that was in flight when its instance was reset is dropped; a chunk of records goes to the output and moves the job on; a
decompression at the end of its input ends DONE; a unit of an XTS or GCM job goes to the output, and the last unit of an
XTS job ends it DONE; an alarm, of a comparator beyond its fixed limits or of a ball, erases every slot. -/
def Obligations.EnginesAndKeys : Prop :=
  (∀ s r (n : Fin 4) v issued, Reaches s r (0x5008000 + 0x10000 * n.val) (.zipSubmit n) → IssuedNow s r issued →
    v &&& 0xFFF000000000003F#64 = 0 → (zipJobs s n (reqInst s r)).length < 16 → s.refusesWork (reqInst s r) = false →
    ∃ u j, exec (.zipSubmit r n v issued) s = .next u ∧ (u.zip n).queue = (s.zip n).queue ++ [j] ∧ j.desc = v.toNat ∧
      j.inst = BitVec.ofNat 8 (reqInst s r) ∧ j.innings = s.inningsOf (reqInst s r) ∧ j.started = false ∧
      u.mem = s.mem) ∧
  (∀ s (n : Fin 4) i j t k o recs, Calm s → MemoryCanonical s → (s.zip n).en = true → zipChoose s n = some i → nextZJob s n i = some j →
    j.started = true → j.compress = true → zipTable s n j.table = some t → j.stream.openBlock = true →
    tabRlen t.bytes ≤ j.stream.partLen + (j.srcLen - j.inPos) → tabRlen t.bytes ≠ 0 →
    j.stream.inLen + tabRlen t.bytes ≤ 65536 →
    k = chunkCount (tabRlen t.bytes) j.stream.inLen ((j.stream.partLen + (j.srcLen - j.inPos)) / tabRlen t.bytes) →
    recs = (List.range k).map (fun m => (inputRec s j (tabRlen t.bytes) m).2) →
    o = j.stream.out.bits (chunkBits t.bytes (j.stream.back1 s (tabRlen t.bytes)) (j.stream.back2 s (tabRlen t.bytes)) recs) →
    badRead s (j.src + j.inPos) (k * tabRlen t.bytes - j.stream.partLen) = false →
    badRead s j.stream.partAddr j.stream.partLen = false → j.stream.badBack s (tabRlen t.bytes) = false → j.outPos + o.bytes.length ≤ j.dstLen → s.inMemory (j.dst + j.outPos) o.bytes.length = true →
    s.inningsOf j.inst.toNat = j.innings →
    ∃ u j', exec (.zipChunk n false) s = .next u ∧ j' ∈ (u.zip n).queue ∧ j'.desc = j.desc ∧
      j'.inPos = j.inPos + (k * tabRlen t.bytes - j.stream.partLen) ∧ j'.outPos = j.outPos + o.bytes.length ∧
      j'.stream.inLen = j.stream.inLen + k * tabRlen t.bytes ∧
      Memory.bytes u.mem (j.dst + j.outPos) o.bytes.length = o.bytes ∧
      ∀ a, (a < j.dst + j.outPos ∨ j.dst + j.outPos + o.bytes.length ≤ a) → Memory.read u.mem a = Memory.read s.mem a) ∧
  (∀ s (n : Fin 4) i j, Calm s → MemoryCanonical s → (s.zip n).en = true → zipChoose s n = some i → nextZJob s n i = some j →
    j.started = true → j.compress = false → j.stream.openBlock = false → j.inPos = j.srcLen →
    s.inMemory j.desc 64 = true → s.inningsOf j.inst.toNat = j.innings →
    ∃ u, exec (.zipChunk n false) s = .next u ∧
      (u.zip n).queue = dropFirst (fun m => decide (m.desc = j.desc) && decide (m.inst = j.inst)) (s.zip n).queue ∧
      (u.zip n).ended = (s.zip n).ended + 1 ∧
      Memory.word u.mem (j.desc + 48) = w64 (1 + b2n (!j.flush) * 256 + j.earlier * 2 ^ 32)) ∧
  (∀ s (c : Fin 32) (n : Fin 4) v k, Calm s → Issues s (.ctx c) (0x5008000 + 0x10000 * n.val) →
    k.innings ≠ s.inningsOf k.inst.toNat → exec (.zipSubmit (.ctx c) n v (some k)) s = .next s) ∧
  (∀ s (c : Fin 32) (n : Fin 2) v k, Calm s → Issues s (.ctx c) (0x6008000 + 8 * n.val) →
    k.innings ≠ s.inningsOf k.inst.toNat → exec (.ciphSubmit (.ctx c) n v (some k)) s = .next s) ∧
  (∀ s r (k : Fin 2) v issued, Reaches s r (0x6008000 + 8 * k.val) (.ciphSubmit k) → IssuedNow s r issued →
    v &&& 0xFFF000000000003F#64 = 0 → (cipherJobs s k (reqInst s r)).length < 16 →
    s.refusesWork (reqInst s r) = false → inAlarm s = false →
    ∃ u j, exec (.ciphSubmit r k v issued) s = .next u ∧ cipherQueue u k = cipherQueue s k ++ [j] ∧ j.desc = v.toNat ∧
      j.inst = BitVec.ofNat 8 (reqInst s r) ∧ j.started = false ∧ u.mem = s.mem) ∧
  (∀ s (k : Fin 2) i j js, Calm s → MemoryCanonical s → bitOf s.ciph.en k = true → drbgUp s = true → lanesLeft s k = true →
    cipherChoose s k = some i → cipherJobs s k i = j :: js → j.started = true → j.mode ≤ 4 → s.caches.poison = [] →
    j.pos + unitLen j < j.srcLen → s.inningsOf j.inst.toNat = j.innings →
    (unitOutput j (Memory.bytes s.mem (j.src + j.pos) (unitLen j))).1.length = unitLen j →
    s.inMemory (j.dst + j.pos) (unitLen j) = true →
    ∃ u j', exec (.cipherUnit k none) s = .next u ∧ j' ∈ cipherQueue u k ∧ j'.desc = j.desc ∧
      j'.pos = j.pos + unitLen j ∧
      Memory.bytes u.mem (j.dst + j.pos) (unitLen j) =
        (unitOutput j (Memory.bytes s.mem (j.src + j.pos) (unitLen j))).1 ∧
      ∀ a, (a < j.dst + j.pos ∨ j.dst + j.pos + unitLen j ≤ a) → Memory.read u.mem a = Memory.read s.mem a) ∧
  (∀ s (k : Fin 2) i j js, Calm s → MemoryCanonical s → bitOf s.ciph.en k = true → drbgUp s = true → lanesLeft s k = true →
    cipherChoose s k = some i → cipherJobs s k i = j :: js → j.started = true → j.mode ≤ 2 → s.caches.poison = [] →
    j.srcLen ≤ j.pos + unitLen j → s.inningsOf j.inst.toNat = j.innings → s.inMemory j.desc 64 = true →
    ∃ u, exec (.cipherUnit k none) s = .next u ∧
      cipherQueue u k = dropFirst (fun m => decide (m.desc = j.desc) && decide (m.inst = j.inst)) (cipherQueue s k) ∧
      Memory.word u.mem (j.desc + 48) = 1) ∧
  (∀ s (j : Fin 4) n, s.crp.vstby = true → 2 ≤ n → bitOf s.ciph.alarmen j = true → bitOf s.ciph.alarm j = false →
    ∃ u, exec (.tamperAlarm j true n) s = .next (settle u) ∧ u.ciph.slots = [] ∧ bitOf u.ciph.alarm j = true ∧
      u.ciph.erasing = true) ∧
  (∀ s (k : Fin 6) (v : BitVec 32), s.crp.vstby = true →
    v.toInt < (railLimits k).1 ∨ (railLimits k).2 < v.toInt → bitOf s.ciph.alarmen 4 = true →
    bitOf s.ciph.alarm 4 = false →
    ∃ u, exec (.sensorAlarm (.voltage k v)) s = .next (settle u) ∧ u.ciph.slots = [] ∧ bitOf u.ciph.alarm 4 = true) ∧
  (∀ s k (v : BitVec 32), s.crp.vstby = true → v.toInt < -45000 → bitOf s.ciph.alarmen 5 = true →
    bitOf s.ciph.alarm 5 = false →
    ∃ u, exec (.sensorAlarm (.temperature k v)) s = .next (settle u) ∧ u.ciph.slots = [] ∧ bitOf u.ciph.alarm 5 = true) ∧
  (∀ s k (v : BitVec 32), s.crp.vstby = true → 125000 < v.toInt →
    ∃ u, exec (.sensorAlarm (.temperature k v)) s = .next (settle u) ∧ u.crp.thermTrip = true ∧
      (s.live = true → u.crp.boot = .mReset ∧ u.crp.cause = 3)) ∧
  (∀ s (v : BitVec 32), s.crp.vstby = true → v.toInt < 8000 ∨ 12000 < v.toInt → bitOf s.ciph.alarmen 6 = true →
    bitOf s.ciph.alarm 6 = false →
    ∃ u, exec (.sensorAlarm (.glitch v)) s = .next (settle u) ∧ u.ciph.slots = [] ∧ bitOf u.ciph.alarm 6 = true) ∧
  (∀ s a, quiet s = true → alarmFires a = false → exec (.sensorAlarm a) s = .next s) ∧
  (∀ s, Calm s → s.ciph.erasing = true →
    exec .keyErasureComplete s = .next (raise { s with ciph := { s.ciph with erasing := false } } 274)) ∧
  ∀ s r v, Reaches s r 0x6000010 .ciphAlarm →
    ∃ a, exec (.ciphAlarmClear r v) s = .next { s with ciph := { s.ciph with alarm := a } } ∧
      ∀ j, j < 8 → bitOf a j = (bitOf s.ciph.alarm j && !(bitOf v j && !alarmActive s j))

/-! ## Time, entropy, power, debug -/

/-- The time unit and the token buckets (R314, R341 to R343, R346 to R349, R401): one cycle adds INC, and a copy of the count
that fails its parity is rewritten from the other; comparators fire, and are armed at the end of the cycle of the write; a
context never reads a count below one it has read; edges are captured or rejected; holdover begins; a microsecond refills
the buckets. -/
def Obligations.TimeCommands : Prop :=
  (∀ s, Calm s →
    ∃ u, exec (.todTick .none) s = .next u ∧ u.time.count = s.time.count + BitVec.ofNat 160 (incNow s) ∧
      u.time.copy1 = u.time.count ∧ u.time.clkfault = s.time.clkfault ∧ u.mem = s.mem) ∧
  (∀ s k (b : BitVec 160) n, s.live = true → n = s.time.count + BitVec.ofNat 160 (incNow s) →
    ∃ u, exec (.todTick (.flip k b)) s = .next (settle u) ∧ u.time.copy1 = u.time.count ∧
      u.time.count = (if k = false ∧ parityOf b = false then n ^^^ b else n) ∧
      u.time.clkfault = (s.time.clkfault || (decide (b ≠ 0) && !parityOf b)) ∧ u.mem = s.mem) ∧
  (∀ s (k : Fin 64) i, Calm s → s.time.armed.get k none = some i → i ≤ s.tod →
    ∃ u, exec (.deadlineReached k) s = .next u ∧ u.time.dlbits = setBit s.time.dlbits k true ∧
      u.time.armed.get k none = none ∧ (Flows s → bitOf u.ert.pend (192 + k.val) = true)) ∧
  (∀ s (k : Fin 64) i, Calm s → s.time.armed.get k none = some i → s.tod < i →
    exec (.deadlineReached k) s = .next s) ∧
  (∀ s r v, Reaches s r 0x9000030 .timeDlarm →
    exec (.timeDlarmWrite r v) s = .next { s with time := { s.time with arming := s.time.arming ++
      (((List.range 64).filter (fun k => bitOf v k)).map (fun k => (k, s.time.dls.get k 0#64 ++ s.time.dlf.get k 0#64))) } }) ∧
  (∀ s (k : Fin 64) i, Calm s → s.time.arming = [(k.val, i)] → s.time.armed = [] →
    ∃ u, exec (.todTick .none) s = .next u ∧ u.time.arming = [] ∧ bitOf u.time.dlbits k = decide (i ≤ u.tod) ∧
      u.time.armed.get k none = (if i ≤ u.tod then none else some i)) ∧
  (∀ s r lag g, Calm s → Issues s r 0x9008000 → ctlCheck s r false 0x9008000 8 = .ok g →
    exec (.timeNowfRead r lag) s = .next { (readNowf s r lag).1 with
      bus := { (readNowf s r lag).1.bus with cpl := .data (readNowf s r lag).2 } }) ∧
  (∀ s (c : Fin 32) lag, (s.ctx c).seen ≤ ((readNowf s (.ctx c) lag).1.ctx c).seen ∧
    ((readNowf s (.ctx c) lag).1.ctx c).nows ++ (readNowf s (.ctx c) lag).2 =
      ((readNowf s (.ctx c) lag).1.ctx c).seen) ∧
  (∀ s who, Calm s → noCredit s .timeRead (readerNumber who) 0 = false →
    exec (.timeRead who) s = .next { s with bus := { s.bus with cpl := .time s.tod s.time.dlbits } }) ∧
  (∀ s x (sub : Fin 10), Calm s → x ≠ s.time.ppsEdge → s.time.sinceEdge = none → s.time.setAtPps = none →
    s.time.set = false →
    ∃ u, exec (.ppsEdge x sub) s = .next u ∧ u.time.capS ++ u.time.capF =
        (s.time.count + BitVec.ofNat 160 (incNow s * sub / 10)).extractLsb' 32 128 ∧
      (Flows s → bitOf u.ert.pend 256 = true) ∧ u.time.sinceEdge = some 0 ∧ u.tod = s.tod) ∧
  (∀ s x sub n, Calm s → x ≠ s.time.ppsEdge → s.time.sinceEdge = some n → n < 199800000 →
    exec (.ppsEdge x sub) s = .next { s with time := { s.time with ppsRej := satInc s.time.ppsRej } }) ∧
  (∀ s x sub, Calm s → x = s.time.ppsEdge → exec (.ppsEdge x sub) s = .next s) ∧
  (∀ s, s.live = true → s.time.disc = true → s.time.locked = true →
    (s.time.sinceEdge = none ∨ ∃ n, s.time.sinceEdge = some n ∧ 400000000 ≤ n) →
    ∃ u, exec .holdoverEntry s = .next (settle u) ∧ u.time.holdover = true ∧ u.time.locked = false ∧
      (Flows s → bitOf u.ert.pend 257 = true)) ∧
  (∀ s, Calm s → s.time.holdover = true →
    exec .holdoverCorrection s =
      .next { s with time := { s.time with trim := sensorValue s 31 (s.sens 28).raw } }) ∧
  (∀ s, Calm s → exec .ppsOutPulseEnd s = .next { s with time := { s.time with ppsOut := false } }) ∧
  ∀ s, Calm s →
    ∃ u, exec .bucketRefill s = .next u ∧ u.crp.us = s.crp.us + 1 ∧ u.mem = s.mem ∧
      ∀ i k, i < 256 → k < 7 → (s.inst i).present = true →
        tokensOf u i k = min (tokensOf s i k + (rateOf s i k : Int)) (burstOf s i k)

/-- The entropy source and the DRBG (R350, R351, R353): raw bits that pass the tests start the source, and go on; bits on
which a test fails count under it and stop the source; 1,024 bits seed the DRBG; a seed that does not come in time fails
it. The tests' cutoffs and the DRBG's steps are the standards' (log entry 99). -/
def Obligations.Entropy : Prop :=
  (∀ s raw h, Calm s → s.time.ent = .starting → Health.reset.run' (rawBits raw) = (h, none) →
    exec (.entropyStartTest raw) s = .next { s with time := { s.time with health := h, ent := .ok, srcOk := true } }) ∧
  (∀ s raw h a, s.live = true → s.time.ent = .starting → Health.reset.run' (rawBits raw) = (h, some a) →
    ∃ u, exec (.entropyStartTest raw) s = .next (settle u) ∧ u.time.srcOk = false ∧ u.time.ent ≠ .starting ∧
      u.time.rct = (if a then s.time.rct else satInc s.time.rct) ∧
      u.time.apt = (if a then satInc s.time.apt else s.time.apt) ∧ (Flows s → bitOf u.ert.pend 259 = true)) ∧
  (∀ s raw h a, s.live = true → s.time.ent = .ok → s.time.health.run' raw = (h, some a) →
    ∃ u, exec (.healthTestFailure raw) s = .next (settle u) ∧ u.time.srcOk = false ∧
      u.time.rct = (if a then s.time.rct else satInc s.time.rct) ∧
      u.time.apt = (if a then satInc s.time.apt else s.time.apt) ∧ (Flows s → bitOf u.ert.pend 259 = true) ∧
      (s.time.entFails = [] → u.time.ent = .waitRestart)) ∧
  (∀ s raw h, Calm s → s.time.ent = .ok → s.time.health.run' raw = (h, none) →
    exec (.healthTestFailure raw) s = .next { s with time := { s.time with health := h } }) ∧
  (∀ s, Calm s → s.time.ent = .waitRestart →
    exec .entropyRestart s = .next { s with time := { s.time with ent := .starting } }) ∧
  (∀ s raw h, Calm s → s.time.ent = .ok → s.time.health.run' (rawBits raw) = (h, none) →
    ∃ u, exec (.drbgReseed raw) s = .next u ∧ u.time.seeded = true ∧ u.time.drbgOk = true ∧ u.time.drbgFail = false ∧
      u.time.requests = 0 ∧ u.time.seedUs = s.crp.us ∧ u.time.health = h ∧
      u.time.drbg = (if s.time.seeded then s.time.drbg.update (blockDf (seedBytes raw))
        else Drbg.reset.update (blockDf (seedBytes raw ++ leBytes 4 s.crp.kept.serial.toNat)))) ∧
  (∀ s, s.live = true → seedDue s = true → s.time.drbgFail = false →
    ∃ u, exec .drbgSeedTimeout s = .next (settle u) ∧ u.time.drbgOk = false ∧ u.time.drbgFail = true ∧
      (Flows s → bitOf u.ert.pend 260 = true)) ∧
  ∀ s, Calm s → seedDue s = false → exec .drbgSeedTimeout s = .next s

/-- Power, reset balls, clocks, rails and sensors (R354 to R359, R361, R369 to R371, R378, R382, R393). -/
def Obligations.PowerCommands : Prop :=
  (∀ s n, s.crp.nresetLow = false →
    ∃ u, exec (.powerOn (.slot n)) s = .next (settle u) ∧ u.crp.boot = .running ∧ u.sp.fw = .running ∧
      u.sp.running = Config.imageVersion n ∧ u.crp.kept.flashSlot = n ∧ u.crp.pll = 0x3F#6) ∧
  (∀ s, s.crp.nresetLow = false →
    ∃ u, exec (.powerOn .none) s = .next (settle u) ∧ u.crp.boot = .fwStart ∧ u.fcr.hold = true) ∧
  (∀ s img, s.crp.nresetLow = true →
    ∃ u, exec (.powerOn img) s = .next u ∧ u.crp.boot = .waitRails ∧ u.crp.nresetLow = true ∧ u.mem = []) ∧
  (∀ s k a, s.live = true → s.crp.vstby = true → (25 ≤ k ∨ (a = true ∧ 4 ≤ k)) →
    ∃ u, exec (.nreset k a) s = .next (settle u) ∧ u.crp.boot = .mReset ∧ u.crp.cause = 1 ∧
      u.crp.nresetLow = true ∧ u.crp.resets = s.crp.resets + 1 ∧ u.ctxs = []) ∧
  (∀ s k a, quiet s = true → k < 4 → exec (.nreset k a) s = .next s) ∧
  (∀ s n, s.crp.nresetLow = true → s.crp.thermTrip = false → s.crp.railsLow = 0 → s.crp.vstby = true →
    s.crp.boot = .mReset →
    ∃ u, exec (.nresetRelease (.slot n)) s = .next (settle u) ∧ u.crp.boot = .running ∧ u.crp.nresetLow = false ∧
      u.sp.running = Config.imageVersion n) ∧
  (∀ s, s.crp.thermTrip = true → coolEnough s = true → s.crp.nresetLow = false → s.crp.railsLow = 0 →
    s.crp.vstby = true → s.crp.boot = .mReset →
    ∃ u, exec .thermalTripRelease s = .next (settle u) ∧ u.crp.boot = .running ∧ u.crp.thermTrip = false) ∧
  (∀ s (j : Fin 6), s.crp.vstby = true → j.val < 5 →
    ∃ u, exec (.railFailure j) s = .next (settle u) ∧ u.crp.boot = .waitRails ∧ u.crp.pll = 0 ∧
      bitOf u.crp.railsLow j = true) ∧
  (∀ s, ∃ u, exec .vstbyLoss s = .next u ∧ u.crp.vstby = false ∧ u.crp.boot = .aonOnly ∧ u.mem = [] ∧ u.ctxs = [] ∧
    u.ciph.slots = [] ∧ u.crp.kept = s.crp.kept) ∧
  (∀ s (n : Fin 4), s.live = true → bitOf s.crp.brstat (2 + n.val) = false →
    ∃ u, exec (.blockReset (.zip n)) s = .next (settle (flushCtl (soloRelease u))) ∧ (u.zip n).en = false ∧ (u.zip n).queue = [] ∧
      (u.zip n).tables = (s.zip n).tables) ∧
  (∀ s, s.live = true → bitOf s.crp.brstat 6 = false →
    ∃ u, exec (.blockReset .ciph) s = .next (settle (flushCtl (soloRelease u))) ∧ u.ciph.en = 0 ∧ u.ciph.queue = [] ∧
      u.ciph.slots = s.ciph.slots) ∧
  (∀ s, s.live = true → bitOf s.crp.brstat 0 = false →
    ∃ u, exec (.blockReset .ert) s = .next (settle (flushCtl (soloRelease u))) ∧ u.ert.en = false ∧
      u.ert.mask = BitVec.allOnes 1024 ∧ u.ert.src = [] ∧ u.ert.prioStacks = s.ert.prioStacks ∧
      u.ert.slots = s.ert.slots) ∧
  (∀ s, s.live = true → bitOf s.crp.brstat 1 = false → s.chan.sends ≠ [] →
    ∃ u, exec (.blockReset .chan) s = .next (settle (flushCtl (soloRelease u))) ∧ u.chan.quiesce = true ∧
      bitOf u.crp.brstat 1 = true ∧ u.chan.sends = s.chan.sends) ∧
  (∀ s, s.live = true → bitOf s.crp.brstat 7 = false →
    ∃ u, exec (.blockReset .time) s = .next (settle (flushCtl (soloRelease u))) ∧ u.time.ent = .starting ∧
      u.time.seeded = false ∧ u.time.srcOk = false ∧ u.time.count = s.time.count) ∧
  (∀ s (j : Fin 6), s.live = true →
    ∃ u, exec (.pllLockLoss j) s = .next (settle u) ∧ u.crp.pll = setBit s.crp.pll j false ∧
      u.time.clkfault = (s.time.clkfault || decide (j = 5))) ∧
  (∀ s (j : Fin 6), s.live = true → exec (.railCheck j true) s = .next (settle (card s 331 1 0 j 0))) ∧
  (∀ s j, Calm s → exec (.railCheck j false) s = .next s) ∧
  (∀ s (n : Fin 32) raw, s.live = true → s.crp.vstby = true →
    ∃ u, exec (.sensorUpdate n raw false) s = .next (settle (sensorFires (card u 332 1 0 n 0) n)) ∧
      (u.sens n).value = sensorValue s n raw ∧ (u.sens n).valid = false) ∧
  ∀ s (n : Fin 32) raw, Calm s → s.crp.vstby = true → sensorAlarms (sensorRead s n raw true) n = false →
    ∃ u, exec (.sensorUpdate n raw true) s = .next u ∧ (u.sens n).value = sensorValue s n raw ∧ (u.sens n).raw = raw ∧
      (u.sens n).valid = true ∧
      (outOfRange (s.sens n).thr (sensorValue s n raw) = true → (s.sens n).outside = false →
        bitOf u.crp.sensTrip n = true ∧ (Flows s → bitOf u.ert.pend 306 = true))

/-- Debug, JTAG and I3C (R387, R388, R396, R398 to R400). -/
def Obligations.DebugCommands : Prop :=
  (∀ s r v, Reaches s r 0xF000000 .dbgCtl →
    ∃ u, exec (.dbgCtlWrite r v) s = .next (settle u) ∧ u.aud.dbgEn = bitOf v 0 ∧ u.mem = s.mem) ∧
  (∀ s r v, Reaches s r 0xF000008 .dbgHalt → s.aud.dbgEn = false →
    exec (.dbgHaltWrite r v) s = .next (writeDone { s with aud := { s.aud with halt := v.extractLsb' 0 32 } } r)) ∧
  (∀ s r v c p k, Reaches s r 0xF000008 .dbgHalt → s.aud.dbgEn = true → c < 32 → bitOf v c = true →
    placeOf s c = some (p, k) → (s.pair p).gated = false → (s.ctx c).run = .run → (s.ctx c).entering = false →
    ∃ u, exec (.dbgHaltWrite r v) s = .next (settle u) ∧ (u.ctx c).run = .stopped ∧ (u.ctx c).dbgHalted = true ∧
      (u.ctx c).pc = (s.ctx c).pc ∧ (u.ctx c).a = (s.ctx c).a) ∧
  (∀ s v, Calm s → Issues s .jtag 0xF000100 → s.aud.ir = .csacc → s.aud.sealed = false →
    ∃ u, exec (.csacc true 0xF000100#40 v) s = .next u ∧ u.aud.csDone = true ∧ u.aud.csaccSeen = true ∧
      (u.aud.bps.get 0 { addr := 0, ctl := 0 }).addr = v &&& 0x01FFFFFFFFFFFFFF#64 ∧ u.mem = s.mem) ∧
  (∀ s v, Calm s → Issues s .jtag 0xF000000 → s.aud.ir = .csacc → s.aud.sealed = false →
    ∃ u, exec (.csacc false 0xF000000#40 v) s = .next u ∧ u.aud.csDone = true ∧ u.aud.csaccSeen = true ∧
      u.aud.csData = w64 (b2n s.aud.dbgEn) ∧ u.mem = s.mem) ∧
  (∀ s x, quiet s = true → (s.aud.sealed = false ∨ x = .bypass ∨ x = .idcode) →
    ((x ≠ .extest ∧ x ≠ .clamp ∧ x ≠ .highz) ∨ s.crp.nresetLow = true) →
    exec (.jtagInstruction x) s = .next { s with aud := { s.aud with ir := x } }) ∧
  (∀ s x, quiet s = true → s.aud.sealed = true → x ≠ .bypass → x ≠ .idcode →
    exec (.jtagInstruction x) s = .next { s with aud := { s.aud with ir := .bypass } }) ∧
  (∀ s off v, quiet s = true → s.crp.vstby = true → i3cReg s off.toNat = some v →
    exec (.i3cRead off) s = .next { s with bus := { s.bus with cpl := .data v } }) ∧
  (∀ s off, quiet s = true → s.crp.vstby = true → i3cReg s off.toNat = none →
    exec (.i3cRead off) s = .next { s with bus := { s.bus with cpl := .none } }) ∧
  ∀ s a, quiet s = true → s.crp.vstby = true →
    exec (.i3cAddressAssign a) s = .next { s with crp := { s.crp with i3cAddr := some a } }
end

