-- ==== Sys2Proof/Laws/State.lean ====
section
/-! SUPPORT. One lemma per field and update of State, so that no proof unfolds a record update; and the laws of its tables. -/
namespace Sys2Proof.Machine

/-! ## Tables -/

/-- The entry just set is the one that is read. -/
@[simp] theorem Tab.get_set_self {α : Type} (t : Tab α) (k : Nat) (v d : α) : (t.set k v).get k d = v := by
  induction t with
  | nil => simp [Tab.set, Tab.get]
  | cons h r ih =>
    obtain ⟨j, w⟩ := h
    by_cases e : j = k
    · simp [Tab.set, Tab.get, e]
    · by_cases g : k < j <;> simp [Tab.set, Tab.get, e, g, ih]

/-- Setting one entry leaves every other. -/
theorem Tab.get_set_other {α : Type} (t : Tab α) (k n : Nat) (v d : α) (h : n ≠ k) : (t.set k v).get n d = t.get n d := by
  have h' : k ≠ n := fun e => h e.symm
  induction t with
  | nil => simp [Tab.set, Tab.get, h']
  | cons p r ih =>
    obtain ⟨j, w⟩ := p
    by_cases e : j = k
    · simp [Tab.set, Tab.get, e, h']
    · by_cases m : j = n
      · subst m
        by_cases g : k < j <;> simp [Tab.set, Tab.get, e, g, h']
      · by_cases g : k < j <;> simp [Tab.set, Tab.get, e, g, m, h', ih]

/-! ## Fields after an update -/

@[simp] theorem State.setCtx_pairs (s : State) (c : Nat) (x : Ctx) : (s.setCtx c x).pairs = s.pairs := rfl
@[simp] theorem State.setCtx_caches (s : State) (c : Nat) (x : Ctx) : (s.setCtx c x).caches = s.caches := rfl
@[simp] theorem State.setCtx_memc (s : State) (c : Nat) (x : Ctx) : (s.setCtx c x).memc = s.memc := rfl
@[simp] theorem State.setCtx_mem (s : State) (c : Nat) (x : Ctx) : (s.setCtx c x).mem = s.mem := rfl
@[simp] theorem State.setCtx_bus (s : State) (c : Nat) (x : Ctx) : (s.setCtx c x).bus = s.bus := rfl
@[simp] theorem State.setCtx_mbs (s : State) (c : Nat) (x : Ctx) : (s.setCtx c x).mbs = s.mbs := rfl
@[simp] theorem State.setCtx_sp (s : State) (c : Nat) (x : Ctx) : (s.setCtx c x).sp = s.sp := rfl
@[simp] theorem State.setCtx_ert (s : State) (c : Nat) (x : Ctx) : (s.setCtx c x).ert = s.ert := rfl
@[simp] theorem State.setCtx_fcr (s : State) (c : Nat) (x : Ctx) : (s.setCtx c x).fcr = s.fcr := rfl
@[simp] theorem State.setCtx_chan (s : State) (c : Nat) (x : Ctx) : (s.setCtx c x).chan = s.chan := rfl
@[simp] theorem State.setCtx_ports (s : State) (c : Nat) (x : Ctx) : (s.setCtx c x).ports = s.ports := rfl
@[simp] theorem State.setCtx_zips (s : State) (c : Nat) (x : Ctx) : (s.setCtx c x).zips = s.zips := rfl
@[simp] theorem State.setCtx_zctx (s : State) (c : Nat) (x : Ctx) : (s.setCtx c x).zctx = s.zctx := rfl
@[simp] theorem State.setCtx_ciph (s : State) (c : Nat) (x : Ctx) : (s.setCtx c x).ciph = s.ciph := rfl
@[simp] theorem State.setCtx_insts (s : State) (c : Nat) (x : Ctx) : (s.setCtx c x).insts = s.insts := rfl
@[simp] theorem State.setCtx_dup (s : State) (c : Nat) (x : Ctx) : (s.setCtx c x).dup = s.dup := rfl
@[simp] theorem State.setCtx_time (s : State) (c : Nat) (x : Ctx) : (s.setCtx c x).time = s.time := rfl
@[simp] theorem State.setCtx_crp (s : State) (c : Nat) (x : Ctx) : (s.setCtx c x).crp = s.crp := rfl
@[simp] theorem State.setCtx_aud (s : State) (c : Nat) (x : Ctx) : (s.setCtx c x).aud = s.aud := rfl
@[simp] theorem State.setCtx_free (s : State) (c : Nat) (x : Ctx) : (s.setCtx c x).free = s.free := rfl
@[simp] theorem State.setCtx_pending (s : State) (c : Nat) (x : Ctx) : (s.setCtx c x).pending = s.pending := rfl

@[simp] theorem State.setPair_ctxs (s : State) (p : Nat) (x : Pair) : (s.setPair p x).ctxs = s.ctxs := rfl
@[simp] theorem State.setPair_caches (s : State) (p : Nat) (x : Pair) : (s.setPair p x).caches = s.caches := rfl
@[simp] theorem State.setPair_memc (s : State) (p : Nat) (x : Pair) : (s.setPair p x).memc = s.memc := rfl
@[simp] theorem State.setPair_mem (s : State) (p : Nat) (x : Pair) : (s.setPair p x).mem = s.mem := rfl
@[simp] theorem State.setPair_bus (s : State) (p : Nat) (x : Pair) : (s.setPair p x).bus = s.bus := rfl
@[simp] theorem State.setPair_mbs (s : State) (p : Nat) (x : Pair) : (s.setPair p x).mbs = s.mbs := rfl
@[simp] theorem State.setPair_sp (s : State) (p : Nat) (x : Pair) : (s.setPair p x).sp = s.sp := rfl
@[simp] theorem State.setPair_ert (s : State) (p : Nat) (x : Pair) : (s.setPair p x).ert = s.ert := rfl
@[simp] theorem State.setPair_fcr (s : State) (p : Nat) (x : Pair) : (s.setPair p x).fcr = s.fcr := rfl
@[simp] theorem State.setPair_chan (s : State) (p : Nat) (x : Pair) : (s.setPair p x).chan = s.chan := rfl
@[simp] theorem State.setPair_ports (s : State) (p : Nat) (x : Pair) : (s.setPair p x).ports = s.ports := rfl
@[simp] theorem State.setPair_zips (s : State) (p : Nat) (x : Pair) : (s.setPair p x).zips = s.zips := rfl
@[simp] theorem State.setPair_zctx (s : State) (p : Nat) (x : Pair) : (s.setPair p x).zctx = s.zctx := rfl
@[simp] theorem State.setPair_ciph (s : State) (p : Nat) (x : Pair) : (s.setPair p x).ciph = s.ciph := rfl
@[simp] theorem State.setPair_insts (s : State) (p : Nat) (x : Pair) : (s.setPair p x).insts = s.insts := rfl
@[simp] theorem State.setPair_dup (s : State) (p : Nat) (x : Pair) : (s.setPair p x).dup = s.dup := rfl
@[simp] theorem State.setPair_time (s : State) (p : Nat) (x : Pair) : (s.setPair p x).time = s.time := rfl
@[simp] theorem State.setPair_crp (s : State) (p : Nat) (x : Pair) : (s.setPair p x).crp = s.crp := rfl
@[simp] theorem State.setPair_aud (s : State) (p : Nat) (x : Pair) : (s.setPair p x).aud = s.aud := rfl
@[simp] theorem State.setPair_free (s : State) (p : Nat) (x : Pair) : (s.setPair p x).free = s.free := rfl
@[simp] theorem State.setPair_pending (s : State) (p : Nat) (x : Pair) : (s.setPair p x).pending = s.pending := rfl

@[simp] theorem State.setMb_ctxs (s : State) (n : Nat) (x : Mailbox) : (s.setMb n x).ctxs = s.ctxs := rfl
@[simp] theorem State.setMb_pairs (s : State) (n : Nat) (x : Mailbox) : (s.setMb n x).pairs = s.pairs := rfl
@[simp] theorem State.setMb_caches (s : State) (n : Nat) (x : Mailbox) : (s.setMb n x).caches = s.caches := rfl
@[simp] theorem State.setMb_memc (s : State) (n : Nat) (x : Mailbox) : (s.setMb n x).memc = s.memc := rfl
@[simp] theorem State.setMb_mem (s : State) (n : Nat) (x : Mailbox) : (s.setMb n x).mem = s.mem := rfl
@[simp] theorem State.setMb_bus (s : State) (n : Nat) (x : Mailbox) : (s.setMb n x).bus = s.bus := rfl
@[simp] theorem State.setMb_sp (s : State) (n : Nat) (x : Mailbox) : (s.setMb n x).sp = s.sp := rfl
@[simp] theorem State.setMb_ert (s : State) (n : Nat) (x : Mailbox) : (s.setMb n x).ert = s.ert := rfl
@[simp] theorem State.setMb_fcr (s : State) (n : Nat) (x : Mailbox) : (s.setMb n x).fcr = s.fcr := rfl
@[simp] theorem State.setMb_chan (s : State) (n : Nat) (x : Mailbox) : (s.setMb n x).chan = s.chan := rfl
@[simp] theorem State.setMb_ports (s : State) (n : Nat) (x : Mailbox) : (s.setMb n x).ports = s.ports := rfl
@[simp] theorem State.setMb_zips (s : State) (n : Nat) (x : Mailbox) : (s.setMb n x).zips = s.zips := rfl
@[simp] theorem State.setMb_zctx (s : State) (n : Nat) (x : Mailbox) : (s.setMb n x).zctx = s.zctx := rfl
@[simp] theorem State.setMb_ciph (s : State) (n : Nat) (x : Mailbox) : (s.setMb n x).ciph = s.ciph := rfl
@[simp] theorem State.setMb_insts (s : State) (n : Nat) (x : Mailbox) : (s.setMb n x).insts = s.insts := rfl
@[simp] theorem State.setMb_dup (s : State) (n : Nat) (x : Mailbox) : (s.setMb n x).dup = s.dup := rfl
@[simp] theorem State.setMb_time (s : State) (n : Nat) (x : Mailbox) : (s.setMb n x).time = s.time := rfl
@[simp] theorem State.setMb_crp (s : State) (n : Nat) (x : Mailbox) : (s.setMb n x).crp = s.crp := rfl
@[simp] theorem State.setMb_aud (s : State) (n : Nat) (x : Mailbox) : (s.setMb n x).aud = s.aud := rfl
@[simp] theorem State.setMb_free (s : State) (n : Nat) (x : Mailbox) : (s.setMb n x).free = s.free := rfl
@[simp] theorem State.setMb_pending (s : State) (n : Nat) (x : Mailbox) : (s.setMb n x).pending = s.pending := rfl

@[simp] theorem State.setPort_ctxs (s : State) (n : Nat) (x : Port) : (s.setPort n x).ctxs = s.ctxs := rfl
@[simp] theorem State.setPort_pairs (s : State) (n : Nat) (x : Port) : (s.setPort n x).pairs = s.pairs := rfl
@[simp] theorem State.setPort_caches (s : State) (n : Nat) (x : Port) : (s.setPort n x).caches = s.caches := rfl
@[simp] theorem State.setPort_memc (s : State) (n : Nat) (x : Port) : (s.setPort n x).memc = s.memc := rfl
@[simp] theorem State.setPort_mem (s : State) (n : Nat) (x : Port) : (s.setPort n x).mem = s.mem := rfl
@[simp] theorem State.setPort_bus (s : State) (n : Nat) (x : Port) : (s.setPort n x).bus = s.bus := rfl
@[simp] theorem State.setPort_mbs (s : State) (n : Nat) (x : Port) : (s.setPort n x).mbs = s.mbs := rfl
@[simp] theorem State.setPort_sp (s : State) (n : Nat) (x : Port) : (s.setPort n x).sp = s.sp := rfl
@[simp] theorem State.setPort_ert (s : State) (n : Nat) (x : Port) : (s.setPort n x).ert = s.ert := rfl
@[simp] theorem State.setPort_fcr (s : State) (n : Nat) (x : Port) : (s.setPort n x).fcr = s.fcr := rfl
@[simp] theorem State.setPort_chan (s : State) (n : Nat) (x : Port) : (s.setPort n x).chan = s.chan := rfl
@[simp] theorem State.setPort_zips (s : State) (n : Nat) (x : Port) : (s.setPort n x).zips = s.zips := rfl
@[simp] theorem State.setPort_zctx (s : State) (n : Nat) (x : Port) : (s.setPort n x).zctx = s.zctx := rfl
@[simp] theorem State.setPort_ciph (s : State) (n : Nat) (x : Port) : (s.setPort n x).ciph = s.ciph := rfl
@[simp] theorem State.setPort_insts (s : State) (n : Nat) (x : Port) : (s.setPort n x).insts = s.insts := rfl
@[simp] theorem State.setPort_dup (s : State) (n : Nat) (x : Port) : (s.setPort n x).dup = s.dup := rfl
@[simp] theorem State.setPort_time (s : State) (n : Nat) (x : Port) : (s.setPort n x).time = s.time := rfl
@[simp] theorem State.setPort_crp (s : State) (n : Nat) (x : Port) : (s.setPort n x).crp = s.crp := rfl
@[simp] theorem State.setPort_aud (s : State) (n : Nat) (x : Port) : (s.setPort n x).aud = s.aud := rfl
@[simp] theorem State.setPort_free (s : State) (n : Nat) (x : Port) : (s.setPort n x).free = s.free := rfl
@[simp] theorem State.setPort_pending (s : State) (n : Nat) (x : Port) : (s.setPort n x).pending = s.pending := rfl

@[simp] theorem State.setZip_ctxs (s : State) (n : Nat) (x : Zip) : (s.setZip n x).ctxs = s.ctxs := rfl
@[simp] theorem State.setZip_pairs (s : State) (n : Nat) (x : Zip) : (s.setZip n x).pairs = s.pairs := rfl
@[simp] theorem State.setZip_caches (s : State) (n : Nat) (x : Zip) : (s.setZip n x).caches = s.caches := rfl
@[simp] theorem State.setZip_memc (s : State) (n : Nat) (x : Zip) : (s.setZip n x).memc = s.memc := rfl
@[simp] theorem State.setZip_mem (s : State) (n : Nat) (x : Zip) : (s.setZip n x).mem = s.mem := rfl
@[simp] theorem State.setZip_bus (s : State) (n : Nat) (x : Zip) : (s.setZip n x).bus = s.bus := rfl
@[simp] theorem State.setZip_mbs (s : State) (n : Nat) (x : Zip) : (s.setZip n x).mbs = s.mbs := rfl
@[simp] theorem State.setZip_sp (s : State) (n : Nat) (x : Zip) : (s.setZip n x).sp = s.sp := rfl
@[simp] theorem State.setZip_ert (s : State) (n : Nat) (x : Zip) : (s.setZip n x).ert = s.ert := rfl
@[simp] theorem State.setZip_fcr (s : State) (n : Nat) (x : Zip) : (s.setZip n x).fcr = s.fcr := rfl
@[simp] theorem State.setZip_chan (s : State) (n : Nat) (x : Zip) : (s.setZip n x).chan = s.chan := rfl
@[simp] theorem State.setZip_ports (s : State) (n : Nat) (x : Zip) : (s.setZip n x).ports = s.ports := rfl
@[simp] theorem State.setZip_zctx (s : State) (n : Nat) (x : Zip) : (s.setZip n x).zctx = s.zctx := rfl
@[simp] theorem State.setZip_ciph (s : State) (n : Nat) (x : Zip) : (s.setZip n x).ciph = s.ciph := rfl
@[simp] theorem State.setZip_insts (s : State) (n : Nat) (x : Zip) : (s.setZip n x).insts = s.insts := rfl
@[simp] theorem State.setZip_dup (s : State) (n : Nat) (x : Zip) : (s.setZip n x).dup = s.dup := rfl
@[simp] theorem State.setZip_time (s : State) (n : Nat) (x : Zip) : (s.setZip n x).time = s.time := rfl
@[simp] theorem State.setZip_crp (s : State) (n : Nat) (x : Zip) : (s.setZip n x).crp = s.crp := rfl
@[simp] theorem State.setZip_aud (s : State) (n : Nat) (x : Zip) : (s.setZip n x).aud = s.aud := rfl
@[simp] theorem State.setZip_free (s : State) (n : Nat) (x : Zip) : (s.setZip n x).free = s.free := rfl
@[simp] theorem State.setZip_pending (s : State) (n : Nat) (x : Zip) : (s.setZip n x).pending = s.pending := rfl

@[simp] theorem State.setInst_ctxs (s : State) (i : Nat) (x : Inst) : (s.setInst i x).ctxs = s.ctxs := rfl
@[simp] theorem State.setInst_pairs (s : State) (i : Nat) (x : Inst) : (s.setInst i x).pairs = s.pairs := rfl
@[simp] theorem State.setInst_caches (s : State) (i : Nat) (x : Inst) : (s.setInst i x).caches = s.caches := rfl
@[simp] theorem State.setInst_memc (s : State) (i : Nat) (x : Inst) : (s.setInst i x).memc = s.memc := rfl
@[simp] theorem State.setInst_mem (s : State) (i : Nat) (x : Inst) : (s.setInst i x).mem = s.mem := rfl
@[simp] theorem State.setInst_bus (s : State) (i : Nat) (x : Inst) : (s.setInst i x).bus = s.bus := rfl
@[simp] theorem State.setInst_mbs (s : State) (i : Nat) (x : Inst) : (s.setInst i x).mbs = s.mbs := rfl
@[simp] theorem State.setInst_sp (s : State) (i : Nat) (x : Inst) : (s.setInst i x).sp = s.sp := rfl
@[simp] theorem State.setInst_ert (s : State) (i : Nat) (x : Inst) : (s.setInst i x).ert = s.ert := rfl
@[simp] theorem State.setInst_fcr (s : State) (i : Nat) (x : Inst) : (s.setInst i x).fcr = s.fcr := rfl
@[simp] theorem State.setInst_chan (s : State) (i : Nat) (x : Inst) : (s.setInst i x).chan = s.chan := rfl
@[simp] theorem State.setInst_ports (s : State) (i : Nat) (x : Inst) : (s.setInst i x).ports = s.ports := rfl
@[simp] theorem State.setInst_zips (s : State) (i : Nat) (x : Inst) : (s.setInst i x).zips = s.zips := rfl
@[simp] theorem State.setInst_zctx (s : State) (i : Nat) (x : Inst) : (s.setInst i x).zctx = s.zctx := rfl
@[simp] theorem State.setInst_ciph (s : State) (i : Nat) (x : Inst) : (s.setInst i x).ciph = s.ciph := rfl
@[simp] theorem State.setInst_dup (s : State) (i : Nat) (x : Inst) : (s.setInst i x).dup = s.dup := rfl
@[simp] theorem State.setInst_time (s : State) (i : Nat) (x : Inst) : (s.setInst i x).time = s.time := rfl
@[simp] theorem State.setInst_crp (s : State) (i : Nat) (x : Inst) : (s.setInst i x).crp = s.crp := rfl
@[simp] theorem State.setInst_aud (s : State) (i : Nat) (x : Inst) : (s.setInst i x).aud = s.aud := rfl
@[simp] theorem State.setInst_free (s : State) (i : Nat) (x : Inst) : (s.setInst i x).free = s.free := rfl
@[simp] theorem State.setInst_pending (s : State) (i : Nat) (x : Inst) : (s.setInst i x).pending = s.pending := rfl

@[simp] theorem State.setJour_ctxs (s : State) (i : Nat) (x : Journal) : (s.setJour i x).ctxs = s.ctxs := rfl
@[simp] theorem State.setJour_pairs (s : State) (i : Nat) (x : Journal) : (s.setJour i x).pairs = s.pairs := rfl
@[simp] theorem State.setJour_caches (s : State) (i : Nat) (x : Journal) : (s.setJour i x).caches = s.caches := rfl
@[simp] theorem State.setJour_memc (s : State) (i : Nat) (x : Journal) : (s.setJour i x).memc = s.memc := rfl
@[simp] theorem State.setJour_mem (s : State) (i : Nat) (x : Journal) : (s.setJour i x).mem = s.mem := rfl
@[simp] theorem State.setJour_bus (s : State) (i : Nat) (x : Journal) : (s.setJour i x).bus = s.bus := rfl
@[simp] theorem State.setJour_mbs (s : State) (i : Nat) (x : Journal) : (s.setJour i x).mbs = s.mbs := rfl
@[simp] theorem State.setJour_sp (s : State) (i : Nat) (x : Journal) : (s.setJour i x).sp = s.sp := rfl
@[simp] theorem State.setJour_ert (s : State) (i : Nat) (x : Journal) : (s.setJour i x).ert = s.ert := rfl
@[simp] theorem State.setJour_fcr (s : State) (i : Nat) (x : Journal) : (s.setJour i x).fcr = s.fcr := rfl
@[simp] theorem State.setJour_ports (s : State) (i : Nat) (x : Journal) : (s.setJour i x).ports = s.ports := rfl
@[simp] theorem State.setJour_zips (s : State) (i : Nat) (x : Journal) : (s.setJour i x).zips = s.zips := rfl
@[simp] theorem State.setJour_zctx (s : State) (i : Nat) (x : Journal) : (s.setJour i x).zctx = s.zctx := rfl
@[simp] theorem State.setJour_ciph (s : State) (i : Nat) (x : Journal) : (s.setJour i x).ciph = s.ciph := rfl
@[simp] theorem State.setJour_insts (s : State) (i : Nat) (x : Journal) : (s.setJour i x).insts = s.insts := rfl
@[simp] theorem State.setJour_dup (s : State) (i : Nat) (x : Journal) : (s.setJour i x).dup = s.dup := rfl
@[simp] theorem State.setJour_time (s : State) (i : Nat) (x : Journal) : (s.setJour i x).time = s.time := rfl
@[simp] theorem State.setJour_crp (s : State) (i : Nat) (x : Journal) : (s.setJour i x).crp = s.crp := rfl
@[simp] theorem State.setJour_aud (s : State) (i : Nat) (x : Journal) : (s.setJour i x).aud = s.aud := rfl
@[simp] theorem State.setJour_free (s : State) (i : Nat) (x : Journal) : (s.setJour i x).free = s.free := rfl
@[simp] theorem State.setJour_pending (s : State) (i : Nat) (x : Journal) : (s.setJour i x).pending = s.pending := rfl

@[simp] theorem State.setSens_ctxs (s : State) (i : Nat) (x : Sens) : (s.setSens i x).ctxs = s.ctxs := rfl
@[simp] theorem State.setSens_pairs (s : State) (i : Nat) (x : Sens) : (s.setSens i x).pairs = s.pairs := rfl
@[simp] theorem State.setSens_caches (s : State) (i : Nat) (x : Sens) : (s.setSens i x).caches = s.caches := rfl
@[simp] theorem State.setSens_memc (s : State) (i : Nat) (x : Sens) : (s.setSens i x).memc = s.memc := rfl
@[simp] theorem State.setSens_mem (s : State) (i : Nat) (x : Sens) : (s.setSens i x).mem = s.mem := rfl
@[simp] theorem State.setSens_bus (s : State) (i : Nat) (x : Sens) : (s.setSens i x).bus = s.bus := rfl
@[simp] theorem State.setSens_mbs (s : State) (i : Nat) (x : Sens) : (s.setSens i x).mbs = s.mbs := rfl
@[simp] theorem State.setSens_sp (s : State) (i : Nat) (x : Sens) : (s.setSens i x).sp = s.sp := rfl
@[simp] theorem State.setSens_ert (s : State) (i : Nat) (x : Sens) : (s.setSens i x).ert = s.ert := rfl
@[simp] theorem State.setSens_fcr (s : State) (i : Nat) (x : Sens) : (s.setSens i x).fcr = s.fcr := rfl
@[simp] theorem State.setSens_chan (s : State) (i : Nat) (x : Sens) : (s.setSens i x).chan = s.chan := rfl
@[simp] theorem State.setSens_ports (s : State) (i : Nat) (x : Sens) : (s.setSens i x).ports = s.ports := rfl
@[simp] theorem State.setSens_zips (s : State) (i : Nat) (x : Sens) : (s.setSens i x).zips = s.zips := rfl
@[simp] theorem State.setSens_zctx (s : State) (i : Nat) (x : Sens) : (s.setSens i x).zctx = s.zctx := rfl
@[simp] theorem State.setSens_ciph (s : State) (i : Nat) (x : Sens) : (s.setSens i x).ciph = s.ciph := rfl
@[simp] theorem State.setSens_insts (s : State) (i : Nat) (x : Sens) : (s.setSens i x).insts = s.insts := rfl
@[simp] theorem State.setSens_dup (s : State) (i : Nat) (x : Sens) : (s.setSens i x).dup = s.dup := rfl
@[simp] theorem State.setSens_time (s : State) (i : Nat) (x : Sens) : (s.setSens i x).time = s.time := rfl
@[simp] theorem State.setSens_aud (s : State) (i : Nat) (x : Sens) : (s.setSens i x).aud = s.aud := rfl
@[simp] theorem State.setSens_free (s : State) (i : Nat) (x : Sens) : (s.setSens i x).free = s.free := rfl
@[simp] theorem State.setSens_pending (s : State) (i : Nat) (x : Sens) : (s.setSens i x).pending = s.pending := rfl

@[simp] theorem State.setPctl_ctxs (s : State) (p : Nat) (x : Pctl) : (s.setPctl p x).ctxs = s.ctxs := rfl
@[simp] theorem State.setPctl_pairs (s : State) (p : Nat) (x : Pctl) : (s.setPctl p x).pairs = s.pairs := rfl
@[simp] theorem State.setPctl_memc (s : State) (p : Nat) (x : Pctl) : (s.setPctl p x).memc = s.memc := rfl
@[simp] theorem State.setPctl_mem (s : State) (p : Nat) (x : Pctl) : (s.setPctl p x).mem = s.mem := rfl
@[simp] theorem State.setPctl_bus (s : State) (p : Nat) (x : Pctl) : (s.setPctl p x).bus = s.bus := rfl
@[simp] theorem State.setPctl_mbs (s : State) (p : Nat) (x : Pctl) : (s.setPctl p x).mbs = s.mbs := rfl
@[simp] theorem State.setPctl_sp (s : State) (p : Nat) (x : Pctl) : (s.setPctl p x).sp = s.sp := rfl
@[simp] theorem State.setPctl_ert (s : State) (p : Nat) (x : Pctl) : (s.setPctl p x).ert = s.ert := rfl
@[simp] theorem State.setPctl_fcr (s : State) (p : Nat) (x : Pctl) : (s.setPctl p x).fcr = s.fcr := rfl
@[simp] theorem State.setPctl_chan (s : State) (p : Nat) (x : Pctl) : (s.setPctl p x).chan = s.chan := rfl
@[simp] theorem State.setPctl_ports (s : State) (p : Nat) (x : Pctl) : (s.setPctl p x).ports = s.ports := rfl
@[simp] theorem State.setPctl_zips (s : State) (p : Nat) (x : Pctl) : (s.setPctl p x).zips = s.zips := rfl
@[simp] theorem State.setPctl_zctx (s : State) (p : Nat) (x : Pctl) : (s.setPctl p x).zctx = s.zctx := rfl
@[simp] theorem State.setPctl_ciph (s : State) (p : Nat) (x : Pctl) : (s.setPctl p x).ciph = s.ciph := rfl
@[simp] theorem State.setPctl_insts (s : State) (p : Nat) (x : Pctl) : (s.setPctl p x).insts = s.insts := rfl
@[simp] theorem State.setPctl_dup (s : State) (p : Nat) (x : Pctl) : (s.setPctl p x).dup = s.dup := rfl
@[simp] theorem State.setPctl_time (s : State) (p : Nat) (x : Pctl) : (s.setPctl p x).time = s.time := rfl
@[simp] theorem State.setPctl_crp (s : State) (p : Nat) (x : Pctl) : (s.setPctl p x).crp = s.crp := rfl
@[simp] theorem State.setPctl_aud (s : State) (p : Nat) (x : Pctl) : (s.setPctl p x).aud = s.aud := rfl
@[simp] theorem State.setPctl_free (s : State) (p : Nat) (x : Pctl) : (s.setPctl p x).free = s.free := rfl
@[simp] theorem State.setPctl_pending (s : State) (p : Nat) (x : Pctl) : (s.setPctl p x).pending = s.pending := rfl

@[simp] theorem State.drawn_ctxs (s : State) : s.drawn.ctxs = s.ctxs := rfl
@[simp] theorem State.drawn_pairs (s : State) : s.drawn.pairs = s.pairs := rfl
@[simp] theorem State.drawn_caches (s : State) : s.drawn.caches = s.caches := rfl
@[simp] theorem State.drawn_memc (s : State) : s.drawn.memc = s.memc := rfl
@[simp] theorem State.drawn_mem (s : State) : s.drawn.mem = s.mem := rfl
@[simp] theorem State.drawn_bus (s : State) : s.drawn.bus = s.bus := rfl
@[simp] theorem State.drawn_mbs (s : State) : s.drawn.mbs = s.mbs := rfl
@[simp] theorem State.drawn_sp (s : State) : s.drawn.sp = s.sp := rfl
@[simp] theorem State.drawn_ert (s : State) : s.drawn.ert = s.ert := rfl
@[simp] theorem State.drawn_fcr (s : State) : s.drawn.fcr = s.fcr := rfl
@[simp] theorem State.drawn_chan (s : State) : s.drawn.chan = s.chan := rfl
@[simp] theorem State.drawn_ports (s : State) : s.drawn.ports = s.ports := rfl
@[simp] theorem State.drawn_zips (s : State) : s.drawn.zips = s.zips := rfl
@[simp] theorem State.drawn_zctx (s : State) : s.drawn.zctx = s.zctx := rfl
@[simp] theorem State.drawn_ciph (s : State) : s.drawn.ciph = s.ciph := rfl
@[simp] theorem State.drawn_insts (s : State) : s.drawn.insts = s.insts := rfl
@[simp] theorem State.drawn_dup (s : State) : s.drawn.dup = s.dup := rfl
@[simp] theorem State.drawn_time (s : State) : s.drawn.time = s.time := rfl
@[simp] theorem State.drawn_crp (s : State) : s.drawn.crp = s.crp := rfl
@[simp] theorem State.drawn_aud (s : State) : s.drawn.aud = s.aud := rfl
@[simp] theorem State.drawn_pending (s : State) : s.drawn.pending = s.pending := rfl
@[simp] theorem State.drawn_free (s : State) : s.drawn.free = s.free + 1 := rfl

/-! ## Parts after an update -/

@[simp] theorem State.ctx_setCtx (s : State) (c : Nat) (x : Ctx) : (s.setCtx c x).ctx c = x := by
  simp [State.ctx, State.setCtx]
theorem State.ctx_setCtx_other (s : State) (c m : Nat) (x : Ctx) (h : m ≠ c) : (s.setCtx c x).ctx m = s.ctx m := by
  simp [State.ctx, State.setCtx, Tab.get_set_other, h]
@[simp] theorem State.pair_setPair (s : State) (p : Nat) (x : Pair) : (s.setPair p x).pair p = x := by
  simp [State.pair, State.setPair]
theorem State.pair_setPair_other (s : State) (p m : Nat) (x : Pair) (h : m ≠ p) : (s.setPair p x).pair m = s.pair m := by
  simp [State.pair, State.setPair, Tab.get_set_other, h]
@[simp] theorem State.mb_setMb (s : State) (n : Nat) (x : Mailbox) : (s.setMb n x).mb n = x := by
  simp [State.mb, State.setMb]
theorem State.mb_setMb_other (s : State) (n m : Nat) (x : Mailbox) (h : m ≠ n) : (s.setMb n x).mb m = s.mb m := by
  simp [State.mb, State.setMb, Tab.get_set_other, h]
@[simp] theorem State.port_setPort (s : State) (n : Nat) (x : Port) : (s.setPort n x).port n = x := by
  simp [State.port, State.setPort]
theorem State.port_setPort_other (s : State) (n m : Nat) (x : Port) (h : m ≠ n) : (s.setPort n x).port m = s.port m := by
  simp [State.port, State.setPort, Tab.get_set_other, h]
@[simp] theorem State.zip_setZip (s : State) (n : Nat) (x : Zip) : (s.setZip n x).zip n = x := by
  simp [State.zip, State.setZip]
theorem State.zip_setZip_other (s : State) (n m : Nat) (x : Zip) (h : m ≠ n) : (s.setZip n x).zip m = s.zip m := by
  simp [State.zip, State.setZip, Tab.get_set_other, h]
@[simp] theorem State.inst_setInst (s : State) (i : Nat) (x : Inst) : (s.setInst i x).inst i = x := by
  simp [State.inst, State.setInst]
theorem State.inst_setInst_other (s : State) (i m : Nat) (x : Inst) (h : m ≠ i) : (s.setInst i x).inst m = s.inst m := by
  simp [State.inst, State.setInst, Tab.get_set_other, h]
@[simp] theorem State.jour_setJour (s : State) (i : Nat) (x : Journal) : (s.setJour i x).jour i = x := by
  simp [State.jour, State.setJour]
theorem State.jour_setJour_other (s : State) (i m : Nat) (x : Journal) (h : m ≠ i) : (s.setJour i x).jour m = s.jour m := by
  simp [State.jour, State.setJour, Tab.get_set_other, h]
@[simp] theorem State.sens_setSens (s : State) (i : Nat) (x : Sens) : (s.setSens i x).sens i = x := by
  simp [State.sens, State.setSens]
theorem State.sens_setSens_other (s : State) (i m : Nat) (x : Sens) (h : m ≠ i) : (s.setSens i x).sens m = s.sens m := by
  simp [State.sens, State.setSens, Tab.get_set_other, h]
@[simp] theorem State.pctl_setPctl (s : State) (p : Nat) (x : Pctl) : (s.setPctl p x).pctl p = x := by
  simp [State.pctl, State.setPctl]
theorem State.pctl_setPctl_other (s : State) (p m : Nat) (x : Pctl) (h : m ≠ p) : (s.setPctl p x).pctl m = s.pctl m := by
  simp [State.pctl, State.setPctl, Tab.get_set_other, h]
@[simp] theorem State.ctx_setPair (s : State) (n m : Nat) (x : Pair) : (s.setPair n x).ctx m = s.ctx m := rfl
@[simp] theorem State.ctx_setMb (s : State) (n m : Nat) (x : Mailbox) : (s.setMb n x).ctx m = s.ctx m := rfl
@[simp] theorem State.ctx_setPort (s : State) (n m : Nat) (x : Port) : (s.setPort n x).ctx m = s.ctx m := rfl
@[simp] theorem State.ctx_setZip (s : State) (n m : Nat) (x : Zip) : (s.setZip n x).ctx m = s.ctx m := rfl
@[simp] theorem State.ctx_setInst (s : State) (n m : Nat) (x : Inst) : (s.setInst n x).ctx m = s.ctx m := rfl
@[simp] theorem State.ctx_setJour (s : State) (n m : Nat) (x : Journal) : (s.setJour n x).ctx m = s.ctx m := rfl
@[simp] theorem State.ctx_setSens (s : State) (n m : Nat) (x : Sens) : (s.setSens n x).ctx m = s.ctx m := rfl
@[simp] theorem State.ctx_setPctl (s : State) (n m : Nat) (x : Pctl) : (s.setPctl n x).ctx m = s.ctx m := rfl
@[simp] theorem State.pair_setCtx (s : State) (n m : Nat) (x : Ctx) : (s.setCtx n x).pair m = s.pair m := rfl
@[simp] theorem State.pair_setMb (s : State) (n m : Nat) (x : Mailbox) : (s.setMb n x).pair m = s.pair m := rfl
@[simp] theorem State.pair_setPort (s : State) (n m : Nat) (x : Port) : (s.setPort n x).pair m = s.pair m := rfl
@[simp] theorem State.pair_setZip (s : State) (n m : Nat) (x : Zip) : (s.setZip n x).pair m = s.pair m := rfl
@[simp] theorem State.pair_setInst (s : State) (n m : Nat) (x : Inst) : (s.setInst n x).pair m = s.pair m := rfl
@[simp] theorem State.pair_setJour (s : State) (n m : Nat) (x : Journal) : (s.setJour n x).pair m = s.pair m := rfl
@[simp] theorem State.pair_setSens (s : State) (n m : Nat) (x : Sens) : (s.setSens n x).pair m = s.pair m := rfl
@[simp] theorem State.pair_setPctl (s : State) (n m : Nat) (x : Pctl) : (s.setPctl n x).pair m = s.pair m := rfl
@[simp] theorem State.mb_setCtx (s : State) (n m : Nat) (x : Ctx) : (s.setCtx n x).mb m = s.mb m := rfl
@[simp] theorem State.mb_setPair (s : State) (n m : Nat) (x : Pair) : (s.setPair n x).mb m = s.mb m := rfl
@[simp] theorem State.mb_setPort (s : State) (n m : Nat) (x : Port) : (s.setPort n x).mb m = s.mb m := rfl
@[simp] theorem State.mb_setZip (s : State) (n m : Nat) (x : Zip) : (s.setZip n x).mb m = s.mb m := rfl
@[simp] theorem State.mb_setInst (s : State) (n m : Nat) (x : Inst) : (s.setInst n x).mb m = s.mb m := rfl
@[simp] theorem State.mb_setJour (s : State) (n m : Nat) (x : Journal) : (s.setJour n x).mb m = s.mb m := rfl
@[simp] theorem State.mb_setSens (s : State) (n m : Nat) (x : Sens) : (s.setSens n x).mb m = s.mb m := rfl
@[simp] theorem State.mb_setPctl (s : State) (n m : Nat) (x : Pctl) : (s.setPctl n x).mb m = s.mb m := rfl
@[simp] theorem State.port_setCtx (s : State) (n m : Nat) (x : Ctx) : (s.setCtx n x).port m = s.port m := rfl
@[simp] theorem State.port_setPair (s : State) (n m : Nat) (x : Pair) : (s.setPair n x).port m = s.port m := rfl
@[simp] theorem State.port_setMb (s : State) (n m : Nat) (x : Mailbox) : (s.setMb n x).port m = s.port m := rfl
@[simp] theorem State.port_setZip (s : State) (n m : Nat) (x : Zip) : (s.setZip n x).port m = s.port m := rfl
@[simp] theorem State.port_setInst (s : State) (n m : Nat) (x : Inst) : (s.setInst n x).port m = s.port m := rfl
@[simp] theorem State.port_setJour (s : State) (n m : Nat) (x : Journal) : (s.setJour n x).port m = s.port m := rfl
@[simp] theorem State.port_setSens (s : State) (n m : Nat) (x : Sens) : (s.setSens n x).port m = s.port m := rfl
@[simp] theorem State.port_setPctl (s : State) (n m : Nat) (x : Pctl) : (s.setPctl n x).port m = s.port m := rfl
@[simp] theorem State.zip_setCtx (s : State) (n m : Nat) (x : Ctx) : (s.setCtx n x).zip m = s.zip m := rfl
@[simp] theorem State.zip_setPair (s : State) (n m : Nat) (x : Pair) : (s.setPair n x).zip m = s.zip m := rfl
@[simp] theorem State.zip_setMb (s : State) (n m : Nat) (x : Mailbox) : (s.setMb n x).zip m = s.zip m := rfl
@[simp] theorem State.zip_setPort (s : State) (n m : Nat) (x : Port) : (s.setPort n x).zip m = s.zip m := rfl
@[simp] theorem State.zip_setInst (s : State) (n m : Nat) (x : Inst) : (s.setInst n x).zip m = s.zip m := rfl
@[simp] theorem State.zip_setJour (s : State) (n m : Nat) (x : Journal) : (s.setJour n x).zip m = s.zip m := rfl
@[simp] theorem State.zip_setSens (s : State) (n m : Nat) (x : Sens) : (s.setSens n x).zip m = s.zip m := rfl
@[simp] theorem State.zip_setPctl (s : State) (n m : Nat) (x : Pctl) : (s.setPctl n x).zip m = s.zip m := rfl
@[simp] theorem State.inst_setCtx (s : State) (n m : Nat) (x : Ctx) : (s.setCtx n x).inst m = s.inst m := rfl
@[simp] theorem State.inst_setPair (s : State) (n m : Nat) (x : Pair) : (s.setPair n x).inst m = s.inst m := rfl
@[simp] theorem State.inst_setMb (s : State) (n m : Nat) (x : Mailbox) : (s.setMb n x).inst m = s.inst m := rfl
@[simp] theorem State.inst_setPort (s : State) (n m : Nat) (x : Port) : (s.setPort n x).inst m = s.inst m := rfl
@[simp] theorem State.inst_setZip (s : State) (n m : Nat) (x : Zip) : (s.setZip n x).inst m = s.inst m := rfl
@[simp] theorem State.inst_setJour (s : State) (n m : Nat) (x : Journal) : (s.setJour n x).inst m = s.inst m := rfl
@[simp] theorem State.inst_setSens (s : State) (n m : Nat) (x : Sens) : (s.setSens n x).inst m = s.inst m := rfl
@[simp] theorem State.inst_setPctl (s : State) (n m : Nat) (x : Pctl) : (s.setPctl n x).inst m = s.inst m := rfl
@[simp] theorem State.jour_setCtx (s : State) (n m : Nat) (x : Ctx) : (s.setCtx n x).jour m = s.jour m := rfl
@[simp] theorem State.jour_setPair (s : State) (n m : Nat) (x : Pair) : (s.setPair n x).jour m = s.jour m := rfl
@[simp] theorem State.jour_setMb (s : State) (n m : Nat) (x : Mailbox) : (s.setMb n x).jour m = s.jour m := rfl
@[simp] theorem State.jour_setPort (s : State) (n m : Nat) (x : Port) : (s.setPort n x).jour m = s.jour m := rfl
@[simp] theorem State.jour_setZip (s : State) (n m : Nat) (x : Zip) : (s.setZip n x).jour m = s.jour m := rfl
@[simp] theorem State.jour_setInst (s : State) (n m : Nat) (x : Inst) : (s.setInst n x).jour m = s.jour m := rfl
@[simp] theorem State.jour_setSens (s : State) (n m : Nat) (x : Sens) : (s.setSens n x).jour m = s.jour m := rfl
@[simp] theorem State.jour_setPctl (s : State) (n m : Nat) (x : Pctl) : (s.setPctl n x).jour m = s.jour m := rfl
@[simp] theorem State.sens_setCtx (s : State) (n m : Nat) (x : Ctx) : (s.setCtx n x).sens m = s.sens m := rfl
@[simp] theorem State.sens_setPair (s : State) (n m : Nat) (x : Pair) : (s.setPair n x).sens m = s.sens m := rfl
@[simp] theorem State.sens_setMb (s : State) (n m : Nat) (x : Mailbox) : (s.setMb n x).sens m = s.sens m := rfl
@[simp] theorem State.sens_setPort (s : State) (n m : Nat) (x : Port) : (s.setPort n x).sens m = s.sens m := rfl
@[simp] theorem State.sens_setZip (s : State) (n m : Nat) (x : Zip) : (s.setZip n x).sens m = s.sens m := rfl
@[simp] theorem State.sens_setInst (s : State) (n m : Nat) (x : Inst) : (s.setInst n x).sens m = s.sens m := rfl
@[simp] theorem State.sens_setJour (s : State) (n m : Nat) (x : Journal) : (s.setJour n x).sens m = s.sens m := rfl
@[simp] theorem State.sens_setPctl (s : State) (n m : Nat) (x : Pctl) : (s.setPctl n x).sens m = s.sens m := rfl
@[simp] theorem State.pctl_setCtx (s : State) (n m : Nat) (x : Ctx) : (s.setCtx n x).pctl m = s.pctl m := rfl
@[simp] theorem State.pctl_setPair (s : State) (n m : Nat) (x : Pair) : (s.setPair n x).pctl m = s.pctl m := rfl
@[simp] theorem State.pctl_setMb (s : State) (n m : Nat) (x : Mailbox) : (s.setMb n x).pctl m = s.pctl m := rfl
@[simp] theorem State.pctl_setPort (s : State) (n m : Nat) (x : Port) : (s.setPort n x).pctl m = s.pctl m := rfl
@[simp] theorem State.pctl_setZip (s : State) (n m : Nat) (x : Zip) : (s.setZip n x).pctl m = s.pctl m := rfl
@[simp] theorem State.pctl_setInst (s : State) (n m : Nat) (x : Inst) : (s.setInst n x).pctl m = s.pctl m := rfl
@[simp] theorem State.pctl_setJour (s : State) (n m : Nat) (x : Journal) : (s.setJour n x).pctl m = s.pctl m := rfl
@[simp] theorem State.pctl_setSens (s : State) (n m : Nat) (x : Sens) : (s.setSens n x).pctl m = s.pctl m := rfl

end Sys2Proof.Machine
end

