-- ==== Sys2Proof/Laws/Frames.lean ====
section
/-! SUPPORT. What the shared operations leave unchanged: one lemma per operation and field of State. -/
namespace Sys2Proof.Machine

/-! ### sendEvent -/

@[simp] theorem sendEvent_ctxs (s : State) (e : EventMsg) : (sendEvent s e).ctxs = s.ctxs := by unfold sendEvent eventLands setPend; (repeat' split) <;> rfl
@[simp] theorem sendEvent_pairs (s : State) (e : EventMsg) : (sendEvent s e).pairs = s.pairs := by unfold sendEvent eventLands setPend; (repeat' split) <;> rfl
@[simp] theorem sendEvent_caches (s : State) (e : EventMsg) : (sendEvent s e).caches = s.caches := by unfold sendEvent eventLands setPend; (repeat' split) <;> rfl
@[simp] theorem sendEvent_memc (s : State) (e : EventMsg) : (sendEvent s e).memc = s.memc := by unfold sendEvent eventLands setPend; (repeat' split) <;> rfl
@[simp] theorem sendEvent_mem (s : State) (e : EventMsg) : (sendEvent s e).mem = s.mem := by unfold sendEvent eventLands setPend; (repeat' split) <;> rfl
@[simp] theorem sendEvent_mbs (s : State) (e : EventMsg) : (sendEvent s e).mbs = s.mbs := by unfold sendEvent eventLands setPend; (repeat' split) <;> rfl
@[simp] theorem sendEvent_sp (s : State) (e : EventMsg) : (sendEvent s e).sp = s.sp := by unfold sendEvent eventLands setPend; (repeat' split) <;> rfl
@[simp] theorem sendEvent_fcr (s : State) (e : EventMsg) : (sendEvent s e).fcr = s.fcr := by unfold sendEvent eventLands setPend; (repeat' split) <;> rfl
@[simp] theorem sendEvent_chan (s : State) (e : EventMsg) : (sendEvent s e).chan = s.chan := by unfold sendEvent eventLands setPend; (repeat' split) <;> rfl
@[simp] theorem sendEvent_ports (s : State) (e : EventMsg) : (sendEvent s e).ports = s.ports := by unfold sendEvent eventLands setPend; (repeat' split) <;> rfl
@[simp] theorem sendEvent_zips (s : State) (e : EventMsg) : (sendEvent s e).zips = s.zips := by unfold sendEvent eventLands setPend; (repeat' split) <;> rfl
@[simp] theorem sendEvent_zctx (s : State) (e : EventMsg) : (sendEvent s e).zctx = s.zctx := by unfold sendEvent eventLands setPend; (repeat' split) <;> rfl
@[simp] theorem sendEvent_ciph (s : State) (e : EventMsg) : (sendEvent s e).ciph = s.ciph := by unfold sendEvent eventLands setPend; (repeat' split) <;> rfl
@[simp] theorem sendEvent_insts (s : State) (e : EventMsg) : (sendEvent s e).insts = s.insts := by unfold sendEvent eventLands setPend; (repeat' split) <;> rfl
@[simp] theorem sendEvent_dup (s : State) (e : EventMsg) : (sendEvent s e).dup = s.dup := by unfold sendEvent eventLands setPend; (repeat' split) <;> rfl
@[simp] theorem sendEvent_time (s : State) (e : EventMsg) : (sendEvent s e).time = s.time := by unfold sendEvent eventLands setPend; (repeat' split) <;> rfl
@[simp] theorem sendEvent_crp (s : State) (e : EventMsg) : (sendEvent s e).crp = s.crp := by unfold sendEvent eventLands setPend; (repeat' split) <;> rfl
@[simp] theorem sendEvent_aud (s : State) (e : EventMsg) : (sendEvent s e).aud = s.aud := by unfold sendEvent eventLands setPend; (repeat' split) <;> rfl
@[simp] theorem sendEvent_free (s : State) (e : EventMsg) : (sendEvent s e).free = s.free := by unfold sendEvent eventLands setPend; (repeat' split) <;> rfl
@[simp] theorem sendEvent_pending (s : State) (e : EventMsg) : (sendEvent s e).pending = s.pending := by unfold sendEvent eventLands setPend; (repeat' split) <;> rfl
@[simp] theorem sendEvent_ctx (s : State) (e : EventMsg) (m : Nat) : (sendEvent s e).ctx m = s.ctx m := by
  simp [State.ctx]
@[simp] theorem sendEvent_pair (s : State) (e : EventMsg) (m : Nat) : (sendEvent s e).pair m = s.pair m := by
  simp [State.pair]
@[simp] theorem sendEvent_mb (s : State) (e : EventMsg) (m : Nat) : (sendEvent s e).mb m = s.mb m := by
  simp [State.mb]
@[simp] theorem sendEvent_port (s : State) (e : EventMsg) (m : Nat) : (sendEvent s e).port m = s.port m := by
  simp [State.port]
@[simp] theorem sendEvent_zip (s : State) (e : EventMsg) (m : Nat) : (sendEvent s e).zip m = s.zip m := by
  simp [State.zip]
@[simp] theorem sendEvent_inst (s : State) (e : EventMsg) (m : Nat) : (sendEvent s e).inst m = s.inst m := by
  simp [State.inst]
@[simp] theorem sendEvent_jour (s : State) (e : EventMsg) (m : Nat) : (sendEvent s e).jour m = s.jour m := by
  simp [State.jour]
@[simp] theorem sendEvent_sens (s : State) (e : EventMsg) (m : Nat) : (sendEvent s e).sens m = s.sens m := by
  simp [State.sens]
@[simp] theorem sendEvent_pctl (s : State) (e : EventMsg) (m : Nat) : (sendEvent s e).pctl m = s.pctl m := by
  simp [State.pctl]
@[simp] theorem sendEvent_chst (s : State) (e : EventMsg) (m : Nat) : (sendEvent s e).chst m = s.chst m := by
  simp [State.chst]
@[simp] theorem sendEvent_live (s : State) (e : EventMsg) : (sendEvent s e).live = s.live := by
  unfold State.live; rw [sendEvent_crp]
@[simp] theorem sendEvent_tod (s : State) (e : EventMsg) : (sendEvent s e).tod = s.tod := by
  simp [State.tod]
@[simp] theorem sendEvent_owner (s : State) (e : EventMsg) (m : Nat) : (sendEvent s e).owner m = s.owner m := by
  simp [State.owner]
@[simp] theorem sendEvent_inningsOf (s : State) (e : EventMsg) (m : Nat) : (sendEvent s e).inningsOf m = s.inningsOf m := by
  simp [State.inningsOf, State.inst]
@[simp] theorem sendEvent_inMemory (s : State) (e : EventMsg) (at' len : Nat) : (sendEvent s e).inMemory at' len = s.inMemory at' len := by
  unfold State.inMemory State.usable; rw [sendEvent_memc]

/-! ### raise -/

@[simp] theorem raise_ctxs (s : State) (n : Nat) : (raise s n).ctxs = s.ctxs := by simp [raise]
@[simp] theorem raise_pairs (s : State) (n : Nat) : (raise s n).pairs = s.pairs := by simp [raise]
@[simp] theorem raise_caches (s : State) (n : Nat) : (raise s n).caches = s.caches := by simp [raise]
@[simp] theorem raise_memc (s : State) (n : Nat) : (raise s n).memc = s.memc := by simp [raise]
@[simp] theorem raise_mem (s : State) (n : Nat) : (raise s n).mem = s.mem := by simp [raise]
@[simp] theorem raise_mbs (s : State) (n : Nat) : (raise s n).mbs = s.mbs := by simp [raise]
@[simp] theorem raise_sp (s : State) (n : Nat) : (raise s n).sp = s.sp := by simp [raise]
@[simp] theorem raise_fcr (s : State) (n : Nat) : (raise s n).fcr = s.fcr := by simp [raise]
@[simp] theorem raise_chan (s : State) (n : Nat) : (raise s n).chan = s.chan := by simp [raise]
@[simp] theorem raise_ports (s : State) (n : Nat) : (raise s n).ports = s.ports := by simp [raise]
@[simp] theorem raise_zips (s : State) (n : Nat) : (raise s n).zips = s.zips := by simp [raise]
@[simp] theorem raise_zctx (s : State) (n : Nat) : (raise s n).zctx = s.zctx := by simp [raise]
@[simp] theorem raise_ciph (s : State) (n : Nat) : (raise s n).ciph = s.ciph := by simp [raise]
@[simp] theorem raise_insts (s : State) (n : Nat) : (raise s n).insts = s.insts := by simp [raise]
@[simp] theorem raise_dup (s : State) (n : Nat) : (raise s n).dup = s.dup := by simp [raise]
@[simp] theorem raise_time (s : State) (n : Nat) : (raise s n).time = s.time := by simp [raise]
@[simp] theorem raise_crp (s : State) (n : Nat) : (raise s n).crp = s.crp := by simp [raise]
@[simp] theorem raise_aud (s : State) (n : Nat) : (raise s n).aud = s.aud := by simp [raise]
@[simp] theorem raise_free (s : State) (n : Nat) : (raise s n).free = s.free := by simp [raise]
@[simp] theorem raise_pending (s : State) (n : Nat) : (raise s n).pending = s.pending := by simp [raise]
@[simp] theorem raise_ctx (s : State) (n : Nat) (m : Nat) : (raise s n).ctx m = s.ctx m := by
  simp [State.ctx]
@[simp] theorem raise_pair (s : State) (n : Nat) (m : Nat) : (raise s n).pair m = s.pair m := by
  simp [State.pair]
@[simp] theorem raise_mb (s : State) (n : Nat) (m : Nat) : (raise s n).mb m = s.mb m := by
  simp [State.mb]
@[simp] theorem raise_port (s : State) (n : Nat) (m : Nat) : (raise s n).port m = s.port m := by
  simp [State.port]
@[simp] theorem raise_zip (s : State) (n : Nat) (m : Nat) : (raise s n).zip m = s.zip m := by
  simp [State.zip]
@[simp] theorem raise_inst (s : State) (n : Nat) (m : Nat) : (raise s n).inst m = s.inst m := by
  simp [State.inst]
@[simp] theorem raise_jour (s : State) (n : Nat) (m : Nat) : (raise s n).jour m = s.jour m := by
  simp [State.jour]
@[simp] theorem raise_sens (s : State) (n : Nat) (m : Nat) : (raise s n).sens m = s.sens m := by
  simp [State.sens]
@[simp] theorem raise_pctl (s : State) (n : Nat) (m : Nat) : (raise s n).pctl m = s.pctl m := by
  simp [State.pctl]
@[simp] theorem raise_chst (s : State) (n : Nat) (m : Nat) : (raise s n).chst m = s.chst m := by
  simp [State.chst]
@[simp] theorem raise_live (s : State) (n : Nat) : (raise s n).live = s.live := by
  unfold State.live; rw [raise_crp]
@[simp] theorem raise_tod (s : State) (n : Nat) : (raise s n).tod = s.tod := by
  simp [State.tod]
@[simp] theorem raise_owner (s : State) (n : Nat) (m : Nat) : (raise s n).owner m = s.owner m := by
  simp [State.owner]
@[simp] theorem raise_inningsOf (s : State) (n : Nat) (m : Nat) : (raise s n).inningsOf m = s.inningsOf m := by
  simp [State.inningsOf, State.inst]
@[simp] theorem raise_inMemory (s : State) (n : Nat) (at' len : Nat) : (raise s n).inMemory at' len = s.inMemory at' len := by
  unfold State.inMemory State.usable; rw [raise_memc]

/-! ### raiseFor -/

@[simp] theorem raiseFor_ctxs (s : State) (n i : Nat) (k : BitVec 12) : (raiseFor s n i k).ctxs = s.ctxs := by simp [raiseFor]
@[simp] theorem raiseFor_pairs (s : State) (n i : Nat) (k : BitVec 12) : (raiseFor s n i k).pairs = s.pairs := by simp [raiseFor]
@[simp] theorem raiseFor_caches (s : State) (n i : Nat) (k : BitVec 12) : (raiseFor s n i k).caches = s.caches := by simp [raiseFor]
@[simp] theorem raiseFor_memc (s : State) (n i : Nat) (k : BitVec 12) : (raiseFor s n i k).memc = s.memc := by simp [raiseFor]
@[simp] theorem raiseFor_mem (s : State) (n i : Nat) (k : BitVec 12) : (raiseFor s n i k).mem = s.mem := by simp [raiseFor]
@[simp] theorem raiseFor_mbs (s : State) (n i : Nat) (k : BitVec 12) : (raiseFor s n i k).mbs = s.mbs := by simp [raiseFor]
@[simp] theorem raiseFor_sp (s : State) (n i : Nat) (k : BitVec 12) : (raiseFor s n i k).sp = s.sp := by simp [raiseFor]
@[simp] theorem raiseFor_fcr (s : State) (n i : Nat) (k : BitVec 12) : (raiseFor s n i k).fcr = s.fcr := by simp [raiseFor]
@[simp] theorem raiseFor_chan (s : State) (n i : Nat) (k : BitVec 12) : (raiseFor s n i k).chan = s.chan := by simp [raiseFor]
@[simp] theorem raiseFor_ports (s : State) (n i : Nat) (k : BitVec 12) : (raiseFor s n i k).ports = s.ports := by simp [raiseFor]
@[simp] theorem raiseFor_zips (s : State) (n i : Nat) (k : BitVec 12) : (raiseFor s n i k).zips = s.zips := by simp [raiseFor]
@[simp] theorem raiseFor_zctx (s : State) (n i : Nat) (k : BitVec 12) : (raiseFor s n i k).zctx = s.zctx := by simp [raiseFor]
@[simp] theorem raiseFor_ciph (s : State) (n i : Nat) (k : BitVec 12) : (raiseFor s n i k).ciph = s.ciph := by simp [raiseFor]
@[simp] theorem raiseFor_insts (s : State) (n i : Nat) (k : BitVec 12) : (raiseFor s n i k).insts = s.insts := by simp [raiseFor]
@[simp] theorem raiseFor_dup (s : State) (n i : Nat) (k : BitVec 12) : (raiseFor s n i k).dup = s.dup := by simp [raiseFor]
@[simp] theorem raiseFor_time (s : State) (n i : Nat) (k : BitVec 12) : (raiseFor s n i k).time = s.time := by simp [raiseFor]
@[simp] theorem raiseFor_crp (s : State) (n i : Nat) (k : BitVec 12) : (raiseFor s n i k).crp = s.crp := by simp [raiseFor]
@[simp] theorem raiseFor_aud (s : State) (n i : Nat) (k : BitVec 12) : (raiseFor s n i k).aud = s.aud := by simp [raiseFor]
@[simp] theorem raiseFor_free (s : State) (n i : Nat) (k : BitVec 12) : (raiseFor s n i k).free = s.free := by simp [raiseFor]
@[simp] theorem raiseFor_pending (s : State) (n i : Nat) (k : BitVec 12) : (raiseFor s n i k).pending = s.pending := by simp [raiseFor]
@[simp] theorem raiseFor_ctx (s : State) (n i : Nat) (k : BitVec 12) (m : Nat) : (raiseFor s n i k).ctx m = s.ctx m := by
  simp [State.ctx]
@[simp] theorem raiseFor_pair (s : State) (n i : Nat) (k : BitVec 12) (m : Nat) : (raiseFor s n i k).pair m = s.pair m := by
  simp [State.pair]
@[simp] theorem raiseFor_mb (s : State) (n i : Nat) (k : BitVec 12) (m : Nat) : (raiseFor s n i k).mb m = s.mb m := by
  simp [State.mb]
@[simp] theorem raiseFor_port (s : State) (n i : Nat) (k : BitVec 12) (m : Nat) : (raiseFor s n i k).port m = s.port m := by
  simp [State.port]
@[simp] theorem raiseFor_zip (s : State) (n i : Nat) (k : BitVec 12) (m : Nat) : (raiseFor s n i k).zip m = s.zip m := by
  simp [State.zip]
@[simp] theorem raiseFor_inst (s : State) (n i : Nat) (k : BitVec 12) (m : Nat) : (raiseFor s n i k).inst m = s.inst m := by
  simp [State.inst]
@[simp] theorem raiseFor_jour (s : State) (n i : Nat) (k : BitVec 12) (m : Nat) : (raiseFor s n i k).jour m = s.jour m := by
  simp [State.jour]
@[simp] theorem raiseFor_sens (s : State) (n i : Nat) (k : BitVec 12) (m : Nat) : (raiseFor s n i k).sens m = s.sens m := by
  simp [State.sens]
@[simp] theorem raiseFor_pctl (s : State) (n i : Nat) (k : BitVec 12) (m : Nat) : (raiseFor s n i k).pctl m = s.pctl m := by
  simp [State.pctl]
@[simp] theorem raiseFor_chst (s : State) (n i : Nat) (k : BitVec 12) (m : Nat) : (raiseFor s n i k).chst m = s.chst m := by
  simp [State.chst]
@[simp] theorem raiseFor_live (s : State) (n i : Nat) (k : BitVec 12) : (raiseFor s n i k).live = s.live := by
  unfold State.live; rw [raiseFor_crp]
@[simp] theorem raiseFor_tod (s : State) (n i : Nat) (k : BitVec 12) : (raiseFor s n i k).tod = s.tod := by
  simp [State.tod]
@[simp] theorem raiseFor_owner (s : State) (n i : Nat) (k : BitVec 12) (m : Nat) : (raiseFor s n i k).owner m = s.owner m := by
  simp [State.owner]
@[simp] theorem raiseFor_inningsOf (s : State) (n i : Nat) (k : BitVec 12) (m : Nat) : (raiseFor s n i k).inningsOf m = s.inningsOf m := by
  simp [State.inningsOf, State.inst]
@[simp] theorem raiseFor_inMemory (s : State) (n i : Nat) (k : BitVec 12) (at' len : Nat) : (raiseFor s n i k).inMemory at' len = s.inMemory at' len := by
  unfold State.inMemory State.usable; rw [raiseFor_memc]

/-! ### sendCard -/

@[simp] theorem sendCard_ctxs (s : State) (c : CardIn) : (sendCard s c).ctxs = s.ctxs := by unfold sendCard; split <;> rfl
@[simp] theorem sendCard_pairs (s : State) (c : CardIn) : (sendCard s c).pairs = s.pairs := by unfold sendCard; split <;> rfl
@[simp] theorem sendCard_caches (s : State) (c : CardIn) : (sendCard s c).caches = s.caches := by unfold sendCard; split <;> rfl
@[simp] theorem sendCard_memc (s : State) (c : CardIn) : (sendCard s c).memc = s.memc := by unfold sendCard; split <;> rfl
@[simp] theorem sendCard_mem (s : State) (c : CardIn) : (sendCard s c).mem = s.mem := by unfold sendCard; split <;> rfl
@[simp] theorem sendCard_mbs (s : State) (c : CardIn) : (sendCard s c).mbs = s.mbs := by unfold sendCard; split <;> rfl
@[simp] theorem sendCard_sp (s : State) (c : CardIn) : (sendCard s c).sp = s.sp := by unfold sendCard; split <;> rfl
@[simp] theorem sendCard_ert (s : State) (c : CardIn) : (sendCard s c).ert = s.ert := by unfold sendCard; split <;> rfl
@[simp] theorem sendCard_chan (s : State) (c : CardIn) : (sendCard s c).chan = s.chan := by unfold sendCard; split <;> rfl
@[simp] theorem sendCard_ports (s : State) (c : CardIn) : (sendCard s c).ports = s.ports := by unfold sendCard; split <;> rfl
@[simp] theorem sendCard_zips (s : State) (c : CardIn) : (sendCard s c).zips = s.zips := by unfold sendCard; split <;> rfl
@[simp] theorem sendCard_zctx (s : State) (c : CardIn) : (sendCard s c).zctx = s.zctx := by unfold sendCard; split <;> rfl
@[simp] theorem sendCard_ciph (s : State) (c : CardIn) : (sendCard s c).ciph = s.ciph := by unfold sendCard; split <;> rfl
@[simp] theorem sendCard_insts (s : State) (c : CardIn) : (sendCard s c).insts = s.insts := by unfold sendCard; split <;> rfl
@[simp] theorem sendCard_dup (s : State) (c : CardIn) : (sendCard s c).dup = s.dup := by unfold sendCard; split <;> rfl
@[simp] theorem sendCard_time (s : State) (c : CardIn) : (sendCard s c).time = s.time := by unfold sendCard; split <;> rfl
@[simp] theorem sendCard_crp (s : State) (c : CardIn) : (sendCard s c).crp = s.crp := by unfold sendCard; split <;> rfl
@[simp] theorem sendCard_aud (s : State) (c : CardIn) : (sendCard s c).aud = s.aud := by unfold sendCard; split <;> rfl
@[simp] theorem sendCard_free (s : State) (c : CardIn) : (sendCard s c).free = s.free := by unfold sendCard; split <;> rfl
@[simp] theorem sendCard_pending (s : State) (c : CardIn) : (sendCard s c).pending = s.pending := by unfold sendCard; split <;> rfl
@[simp] theorem sendCard_ctx (s : State) (c : CardIn) (m : Nat) : (sendCard s c).ctx m = s.ctx m := by
  simp [State.ctx]
@[simp] theorem sendCard_pair (s : State) (c : CardIn) (m : Nat) : (sendCard s c).pair m = s.pair m := by
  simp [State.pair]
@[simp] theorem sendCard_mb (s : State) (c : CardIn) (m : Nat) : (sendCard s c).mb m = s.mb m := by
  simp [State.mb]
@[simp] theorem sendCard_port (s : State) (c : CardIn) (m : Nat) : (sendCard s c).port m = s.port m := by
  simp [State.port]
@[simp] theorem sendCard_zip (s : State) (c : CardIn) (m : Nat) : (sendCard s c).zip m = s.zip m := by
  simp [State.zip]
@[simp] theorem sendCard_inst (s : State) (c : CardIn) (m : Nat) : (sendCard s c).inst m = s.inst m := by
  simp [State.inst]
@[simp] theorem sendCard_jour (s : State) (c : CardIn) (m : Nat) : (sendCard s c).jour m = s.jour m := by
  simp [State.jour]
@[simp] theorem sendCard_sens (s : State) (c : CardIn) (m : Nat) : (sendCard s c).sens m = s.sens m := by
  simp [State.sens]
@[simp] theorem sendCard_pctl (s : State) (c : CardIn) (m : Nat) : (sendCard s c).pctl m = s.pctl m := by
  simp [State.pctl]
@[simp] theorem sendCard_chst (s : State) (c : CardIn) (m : Nat) : (sendCard s c).chst m = s.chst m := by
  simp [State.chst]
@[simp] theorem sendCard_live (s : State) (c : CardIn) : (sendCard s c).live = s.live := by
  unfold State.live; rw [sendCard_crp]
@[simp] theorem sendCard_tod (s : State) (c : CardIn) : (sendCard s c).tod = s.tod := by
  simp [State.tod]
@[simp] theorem sendCard_owner (s : State) (c : CardIn) (m : Nat) : (sendCard s c).owner m = s.owner m := by
  simp [State.owner]
@[simp] theorem sendCard_inningsOf (s : State) (c : CardIn) (m : Nat) : (sendCard s c).inningsOf m = s.inningsOf m := by
  simp [State.inningsOf, State.inst]
@[simp] theorem sendCard_inMemory (s : State) (c : CardIn) (at' len : Nat) : (sendCard s c).inMemory at' len = s.inMemory at' len := by
  unfold State.inMemory State.usable; rw [sendCard_memc]

/-! ### card -/

@[simp] theorem card_ctxs (s : State) (a b c d e : Nat) : (card s a b c d e).ctxs = s.ctxs := by simp [card]
@[simp] theorem card_pairs (s : State) (a b c d e : Nat) : (card s a b c d e).pairs = s.pairs := by simp [card]
@[simp] theorem card_caches (s : State) (a b c d e : Nat) : (card s a b c d e).caches = s.caches := by simp [card]
@[simp] theorem card_memc (s : State) (a b c d e : Nat) : (card s a b c d e).memc = s.memc := by simp [card]
@[simp] theorem card_mem (s : State) (a b c d e : Nat) : (card s a b c d e).mem = s.mem := by simp [card]
@[simp] theorem card_mbs (s : State) (a b c d e : Nat) : (card s a b c d e).mbs = s.mbs := by simp [card]
@[simp] theorem card_sp (s : State) (a b c d e : Nat) : (card s a b c d e).sp = s.sp := by simp [card]
@[simp] theorem card_ert (s : State) (a b c d e : Nat) : (card s a b c d e).ert = s.ert := by simp [card]
@[simp] theorem card_chan (s : State) (a b c d e : Nat) : (card s a b c d e).chan = s.chan := by simp [card]
@[simp] theorem card_ports (s : State) (a b c d e : Nat) : (card s a b c d e).ports = s.ports := by simp [card]
@[simp] theorem card_zips (s : State) (a b c d e : Nat) : (card s a b c d e).zips = s.zips := by simp [card]
@[simp] theorem card_zctx (s : State) (a b c d e : Nat) : (card s a b c d e).zctx = s.zctx := by simp [card]
@[simp] theorem card_ciph (s : State) (a b c d e : Nat) : (card s a b c d e).ciph = s.ciph := by simp [card]
@[simp] theorem card_insts (s : State) (a b c d e : Nat) : (card s a b c d e).insts = s.insts := by simp [card]
@[simp] theorem card_dup (s : State) (a b c d e : Nat) : (card s a b c d e).dup = s.dup := by simp [card]
@[simp] theorem card_time (s : State) (a b c d e : Nat) : (card s a b c d e).time = s.time := by simp [card]
@[simp] theorem card_crp (s : State) (a b c d e : Nat) : (card s a b c d e).crp = s.crp := by simp [card]
@[simp] theorem card_aud (s : State) (a b c d e : Nat) : (card s a b c d e).aud = s.aud := by simp [card]
@[simp] theorem card_free (s : State) (a b c d e : Nat) : (card s a b c d e).free = s.free := by simp [card]
@[simp] theorem card_pending (s : State) (a b c d e : Nat) : (card s a b c d e).pending = s.pending := by simp [card]
@[simp] theorem card_ctx (s : State) (a b c d e : Nat) (m : Nat) : (card s a b c d e).ctx m = s.ctx m := by
  simp [State.ctx]
@[simp] theorem card_pair (s : State) (a b c d e : Nat) (m : Nat) : (card s a b c d e).pair m = s.pair m := by
  simp [State.pair]
@[simp] theorem card_mb (s : State) (a b c d e : Nat) (m : Nat) : (card s a b c d e).mb m = s.mb m := by
  simp [State.mb]
@[simp] theorem card_port (s : State) (a b c d e : Nat) (m : Nat) : (card s a b c d e).port m = s.port m := by
  simp [State.port]
@[simp] theorem card_zip (s : State) (a b c d e : Nat) (m : Nat) : (card s a b c d e).zip m = s.zip m := by
  simp [State.zip]
@[simp] theorem card_inst (s : State) (a b c d e : Nat) (m : Nat) : (card s a b c d e).inst m = s.inst m := by
  simp [State.inst]
@[simp] theorem card_jour (s : State) (a b c d e : Nat) (m : Nat) : (card s a b c d e).jour m = s.jour m := by
  simp [State.jour]
@[simp] theorem card_sens (s : State) (a b c d e : Nat) (m : Nat) : (card s a b c d e).sens m = s.sens m := by
  simp [State.sens]
@[simp] theorem card_pctl (s : State) (a b c d e : Nat) (m : Nat) : (card s a b c d e).pctl m = s.pctl m := by
  simp [State.pctl]
@[simp] theorem card_chst (s : State) (a b c d e : Nat) (m : Nat) : (card s a b c d e).chst m = s.chst m := by
  simp [State.chst]
@[simp] theorem card_live (s : State) (a b c d e : Nat) : (card s a b c d e).live = s.live := by
  unfold State.live; rw [card_crp]
@[simp] theorem card_tod (s : State) (a b c d e : Nat) : (card s a b c d e).tod = s.tod := by
  simp [State.tod]
@[simp] theorem card_owner (s : State) (a b c d e : Nat) (m : Nat) : (card s a b c d e).owner m = s.owner m := by
  simp [State.owner]
@[simp] theorem card_inningsOf (s : State) (a b c d e : Nat) (m : Nat) : (card s a b c d e).inningsOf m = s.inningsOf m := by
  simp [State.inningsOf, State.inst]
@[simp] theorem card_inMemory (s : State) (a b c d e : Nat) (at' len : Nat) : (card s a b c d e).inMemory at' len = s.inMemory at' len := by
  unfold State.inMemory State.usable; rw [card_memc]

/-! ### setCaches -/

@[simp] theorem setCaches_ctxs (s : State) (c : Caches) : (setCaches s c).ctxs = s.ctxs := rfl
@[simp] theorem setCaches_pairs (s : State) (c : Caches) : (setCaches s c).pairs = s.pairs := rfl
@[simp] theorem setCaches_memc (s : State) (c : Caches) : (setCaches s c).memc = s.memc := rfl
@[simp] theorem setCaches_mem (s : State) (c : Caches) : (setCaches s c).mem = s.mem := rfl
@[simp] theorem setCaches_bus (s : State) (c : Caches) : (setCaches s c).bus = s.bus := rfl
@[simp] theorem setCaches_mbs (s : State) (c : Caches) : (setCaches s c).mbs = s.mbs := rfl
@[simp] theorem setCaches_sp (s : State) (c : Caches) : (setCaches s c).sp = s.sp := rfl
@[simp] theorem setCaches_ert (s : State) (c : Caches) : (setCaches s c).ert = s.ert := rfl
@[simp] theorem setCaches_fcr (s : State) (c : Caches) : (setCaches s c).fcr = s.fcr := rfl
@[simp] theorem setCaches_chan (s : State) (c : Caches) : (setCaches s c).chan = s.chan := rfl
@[simp] theorem setCaches_ports (s : State) (c : Caches) : (setCaches s c).ports = s.ports := rfl
@[simp] theorem setCaches_zips (s : State) (c : Caches) : (setCaches s c).zips = s.zips := rfl
@[simp] theorem setCaches_zctx (s : State) (c : Caches) : (setCaches s c).zctx = s.zctx := rfl
@[simp] theorem setCaches_ciph (s : State) (c : Caches) : (setCaches s c).ciph = s.ciph := rfl
@[simp] theorem setCaches_insts (s : State) (c : Caches) : (setCaches s c).insts = s.insts := rfl
@[simp] theorem setCaches_dup (s : State) (c : Caches) : (setCaches s c).dup = s.dup := rfl
@[simp] theorem setCaches_time (s : State) (c : Caches) : (setCaches s c).time = s.time := rfl
@[simp] theorem setCaches_crp (s : State) (c : Caches) : (setCaches s c).crp = s.crp := rfl
@[simp] theorem setCaches_aud (s : State) (c : Caches) : (setCaches s c).aud = s.aud := rfl
@[simp] theorem setCaches_free (s : State) (c : Caches) : (setCaches s c).free = s.free := rfl
@[simp] theorem setCaches_pending (s : State) (c : Caches) : (setCaches s c).pending = s.pending := rfl
@[simp] theorem setCaches_ctx (s : State) (c : Caches) (m : Nat) : (setCaches s c).ctx m = s.ctx m := by
  simp [State.ctx]
@[simp] theorem setCaches_pair (s : State) (c : Caches) (m : Nat) : (setCaches s c).pair m = s.pair m := by
  simp [State.pair]
@[simp] theorem setCaches_mb (s : State) (c : Caches) (m : Nat) : (setCaches s c).mb m = s.mb m := by
  simp [State.mb]
@[simp] theorem setCaches_port (s : State) (c : Caches) (m : Nat) : (setCaches s c).port m = s.port m := by
  simp [State.port]
@[simp] theorem setCaches_zip (s : State) (c : Caches) (m : Nat) : (setCaches s c).zip m = s.zip m := by
  simp [State.zip]
@[simp] theorem setCaches_inst (s : State) (c : Caches) (m : Nat) : (setCaches s c).inst m = s.inst m := by
  simp [State.inst]
@[simp] theorem setCaches_jour (s : State) (c : Caches) (m : Nat) : (setCaches s c).jour m = s.jour m := by
  simp [State.jour]
@[simp] theorem setCaches_sens (s : State) (c : Caches) (m : Nat) : (setCaches s c).sens m = s.sens m := by
  simp [State.sens]
@[simp] theorem setCaches_chst (s : State) (c : Caches) (m : Nat) : (setCaches s c).chst m = s.chst m := by
  simp [State.chst]
@[simp] theorem setCaches_live (s : State) (c : Caches) : (setCaches s c).live = s.live := by
  unfold State.live; rw [setCaches_crp]
@[simp] theorem setCaches_tod (s : State) (c : Caches) : (setCaches s c).tod = s.tod := by
  simp [State.tod]
@[simp] theorem setCaches_owner (s : State) (c : Caches) (m : Nat) : (setCaches s c).owner m = s.owner m := by
  simp [State.owner]
@[simp] theorem setCaches_inningsOf (s : State) (c : Caches) (m : Nat) : (setCaches s c).inningsOf m = s.inningsOf m := by
  simp [State.inningsOf, State.inst]
@[simp] theorem setCaches_inMemory (s : State) (c : Caches) (at' len : Nat) : (setCaches s c).inMemory at' len = s.inMemory at' len := by
  unfold State.inMemory State.usable; rw [setCaches_memc]

/-! ### mbMove -/

@[simp] theorem mbMove_ctxs (s : State) (n : Nat) (x : Mailbox) (st : MbSt) (k : Nat) : (mbMove s n x st k).ctxs = s.ctxs := by unfold mbMove; dsimp only; split <;> simp
@[simp] theorem mbMove_pairs (s : State) (n : Nat) (x : Mailbox) (st : MbSt) (k : Nat) : (mbMove s n x st k).pairs = s.pairs := by unfold mbMove; dsimp only; split <;> simp
@[simp] theorem mbMove_caches (s : State) (n : Nat) (x : Mailbox) (st : MbSt) (k : Nat) : (mbMove s n x st k).caches = s.caches := by unfold mbMove; dsimp only; split <;> simp
@[simp] theorem mbMove_memc (s : State) (n : Nat) (x : Mailbox) (st : MbSt) (k : Nat) : (mbMove s n x st k).memc = s.memc := by unfold mbMove; dsimp only; split <;> simp
@[simp] theorem mbMove_mem (s : State) (n : Nat) (x : Mailbox) (st : MbSt) (k : Nat) : (mbMove s n x st k).mem = s.mem := by unfold mbMove; dsimp only; split <;> simp
@[simp] theorem mbMove_sp (s : State) (n : Nat) (x : Mailbox) (st : MbSt) (k : Nat) : (mbMove s n x st k).sp = s.sp := by unfold mbMove; dsimp only; split <;> simp
@[simp] theorem mbMove_fcr (s : State) (n : Nat) (x : Mailbox) (st : MbSt) (k : Nat) : (mbMove s n x st k).fcr = s.fcr := by unfold mbMove; dsimp only; split <;> simp
@[simp] theorem mbMove_chan (s : State) (n : Nat) (x : Mailbox) (st : MbSt) (k : Nat) : (mbMove s n x st k).chan = s.chan := by unfold mbMove; dsimp only; split <;> simp
@[simp] theorem mbMove_ports (s : State) (n : Nat) (x : Mailbox) (st : MbSt) (k : Nat) : (mbMove s n x st k).ports = s.ports := by unfold mbMove; dsimp only; split <;> simp
@[simp] theorem mbMove_zips (s : State) (n : Nat) (x : Mailbox) (st : MbSt) (k : Nat) : (mbMove s n x st k).zips = s.zips := by unfold mbMove; dsimp only; split <;> simp
@[simp] theorem mbMove_zctx (s : State) (n : Nat) (x : Mailbox) (st : MbSt) (k : Nat) : (mbMove s n x st k).zctx = s.zctx := by unfold mbMove; dsimp only; split <;> simp
@[simp] theorem mbMove_ciph (s : State) (n : Nat) (x : Mailbox) (st : MbSt) (k : Nat) : (mbMove s n x st k).ciph = s.ciph := by unfold mbMove; dsimp only; split <;> simp
@[simp] theorem mbMove_insts (s : State) (n : Nat) (x : Mailbox) (st : MbSt) (k : Nat) : (mbMove s n x st k).insts = s.insts := by unfold mbMove; dsimp only; split <;> simp
@[simp] theorem mbMove_dup (s : State) (n : Nat) (x : Mailbox) (st : MbSt) (k : Nat) : (mbMove s n x st k).dup = s.dup := by unfold mbMove; dsimp only; split <;> simp
@[simp] theorem mbMove_time (s : State) (n : Nat) (x : Mailbox) (st : MbSt) (k : Nat) : (mbMove s n x st k).time = s.time := by unfold mbMove; dsimp only; split <;> simp
@[simp] theorem mbMove_crp (s : State) (n : Nat) (x : Mailbox) (st : MbSt) (k : Nat) : (mbMove s n x st k).crp = s.crp := by unfold mbMove; dsimp only; split <;> simp
@[simp] theorem mbMove_aud (s : State) (n : Nat) (x : Mailbox) (st : MbSt) (k : Nat) : (mbMove s n x st k).aud = s.aud := by unfold mbMove; dsimp only; split <;> simp
@[simp] theorem mbMove_free (s : State) (n : Nat) (x : Mailbox) (st : MbSt) (k : Nat) : (mbMove s n x st k).free = s.free := by unfold mbMove; dsimp only; split <;> simp
@[simp] theorem mbMove_pending (s : State) (n : Nat) (x : Mailbox) (st : MbSt) (k : Nat) : (mbMove s n x st k).pending = s.pending := by unfold mbMove; dsimp only; split <;> simp
@[simp] theorem mbMove_ctx (s : State) (n : Nat) (x : Mailbox) (st : MbSt) (k : Nat) (m : Nat) : (mbMove s n x st k).ctx m = s.ctx m := by
  simp [State.ctx]
@[simp] theorem mbMove_pair (s : State) (n : Nat) (x : Mailbox) (st : MbSt) (k : Nat) (m : Nat) : (mbMove s n x st k).pair m = s.pair m := by
  simp [State.pair]
@[simp] theorem mbMove_port (s : State) (n : Nat) (x : Mailbox) (st : MbSt) (k : Nat) (m : Nat) : (mbMove s n x st k).port m = s.port m := by
  simp [State.port]
@[simp] theorem mbMove_zip (s : State) (n : Nat) (x : Mailbox) (st : MbSt) (k : Nat) (m : Nat) : (mbMove s n x st k).zip m = s.zip m := by
  simp [State.zip]
@[simp] theorem mbMove_inst (s : State) (n : Nat) (x : Mailbox) (st : MbSt) (k : Nat) (m : Nat) : (mbMove s n x st k).inst m = s.inst m := by
  simp [State.inst]
@[simp] theorem mbMove_jour (s : State) (n : Nat) (x : Mailbox) (st : MbSt) (k : Nat) (m : Nat) : (mbMove s n x st k).jour m = s.jour m := by
  simp [State.jour]
@[simp] theorem mbMove_sens (s : State) (n : Nat) (x : Mailbox) (st : MbSt) (k : Nat) (m : Nat) : (mbMove s n x st k).sens m = s.sens m := by
  simp [State.sens]
@[simp] theorem mbMove_pctl (s : State) (n : Nat) (x : Mailbox) (st : MbSt) (k : Nat) (m : Nat) : (mbMove s n x st k).pctl m = s.pctl m := by
  simp [State.pctl]
@[simp] theorem mbMove_chst (s : State) (n : Nat) (x : Mailbox) (st : MbSt) (k : Nat) (m : Nat) : (mbMove s n x st k).chst m = s.chst m := by
  simp [State.chst]
@[simp] theorem mbMove_live (s : State) (n : Nat) (x : Mailbox) (st : MbSt) (k : Nat) : (mbMove s n x st k).live = s.live := by
  unfold State.live; rw [mbMove_crp]
@[simp] theorem mbMove_tod (s : State) (n : Nat) (x : Mailbox) (st : MbSt) (k : Nat) : (mbMove s n x st k).tod = s.tod := by
  simp [State.tod]
@[simp] theorem mbMove_owner (s : State) (n : Nat) (x : Mailbox) (st : MbSt) (k : Nat) (m : Nat) : (mbMove s n x st k).owner m = s.owner m := by
  simp [State.owner]
@[simp] theorem mbMove_inningsOf (s : State) (n : Nat) (x : Mailbox) (st : MbSt) (k : Nat) (m : Nat) : (mbMove s n x st k).inningsOf m = s.inningsOf m := by
  simp [State.inningsOf, State.inst]
@[simp] theorem mbMove_inMemory (s : State) (n : Nat) (x : Mailbox) (st : MbSt) (k : Nat) (at' len : Nat) : (mbMove s n x st k).inMemory at' len = s.inMemory at' len := by
  unfold State.inMemory State.usable; rw [mbMove_memc]

/-! ### mbDone -/

@[simp] theorem mbDone_ctxs (s : State) (n k : Nat) (l : List Word) : (mbDone s n k l).ctxs = s.ctxs := by simp [mbDone]
@[simp] theorem mbDone_pairs (s : State) (n k : Nat) (l : List Word) : (mbDone s n k l).pairs = s.pairs := by simp [mbDone]
@[simp] theorem mbDone_caches (s : State) (n k : Nat) (l : List Word) : (mbDone s n k l).caches = s.caches := by simp [mbDone]
@[simp] theorem mbDone_memc (s : State) (n k : Nat) (l : List Word) : (mbDone s n k l).memc = s.memc := by simp [mbDone]
@[simp] theorem mbDone_mem (s : State) (n k : Nat) (l : List Word) : (mbDone s n k l).mem = s.mem := by simp [mbDone]
@[simp] theorem mbDone_sp (s : State) (n k : Nat) (l : List Word) : (mbDone s n k l).sp = s.sp := by simp [mbDone]
@[simp] theorem mbDone_fcr (s : State) (n k : Nat) (l : List Word) : (mbDone s n k l).fcr = s.fcr := by simp [mbDone]
@[simp] theorem mbDone_chan (s : State) (n k : Nat) (l : List Word) : (mbDone s n k l).chan = s.chan := by simp [mbDone]
@[simp] theorem mbDone_ports (s : State) (n k : Nat) (l : List Word) : (mbDone s n k l).ports = s.ports := by simp [mbDone]
@[simp] theorem mbDone_zips (s : State) (n k : Nat) (l : List Word) : (mbDone s n k l).zips = s.zips := by simp [mbDone]
@[simp] theorem mbDone_zctx (s : State) (n k : Nat) (l : List Word) : (mbDone s n k l).zctx = s.zctx := by simp [mbDone]
@[simp] theorem mbDone_ciph (s : State) (n k : Nat) (l : List Word) : (mbDone s n k l).ciph = s.ciph := by simp [mbDone]
@[simp] theorem mbDone_insts (s : State) (n k : Nat) (l : List Word) : (mbDone s n k l).insts = s.insts := by simp [mbDone]
@[simp] theorem mbDone_dup (s : State) (n k : Nat) (l : List Word) : (mbDone s n k l).dup = s.dup := by simp [mbDone]
@[simp] theorem mbDone_time (s : State) (n k : Nat) (l : List Word) : (mbDone s n k l).time = s.time := by simp [mbDone]
@[simp] theorem mbDone_crp (s : State) (n k : Nat) (l : List Word) : (mbDone s n k l).crp = s.crp := by simp [mbDone]
@[simp] theorem mbDone_aud (s : State) (n k : Nat) (l : List Word) : (mbDone s n k l).aud = s.aud := by simp [mbDone]
@[simp] theorem mbDone_free (s : State) (n k : Nat) (l : List Word) : (mbDone s n k l).free = s.free := by simp [mbDone]
@[simp] theorem mbDone_pending (s : State) (n k : Nat) (l : List Word) : (mbDone s n k l).pending = s.pending := by simp [mbDone]
@[simp] theorem mbDone_ctx (s : State) (n k : Nat) (l : List Word) (m : Nat) : (mbDone s n k l).ctx m = s.ctx m := by
  simp [State.ctx]
@[simp] theorem mbDone_pair (s : State) (n k : Nat) (l : List Word) (m : Nat) : (mbDone s n k l).pair m = s.pair m := by
  simp [State.pair]
@[simp] theorem mbDone_port (s : State) (n k : Nat) (l : List Word) (m : Nat) : (mbDone s n k l).port m = s.port m := by
  simp [State.port]
@[simp] theorem mbDone_zip (s : State) (n k : Nat) (l : List Word) (m : Nat) : (mbDone s n k l).zip m = s.zip m := by
  simp [State.zip]
@[simp] theorem mbDone_inst (s : State) (n k : Nat) (l : List Word) (m : Nat) : (mbDone s n k l).inst m = s.inst m := by
  simp [State.inst]
@[simp] theorem mbDone_jour (s : State) (n k : Nat) (l : List Word) (m : Nat) : (mbDone s n k l).jour m = s.jour m := by
  simp [State.jour]
@[simp] theorem mbDone_sens (s : State) (n k : Nat) (l : List Word) (m : Nat) : (mbDone s n k l).sens m = s.sens m := by
  simp [State.sens]
@[simp] theorem mbDone_pctl (s : State) (n k : Nat) (l : List Word) (m : Nat) : (mbDone s n k l).pctl m = s.pctl m := by
  simp [State.pctl]
@[simp] theorem mbDone_chst (s : State) (n k : Nat) (l : List Word) (m : Nat) : (mbDone s n k l).chst m = s.chst m := by
  simp [State.chst]
@[simp] theorem mbDone_live (s : State) (n k : Nat) (l : List Word) : (mbDone s n k l).live = s.live := by
  unfold State.live; rw [mbDone_crp]
@[simp] theorem mbDone_tod (s : State) (n k : Nat) (l : List Word) : (mbDone s n k l).tod = s.tod := by
  simp [State.tod]
@[simp] theorem mbDone_owner (s : State) (n k : Nat) (l : List Word) (m : Nat) : (mbDone s n k l).owner m = s.owner m := by
  simp [State.owner]
@[simp] theorem mbDone_inningsOf (s : State) (n k : Nat) (l : List Word) (m : Nat) : (mbDone s n k l).inningsOf m = s.inningsOf m := by
  simp [State.inningsOf, State.inst]
@[simp] theorem mbDone_inMemory (s : State) (n k : Nat) (l : List Word) (at' len : Nat) : (mbDone s n k l).inMemory at' len = s.inMemory at' len := by
  unfold State.inMemory State.usable; rw [mbDone_memc]

/-! ### mbFail -/

@[simp] theorem mbFail_ctxs (s : State) (n k : Nat) (l : List Word) : (mbFail s n k l).ctxs = s.ctxs := by simp [mbFail]
@[simp] theorem mbFail_pairs (s : State) (n k : Nat) (l : List Word) : (mbFail s n k l).pairs = s.pairs := by simp [mbFail]
@[simp] theorem mbFail_caches (s : State) (n k : Nat) (l : List Word) : (mbFail s n k l).caches = s.caches := by simp [mbFail]
@[simp] theorem mbFail_memc (s : State) (n k : Nat) (l : List Word) : (mbFail s n k l).memc = s.memc := by simp [mbFail]
@[simp] theorem mbFail_mem (s : State) (n k : Nat) (l : List Word) : (mbFail s n k l).mem = s.mem := by simp [mbFail]
@[simp] theorem mbFail_sp (s : State) (n k : Nat) (l : List Word) : (mbFail s n k l).sp = s.sp := by simp [mbFail]
@[simp] theorem mbFail_fcr (s : State) (n k : Nat) (l : List Word) : (mbFail s n k l).fcr = s.fcr := by simp [mbFail]
@[simp] theorem mbFail_chan (s : State) (n k : Nat) (l : List Word) : (mbFail s n k l).chan = s.chan := by simp [mbFail]
@[simp] theorem mbFail_ports (s : State) (n k : Nat) (l : List Word) : (mbFail s n k l).ports = s.ports := by simp [mbFail]
@[simp] theorem mbFail_zips (s : State) (n k : Nat) (l : List Word) : (mbFail s n k l).zips = s.zips := by simp [mbFail]
@[simp] theorem mbFail_zctx (s : State) (n k : Nat) (l : List Word) : (mbFail s n k l).zctx = s.zctx := by simp [mbFail]
@[simp] theorem mbFail_ciph (s : State) (n k : Nat) (l : List Word) : (mbFail s n k l).ciph = s.ciph := by simp [mbFail]
@[simp] theorem mbFail_insts (s : State) (n k : Nat) (l : List Word) : (mbFail s n k l).insts = s.insts := by simp [mbFail]
@[simp] theorem mbFail_dup (s : State) (n k : Nat) (l : List Word) : (mbFail s n k l).dup = s.dup := by simp [mbFail]
@[simp] theorem mbFail_time (s : State) (n k : Nat) (l : List Word) : (mbFail s n k l).time = s.time := by simp [mbFail]
@[simp] theorem mbFail_crp (s : State) (n k : Nat) (l : List Word) : (mbFail s n k l).crp = s.crp := by simp [mbFail]
@[simp] theorem mbFail_aud (s : State) (n k : Nat) (l : List Word) : (mbFail s n k l).aud = s.aud := by simp [mbFail]
@[simp] theorem mbFail_free (s : State) (n k : Nat) (l : List Word) : (mbFail s n k l).free = s.free := by simp [mbFail]
@[simp] theorem mbFail_pending (s : State) (n k : Nat) (l : List Word) : (mbFail s n k l).pending = s.pending := by simp [mbFail]
@[simp] theorem mbFail_ctx (s : State) (n k : Nat) (l : List Word) (m : Nat) : (mbFail s n k l).ctx m = s.ctx m := by
  simp [State.ctx]
@[simp] theorem mbFail_pair (s : State) (n k : Nat) (l : List Word) (m : Nat) : (mbFail s n k l).pair m = s.pair m := by
  simp [State.pair]
@[simp] theorem mbFail_port (s : State) (n k : Nat) (l : List Word) (m : Nat) : (mbFail s n k l).port m = s.port m := by
  simp [State.port]
@[simp] theorem mbFail_zip (s : State) (n k : Nat) (l : List Word) (m : Nat) : (mbFail s n k l).zip m = s.zip m := by
  simp [State.zip]
@[simp] theorem mbFail_inst (s : State) (n k : Nat) (l : List Word) (m : Nat) : (mbFail s n k l).inst m = s.inst m := by
  simp [State.inst]
@[simp] theorem mbFail_jour (s : State) (n k : Nat) (l : List Word) (m : Nat) : (mbFail s n k l).jour m = s.jour m := by
  simp [State.jour]
@[simp] theorem mbFail_sens (s : State) (n k : Nat) (l : List Word) (m : Nat) : (mbFail s n k l).sens m = s.sens m := by
  simp [State.sens]
@[simp] theorem mbFail_pctl (s : State) (n k : Nat) (l : List Word) (m : Nat) : (mbFail s n k l).pctl m = s.pctl m := by
  simp [State.pctl]
@[simp] theorem mbFail_chst (s : State) (n k : Nat) (l : List Word) (m : Nat) : (mbFail s n k l).chst m = s.chst m := by
  simp [State.chst]
@[simp] theorem mbFail_live (s : State) (n k : Nat) (l : List Word) : (mbFail s n k l).live = s.live := by
  unfold State.live; rw [mbFail_crp]
@[simp] theorem mbFail_tod (s : State) (n k : Nat) (l : List Word) : (mbFail s n k l).tod = s.tod := by
  simp [State.tod]
@[simp] theorem mbFail_owner (s : State) (n k : Nat) (l : List Word) (m : Nat) : (mbFail s n k l).owner m = s.owner m := by
  simp [State.owner]
@[simp] theorem mbFail_inningsOf (s : State) (n k : Nat) (l : List Word) (m : Nat) : (mbFail s n k l).inningsOf m = s.inningsOf m := by
  simp [State.inningsOf, State.inst]
@[simp] theorem mbFail_inMemory (s : State) (n k : Nat) (l : List Word) (at' len : Nat) : (mbFail s n k l).inMemory at' len = s.inMemory at' len := by
  unfold State.inMemory State.usable; rw [mbFail_memc]

/-! ### mbPartial -/

@[simp] theorem mbPartial_ctxs (s : State) (n : Nat) (b : Bool) (l : List Word) : (mbPartial s n b l).ctxs = s.ctxs := by simp [mbPartial]
@[simp] theorem mbPartial_pairs (s : State) (n : Nat) (b : Bool) (l : List Word) : (mbPartial s n b l).pairs = s.pairs := by simp [mbPartial]
@[simp] theorem mbPartial_caches (s : State) (n : Nat) (b : Bool) (l : List Word) : (mbPartial s n b l).caches = s.caches := by simp [mbPartial]
@[simp] theorem mbPartial_memc (s : State) (n : Nat) (b : Bool) (l : List Word) : (mbPartial s n b l).memc = s.memc := by simp [mbPartial]
@[simp] theorem mbPartial_mem (s : State) (n : Nat) (b : Bool) (l : List Word) : (mbPartial s n b l).mem = s.mem := by simp [mbPartial]
@[simp] theorem mbPartial_sp (s : State) (n : Nat) (b : Bool) (l : List Word) : (mbPartial s n b l).sp = s.sp := by simp [mbPartial]
@[simp] theorem mbPartial_fcr (s : State) (n : Nat) (b : Bool) (l : List Word) : (mbPartial s n b l).fcr = s.fcr := by simp [mbPartial]
@[simp] theorem mbPartial_chan (s : State) (n : Nat) (b : Bool) (l : List Word) : (mbPartial s n b l).chan = s.chan := by simp [mbPartial]
@[simp] theorem mbPartial_ports (s : State) (n : Nat) (b : Bool) (l : List Word) : (mbPartial s n b l).ports = s.ports := by simp [mbPartial]
@[simp] theorem mbPartial_zips (s : State) (n : Nat) (b : Bool) (l : List Word) : (mbPartial s n b l).zips = s.zips := by simp [mbPartial]
@[simp] theorem mbPartial_zctx (s : State) (n : Nat) (b : Bool) (l : List Word) : (mbPartial s n b l).zctx = s.zctx := by simp [mbPartial]
@[simp] theorem mbPartial_ciph (s : State) (n : Nat) (b : Bool) (l : List Word) : (mbPartial s n b l).ciph = s.ciph := by simp [mbPartial]
@[simp] theorem mbPartial_insts (s : State) (n : Nat) (b : Bool) (l : List Word) : (mbPartial s n b l).insts = s.insts := by simp [mbPartial]
@[simp] theorem mbPartial_dup (s : State) (n : Nat) (b : Bool) (l : List Word) : (mbPartial s n b l).dup = s.dup := by simp [mbPartial]
@[simp] theorem mbPartial_time (s : State) (n : Nat) (b : Bool) (l : List Word) : (mbPartial s n b l).time = s.time := by simp [mbPartial]
@[simp] theorem mbPartial_crp (s : State) (n : Nat) (b : Bool) (l : List Word) : (mbPartial s n b l).crp = s.crp := by simp [mbPartial]
@[simp] theorem mbPartial_aud (s : State) (n : Nat) (b : Bool) (l : List Word) : (mbPartial s n b l).aud = s.aud := by simp [mbPartial]
@[simp] theorem mbPartial_free (s : State) (n : Nat) (b : Bool) (l : List Word) : (mbPartial s n b l).free = s.free := by simp [mbPartial]
@[simp] theorem mbPartial_pending (s : State) (n : Nat) (b : Bool) (l : List Word) : (mbPartial s n b l).pending = s.pending := by simp [mbPartial]
@[simp] theorem mbPartial_ctx (s : State) (n : Nat) (b : Bool) (l : List Word) (m : Nat) : (mbPartial s n b l).ctx m = s.ctx m := by
  simp [State.ctx]
@[simp] theorem mbPartial_pair (s : State) (n : Nat) (b : Bool) (l : List Word) (m : Nat) : (mbPartial s n b l).pair m = s.pair m := by
  simp [State.pair]
@[simp] theorem mbPartial_port (s : State) (n : Nat) (b : Bool) (l : List Word) (m : Nat) : (mbPartial s n b l).port m = s.port m := by
  simp [State.port]
@[simp] theorem mbPartial_zip (s : State) (n : Nat) (b : Bool) (l : List Word) (m : Nat) : (mbPartial s n b l).zip m = s.zip m := by
  simp [State.zip]
@[simp] theorem mbPartial_inst (s : State) (n : Nat) (b : Bool) (l : List Word) (m : Nat) : (mbPartial s n b l).inst m = s.inst m := by
  simp [State.inst]
@[simp] theorem mbPartial_jour (s : State) (n : Nat) (b : Bool) (l : List Word) (m : Nat) : (mbPartial s n b l).jour m = s.jour m := by
  simp [State.jour]
@[simp] theorem mbPartial_sens (s : State) (n : Nat) (b : Bool) (l : List Word) (m : Nat) : (mbPartial s n b l).sens m = s.sens m := by
  simp [State.sens]
@[simp] theorem mbPartial_pctl (s : State) (n : Nat) (b : Bool) (l : List Word) (m : Nat) : (mbPartial s n b l).pctl m = s.pctl m := by
  simp [State.pctl]
@[simp] theorem mbPartial_chst (s : State) (n : Nat) (b : Bool) (l : List Word) (m : Nat) : (mbPartial s n b l).chst m = s.chst m := by
  simp [State.chst]
@[simp] theorem mbPartial_live (s : State) (n : Nat) (b : Bool) (l : List Word) : (mbPartial s n b l).live = s.live := by
  unfold State.live; rw [mbPartial_crp]
@[simp] theorem mbPartial_tod (s : State) (n : Nat) (b : Bool) (l : List Word) : (mbPartial s n b l).tod = s.tod := by
  simp [State.tod]
@[simp] theorem mbPartial_owner (s : State) (n : Nat) (b : Bool) (l : List Word) (m : Nat) : (mbPartial s n b l).owner m = s.owner m := by
  simp [State.owner]
@[simp] theorem mbPartial_inningsOf (s : State) (n : Nat) (b : Bool) (l : List Word) (m : Nat) : (mbPartial s n b l).inningsOf m = s.inningsOf m := by
  simp [State.inningsOf, State.inst]
@[simp] theorem mbPartial_inMemory (s : State) (n : Nat) (b : Bool) (l : List Word) (at' len : Nat) : (mbPartial s n b l).inMemory at' len = s.inMemory at' len := by
  unfold State.inMemory State.usable; rw [mbPartial_memc]

/-! ### mbProgress -/

@[simp] theorem mbProgress_ctxs (s : State) (n v : Nat) : (mbProgress s n v).ctxs = s.ctxs := by simp [mbProgress]
@[simp] theorem mbProgress_pairs (s : State) (n v : Nat) : (mbProgress s n v).pairs = s.pairs := by simp [mbProgress]
@[simp] theorem mbProgress_caches (s : State) (n v : Nat) : (mbProgress s n v).caches = s.caches := by simp [mbProgress]
@[simp] theorem mbProgress_memc (s : State) (n v : Nat) : (mbProgress s n v).memc = s.memc := by simp [mbProgress]
@[simp] theorem mbProgress_mem (s : State) (n v : Nat) : (mbProgress s n v).mem = s.mem := by simp [mbProgress]
@[simp] theorem mbProgress_bus (s : State) (n v : Nat) : (mbProgress s n v).bus = s.bus := by simp [mbProgress]
@[simp] theorem mbProgress_sp (s : State) (n v : Nat) : (mbProgress s n v).sp = s.sp := by simp [mbProgress]
@[simp] theorem mbProgress_ert (s : State) (n v : Nat) : (mbProgress s n v).ert = s.ert := by simp [mbProgress]
@[simp] theorem mbProgress_fcr (s : State) (n v : Nat) : (mbProgress s n v).fcr = s.fcr := by simp [mbProgress]
@[simp] theorem mbProgress_chan (s : State) (n v : Nat) : (mbProgress s n v).chan = s.chan := by simp [mbProgress]
@[simp] theorem mbProgress_ports (s : State) (n v : Nat) : (mbProgress s n v).ports = s.ports := by simp [mbProgress]
@[simp] theorem mbProgress_zips (s : State) (n v : Nat) : (mbProgress s n v).zips = s.zips := by simp [mbProgress]
@[simp] theorem mbProgress_zctx (s : State) (n v : Nat) : (mbProgress s n v).zctx = s.zctx := by simp [mbProgress]
@[simp] theorem mbProgress_ciph (s : State) (n v : Nat) : (mbProgress s n v).ciph = s.ciph := by simp [mbProgress]
@[simp] theorem mbProgress_insts (s : State) (n v : Nat) : (mbProgress s n v).insts = s.insts := by simp [mbProgress]
@[simp] theorem mbProgress_dup (s : State) (n v : Nat) : (mbProgress s n v).dup = s.dup := by simp [mbProgress]
@[simp] theorem mbProgress_time (s : State) (n v : Nat) : (mbProgress s n v).time = s.time := by simp [mbProgress]
@[simp] theorem mbProgress_crp (s : State) (n v : Nat) : (mbProgress s n v).crp = s.crp := by simp [mbProgress]
@[simp] theorem mbProgress_aud (s : State) (n v : Nat) : (mbProgress s n v).aud = s.aud := by simp [mbProgress]
@[simp] theorem mbProgress_free (s : State) (n v : Nat) : (mbProgress s n v).free = s.free := by simp [mbProgress]
@[simp] theorem mbProgress_pending (s : State) (n v : Nat) : (mbProgress s n v).pending = s.pending := by simp [mbProgress]
@[simp] theorem mbProgress_ctx (s : State) (n v : Nat) (m : Nat) : (mbProgress s n v).ctx m = s.ctx m := by
  simp [State.ctx]
@[simp] theorem mbProgress_pair (s : State) (n v : Nat) (m : Nat) : (mbProgress s n v).pair m = s.pair m := by
  simp [State.pair]
@[simp] theorem mbProgress_port (s : State) (n v : Nat) (m : Nat) : (mbProgress s n v).port m = s.port m := by
  simp [State.port]
@[simp] theorem mbProgress_zip (s : State) (n v : Nat) (m : Nat) : (mbProgress s n v).zip m = s.zip m := by
  simp [State.zip]
@[simp] theorem mbProgress_inst (s : State) (n v : Nat) (m : Nat) : (mbProgress s n v).inst m = s.inst m := by
  simp [State.inst]
@[simp] theorem mbProgress_jour (s : State) (n v : Nat) (m : Nat) : (mbProgress s n v).jour m = s.jour m := by
  simp [State.jour]
@[simp] theorem mbProgress_sens (s : State) (n v : Nat) (m : Nat) : (mbProgress s n v).sens m = s.sens m := by
  simp [State.sens]
@[simp] theorem mbProgress_pctl (s : State) (n v : Nat) (m : Nat) : (mbProgress s n v).pctl m = s.pctl m := by
  simp [State.pctl]
@[simp] theorem mbProgress_chst (s : State) (n v : Nat) (m : Nat) : (mbProgress s n v).chst m = s.chst m := by
  simp [State.chst]
@[simp] theorem mbProgress_live (s : State) (n v : Nat) : (mbProgress s n v).live = s.live := by
  unfold State.live; rw [mbProgress_crp]
@[simp] theorem mbProgress_tod (s : State) (n v : Nat) : (mbProgress s n v).tod = s.tod := by
  simp [State.tod]
@[simp] theorem mbProgress_owner (s : State) (n v : Nat) (m : Nat) : (mbProgress s n v).owner m = s.owner m := by
  simp [State.owner]
@[simp] theorem mbProgress_inningsOf (s : State) (n v : Nat) (m : Nat) : (mbProgress s n v).inningsOf m = s.inningsOf m := by
  simp [State.inningsOf, State.inst]
@[simp] theorem mbProgress_inMemory (s : State) (n v : Nat) (at' len : Nat) : (mbProgress s n v).inMemory at' len = s.inMemory at' len := by
  unfold State.inMemory State.usable; rw [mbProgress_memc]

/-! ### setCh -/

@[simp] theorem setCh_ctxs (s : State) (n : Nat) (c : ChSt) : (setCh s n c).ctxs = s.ctxs := by unfold setCh; split <;> simp
@[simp] theorem setCh_pairs (s : State) (n : Nat) (c : ChSt) : (setCh s n c).pairs = s.pairs := by unfold setCh; split <;> simp
@[simp] theorem setCh_caches (s : State) (n : Nat) (c : ChSt) : (setCh s n c).caches = s.caches := by unfold setCh; split <;> simp
@[simp] theorem setCh_mem (s : State) (n : Nat) (c : ChSt) : (setCh s n c).mem = s.mem := by unfold setCh; split <;> simp
@[simp] theorem setCh_mbs (s : State) (n : Nat) (c : ChSt) : (setCh s n c).mbs = s.mbs := by unfold setCh; split <;> simp
@[simp] theorem setCh_sp (s : State) (n : Nat) (c : ChSt) : (setCh s n c).sp = s.sp := by unfold setCh; split <;> simp
@[simp] theorem setCh_fcr (s : State) (n : Nat) (c : ChSt) : (setCh s n c).fcr = s.fcr := by unfold setCh; split <;> simp
@[simp] theorem setCh_chan (s : State) (n : Nat) (c : ChSt) : (setCh s n c).chan = s.chan := by unfold setCh; split <;> simp
@[simp] theorem setCh_ports (s : State) (n : Nat) (c : ChSt) : (setCh s n c).ports = s.ports := by unfold setCh; split <;> simp
@[simp] theorem setCh_zips (s : State) (n : Nat) (c : ChSt) : (setCh s n c).zips = s.zips := by unfold setCh; split <;> simp
@[simp] theorem setCh_zctx (s : State) (n : Nat) (c : ChSt) : (setCh s n c).zctx = s.zctx := by unfold setCh; split <;> simp
@[simp] theorem setCh_ciph (s : State) (n : Nat) (c : ChSt) : (setCh s n c).ciph = s.ciph := by unfold setCh; split <;> simp
@[simp] theorem setCh_insts (s : State) (n : Nat) (c : ChSt) : (setCh s n c).insts = s.insts := by unfold setCh; split <;> simp
@[simp] theorem setCh_dup (s : State) (n : Nat) (c : ChSt) : (setCh s n c).dup = s.dup := by unfold setCh; split <;> simp
@[simp] theorem setCh_time (s : State) (n : Nat) (c : ChSt) : (setCh s n c).time = s.time := by unfold setCh; split <;> simp
@[simp] theorem setCh_crp (s : State) (n : Nat) (c : ChSt) : (setCh s n c).crp = s.crp := by unfold setCh; split <;> simp
@[simp] theorem setCh_aud (s : State) (n : Nat) (c : ChSt) : (setCh s n c).aud = s.aud := by unfold setCh; split <;> simp
@[simp] theorem setCh_free (s : State) (n : Nat) (c : ChSt) : (setCh s n c).free = s.free := by unfold setCh; split <;> simp
@[simp] theorem setCh_pending (s : State) (n : Nat) (c : ChSt) : (setCh s n c).pending = s.pending := by unfold setCh; split <;> simp
@[simp] theorem setCh_ctx (s : State) (n : Nat) (c : ChSt) (m : Nat) : (setCh s n c).ctx m = s.ctx m := by
  simp [State.ctx]
@[simp] theorem setCh_pair (s : State) (n : Nat) (c : ChSt) (m : Nat) : (setCh s n c).pair m = s.pair m := by
  simp [State.pair]
@[simp] theorem setCh_mb (s : State) (n : Nat) (c : ChSt) (m : Nat) : (setCh s n c).mb m = s.mb m := by
  simp [State.mb]
@[simp] theorem setCh_port (s : State) (n : Nat) (c : ChSt) (m : Nat) : (setCh s n c).port m = s.port m := by
  simp [State.port]
@[simp] theorem setCh_zip (s : State) (n : Nat) (c : ChSt) (m : Nat) : (setCh s n c).zip m = s.zip m := by
  simp [State.zip]
@[simp] theorem setCh_inst (s : State) (n : Nat) (c : ChSt) (m : Nat) : (setCh s n c).inst m = s.inst m := by
  simp [State.inst]
@[simp] theorem setCh_jour (s : State) (n : Nat) (c : ChSt) (m : Nat) : (setCh s n c).jour m = s.jour m := by
  simp [State.jour]
@[simp] theorem setCh_sens (s : State) (n : Nat) (c : ChSt) (m : Nat) : (setCh s n c).sens m = s.sens m := by
  simp [State.sens]
@[simp] theorem setCh_pctl (s : State) (n : Nat) (c : ChSt) (m : Nat) : (setCh s n c).pctl m = s.pctl m := by
  simp [State.pctl]
@[simp] theorem setCh_live (s : State) (n : Nat) (c : ChSt) : (setCh s n c).live = s.live := by
  unfold State.live; rw [setCh_crp]
@[simp] theorem setCh_tod (s : State) (n : Nat) (c : ChSt) : (setCh s n c).tod = s.tod := by
  simp [State.tod]
@[simp] theorem setCh_owner (s : State) (n : Nat) (c : ChSt) (m : Nat) : (setCh s n c).owner m = s.owner m := by
  simp [State.owner]
@[simp] theorem setCh_inningsOf (s : State) (n : Nat) (c : ChSt) (m : Nat) : (setCh s n c).inningsOf m = s.inningsOf m := by
  simp [State.inningsOf, State.inst]

/-! ### dupMove -/

@[simp] theorem dupMove_ctxs (s : State) (st : DupSt) : (dupMove s st).ctxs = s.ctxs := by unfold dupMove; split <;> simp
@[simp] theorem dupMove_pairs (s : State) (st : DupSt) : (dupMove s st).pairs = s.pairs := by unfold dupMove; split <;> simp
@[simp] theorem dupMove_caches (s : State) (st : DupSt) : (dupMove s st).caches = s.caches := by unfold dupMove; split <;> simp
@[simp] theorem dupMove_memc (s : State) (st : DupSt) : (dupMove s st).memc = s.memc := by unfold dupMove; split <;> simp
@[simp] theorem dupMove_mem (s : State) (st : DupSt) : (dupMove s st).mem = s.mem := by unfold dupMove; split <;> simp
@[simp] theorem dupMove_mbs (s : State) (st : DupSt) : (dupMove s st).mbs = s.mbs := by unfold dupMove; split <;> simp
@[simp] theorem dupMove_sp (s : State) (st : DupSt) : (dupMove s st).sp = s.sp := by unfold dupMove; split <;> simp
@[simp] theorem dupMove_fcr (s : State) (st : DupSt) : (dupMove s st).fcr = s.fcr := by unfold dupMove; split <;> simp
@[simp] theorem dupMove_ports (s : State) (st : DupSt) : (dupMove s st).ports = s.ports := by unfold dupMove; split <;> simp
@[simp] theorem dupMove_zips (s : State) (st : DupSt) : (dupMove s st).zips = s.zips := by unfold dupMove; split <;> simp
@[simp] theorem dupMove_zctx (s : State) (st : DupSt) : (dupMove s st).zctx = s.zctx := by unfold dupMove; split <;> simp
@[simp] theorem dupMove_ciph (s : State) (st : DupSt) : (dupMove s st).ciph = s.ciph := by unfold dupMove; split <;> simp
@[simp] theorem dupMove_insts (s : State) (st : DupSt) : (dupMove s st).insts = s.insts := by unfold dupMove; split <;> simp
@[simp] theorem dupMove_time (s : State) (st : DupSt) : (dupMove s st).time = s.time := by unfold dupMove; split <;> simp
@[simp] theorem dupMove_crp (s : State) (st : DupSt) : (dupMove s st).crp = s.crp := by unfold dupMove; split <;> simp
@[simp] theorem dupMove_aud (s : State) (st : DupSt) : (dupMove s st).aud = s.aud := by unfold dupMove; split <;> simp
@[simp] theorem dupMove_free (s : State) (st : DupSt) : (dupMove s st).free = s.free := by unfold dupMove; split <;> simp
@[simp] theorem dupMove_pending (s : State) (st : DupSt) : (dupMove s st).pending = s.pending := by unfold dupMove; split <;> simp
@[simp] theorem dupMove_ctx (s : State) (st : DupSt) (m : Nat) : (dupMove s st).ctx m = s.ctx m := by
  simp [State.ctx]
@[simp] theorem dupMove_pair (s : State) (st : DupSt) (m : Nat) : (dupMove s st).pair m = s.pair m := by
  simp [State.pair]
@[simp] theorem dupMove_mb (s : State) (st : DupSt) (m : Nat) : (dupMove s st).mb m = s.mb m := by
  simp [State.mb]
@[simp] theorem dupMove_port (s : State) (st : DupSt) (m : Nat) : (dupMove s st).port m = s.port m := by
  simp [State.port]
@[simp] theorem dupMove_zip (s : State) (st : DupSt) (m : Nat) : (dupMove s st).zip m = s.zip m := by
  simp [State.zip]
@[simp] theorem dupMove_inst (s : State) (st : DupSt) (m : Nat) : (dupMove s st).inst m = s.inst m := by
  simp [State.inst]
@[simp] theorem dupMove_sens (s : State) (st : DupSt) (m : Nat) : (dupMove s st).sens m = s.sens m := by
  simp [State.sens]
@[simp] theorem dupMove_pctl (s : State) (st : DupSt) (m : Nat) : (dupMove s st).pctl m = s.pctl m := by
  simp [State.pctl]
@[simp] theorem dupMove_chst (s : State) (st : DupSt) (m : Nat) : (dupMove s st).chst m = s.chst m := by
  simp [State.chst]
@[simp] theorem dupMove_live (s : State) (st : DupSt) : (dupMove s st).live = s.live := by
  unfold State.live; rw [dupMove_crp]
@[simp] theorem dupMove_tod (s : State) (st : DupSt) : (dupMove s st).tod = s.tod := by
  simp [State.tod]
@[simp] theorem dupMove_owner (s : State) (st : DupSt) (m : Nat) : (dupMove s st).owner m = s.owner m := by
  simp [State.owner]
@[simp] theorem dupMove_inningsOf (s : State) (st : DupSt) (m : Nat) : (dupMove s st).inningsOf m = s.inningsOf m := by
  simp [State.inningsOf, State.inst]
@[simp] theorem dupMove_inMemory (s : State) (st : DupSt) (at' len : Nat) : (dupMove s st).inMemory at' len = s.inMemory at' len := by
  unfold State.inMemory State.usable; rw [dupMove_memc]

/-! ### movePair -/

@[simp] theorem movePair_ctxs (s : State) (p : Nat) (st : PairSt) : (movePair s p st).ctxs = s.ctxs := by unfold movePair; split <;> simp
@[simp] theorem movePair_caches (s : State) (p : Nat) (st : PairSt) : (movePair s p st).caches = s.caches := by unfold movePair; split <;> simp
@[simp] theorem movePair_memc (s : State) (p : Nat) (st : PairSt) : (movePair s p st).memc = s.memc := by unfold movePair; split <;> simp
@[simp] theorem movePair_mem (s : State) (p : Nat) (st : PairSt) : (movePair s p st).mem = s.mem := by unfold movePair; split <;> simp
@[simp] theorem movePair_mbs (s : State) (p : Nat) (st : PairSt) : (movePair s p st).mbs = s.mbs := by unfold movePair; split <;> simp
@[simp] theorem movePair_sp (s : State) (p : Nat) (st : PairSt) : (movePair s p st).sp = s.sp := by unfold movePair; split <;> simp
@[simp] theorem movePair_fcr (s : State) (p : Nat) (st : PairSt) : (movePair s p st).fcr = s.fcr := by unfold movePair; split <;> simp
@[simp] theorem movePair_chan (s : State) (p : Nat) (st : PairSt) : (movePair s p st).chan = s.chan := by unfold movePair; split <;> simp
@[simp] theorem movePair_ports (s : State) (p : Nat) (st : PairSt) : (movePair s p st).ports = s.ports := by unfold movePair; split <;> simp
@[simp] theorem movePair_zips (s : State) (p : Nat) (st : PairSt) : (movePair s p st).zips = s.zips := by unfold movePair; split <;> simp
@[simp] theorem movePair_zctx (s : State) (p : Nat) (st : PairSt) : (movePair s p st).zctx = s.zctx := by unfold movePair; split <;> simp
@[simp] theorem movePair_ciph (s : State) (p : Nat) (st : PairSt) : (movePair s p st).ciph = s.ciph := by unfold movePair; split <;> simp
@[simp] theorem movePair_insts (s : State) (p : Nat) (st : PairSt) : (movePair s p st).insts = s.insts := by unfold movePair; split <;> simp
@[simp] theorem movePair_dup (s : State) (p : Nat) (st : PairSt) : (movePair s p st).dup = s.dup := by unfold movePair; split <;> simp
@[simp] theorem movePair_time (s : State) (p : Nat) (st : PairSt) : (movePair s p st).time = s.time := by unfold movePair; split <;> simp
@[simp] theorem movePair_crp (s : State) (p : Nat) (st : PairSt) : (movePair s p st).crp = s.crp := by unfold movePair; split <;> simp
@[simp] theorem movePair_aud (s : State) (p : Nat) (st : PairSt) : (movePair s p st).aud = s.aud := by unfold movePair; split <;> simp
@[simp] theorem movePair_free (s : State) (p : Nat) (st : PairSt) : (movePair s p st).free = s.free := by unfold movePair; split <;> simp
@[simp] theorem movePair_pending (s : State) (p : Nat) (st : PairSt) : (movePair s p st).pending = s.pending := by unfold movePair; split <;> simp
@[simp] theorem movePair_ctx (s : State) (p : Nat) (st : PairSt) (m : Nat) : (movePair s p st).ctx m = s.ctx m := by
  simp [State.ctx]
@[simp] theorem movePair_mb (s : State) (p : Nat) (st : PairSt) (m : Nat) : (movePair s p st).mb m = s.mb m := by
  simp [State.mb]
@[simp] theorem movePair_port (s : State) (p : Nat) (st : PairSt) (m : Nat) : (movePair s p st).port m = s.port m := by
  simp [State.port]
@[simp] theorem movePair_zip (s : State) (p : Nat) (st : PairSt) (m : Nat) : (movePair s p st).zip m = s.zip m := by
  simp [State.zip]
@[simp] theorem movePair_inst (s : State) (p : Nat) (st : PairSt) (m : Nat) : (movePair s p st).inst m = s.inst m := by
  simp [State.inst]
@[simp] theorem movePair_jour (s : State) (p : Nat) (st : PairSt) (m : Nat) : (movePair s p st).jour m = s.jour m := by
  simp [State.jour]
@[simp] theorem movePair_sens (s : State) (p : Nat) (st : PairSt) (m : Nat) : (movePair s p st).sens m = s.sens m := by
  simp [State.sens]
@[simp] theorem movePair_pctl (s : State) (p : Nat) (st : PairSt) (m : Nat) : (movePair s p st).pctl m = s.pctl m := by
  simp [State.pctl]
@[simp] theorem movePair_chst (s : State) (p : Nat) (st : PairSt) (m : Nat) : (movePair s p st).chst m = s.chst m := by
  simp [State.chst]
@[simp] theorem movePair_live (s : State) (p : Nat) (st : PairSt) : (movePair s p st).live = s.live := by
  unfold State.live; rw [movePair_crp]
@[simp] theorem movePair_tod (s : State) (p : Nat) (st : PairSt) : (movePair s p st).tod = s.tod := by
  simp [State.tod]
@[simp] theorem movePair_owner (s : State) (p : Nat) (st : PairSt) (m : Nat) : (movePair s p st).owner m = s.owner m := by
  simp [State.owner]
@[simp] theorem movePair_inningsOf (s : State) (p : Nat) (st : PairSt) (m : Nat) : (movePair s p st).inningsOf m = s.inningsOf m := by
  simp [State.inningsOf, State.inst]
@[simp] theorem movePair_inMemory (s : State) (p : Nat) (st : PairSt) (at' len : Nat) : (movePair s p st).inMemory at' len = s.inMemory at' len := by
  unfold State.inMemory State.usable; rw [movePair_memc]

/-! ### measure -/

@[simp] theorem measure_ctxs (s : State) (a b c : Nat) (l : List Byte) : (measure s a b c l).ctxs = s.ctxs := rfl
@[simp] theorem measure_pairs (s : State) (a b c : Nat) (l : List Byte) : (measure s a b c l).pairs = s.pairs := rfl
@[simp] theorem measure_caches (s : State) (a b c : Nat) (l : List Byte) : (measure s a b c l).caches = s.caches := rfl
@[simp] theorem measure_memc (s : State) (a b c : Nat) (l : List Byte) : (measure s a b c l).memc = s.memc := rfl
@[simp] theorem measure_mem (s : State) (a b c : Nat) (l : List Byte) : (measure s a b c l).mem = s.mem := rfl
@[simp] theorem measure_bus (s : State) (a b c : Nat) (l : List Byte) : (measure s a b c l).bus = s.bus := rfl
@[simp] theorem measure_mbs (s : State) (a b c : Nat) (l : List Byte) : (measure s a b c l).mbs = s.mbs := rfl
@[simp] theorem measure_sp (s : State) (a b c : Nat) (l : List Byte) : (measure s a b c l).sp = s.sp := rfl
@[simp] theorem measure_ert (s : State) (a b c : Nat) (l : List Byte) : (measure s a b c l).ert = s.ert := rfl
@[simp] theorem measure_fcr (s : State) (a b c : Nat) (l : List Byte) : (measure s a b c l).fcr = s.fcr := rfl
@[simp] theorem measure_chan (s : State) (a b c : Nat) (l : List Byte) : (measure s a b c l).chan = s.chan := rfl
@[simp] theorem measure_ports (s : State) (a b c : Nat) (l : List Byte) : (measure s a b c l).ports = s.ports := rfl
@[simp] theorem measure_zips (s : State) (a b c : Nat) (l : List Byte) : (measure s a b c l).zips = s.zips := rfl
@[simp] theorem measure_zctx (s : State) (a b c : Nat) (l : List Byte) : (measure s a b c l).zctx = s.zctx := rfl
@[simp] theorem measure_ciph (s : State) (a b c : Nat) (l : List Byte) : (measure s a b c l).ciph = s.ciph := rfl
@[simp] theorem measure_insts (s : State) (a b c : Nat) (l : List Byte) : (measure s a b c l).insts = s.insts := rfl
@[simp] theorem measure_dup (s : State) (a b c : Nat) (l : List Byte) : (measure s a b c l).dup = s.dup := rfl
@[simp] theorem measure_time (s : State) (a b c : Nat) (l : List Byte) : (measure s a b c l).time = s.time := rfl
@[simp] theorem measure_crp (s : State) (a b c : Nat) (l : List Byte) : (measure s a b c l).crp = s.crp := rfl
@[simp] theorem measure_free (s : State) (a b c : Nat) (l : List Byte) : (measure s a b c l).free = s.free := rfl
@[simp] theorem measure_pending (s : State) (a b c : Nat) (l : List Byte) : (measure s a b c l).pending = s.pending := rfl
@[simp] theorem measure_ctx (s : State) (a b c : Nat) (l : List Byte) (m : Nat) : (measure s a b c l).ctx m = s.ctx m := by
  simp [State.ctx]
@[simp] theorem measure_pair (s : State) (a b c : Nat) (l : List Byte) (m : Nat) : (measure s a b c l).pair m = s.pair m := by
  simp [State.pair]
@[simp] theorem measure_mb (s : State) (a b c : Nat) (l : List Byte) (m : Nat) : (measure s a b c l).mb m = s.mb m := by
  simp [State.mb]
@[simp] theorem measure_port (s : State) (a b c : Nat) (l : List Byte) (m : Nat) : (measure s a b c l).port m = s.port m := by
  simp [State.port]
@[simp] theorem measure_zip (s : State) (a b c : Nat) (l : List Byte) (m : Nat) : (measure s a b c l).zip m = s.zip m := by
  simp [State.zip]
@[simp] theorem measure_inst (s : State) (a b c : Nat) (l : List Byte) (m : Nat) : (measure s a b c l).inst m = s.inst m := by
  simp [State.inst]
@[simp] theorem measure_jour (s : State) (a b c : Nat) (l : List Byte) (m : Nat) : (measure s a b c l).jour m = s.jour m := by
  simp [State.jour]
@[simp] theorem measure_sens (s : State) (a b c : Nat) (l : List Byte) (m : Nat) : (measure s a b c l).sens m = s.sens m := by
  simp [State.sens]
@[simp] theorem measure_pctl (s : State) (a b c : Nat) (l : List Byte) (m : Nat) : (measure s a b c l).pctl m = s.pctl m := by
  simp [State.pctl]
@[simp] theorem measure_chst (s : State) (a b c : Nat) (l : List Byte) (m : Nat) : (measure s a b c l).chst m = s.chst m := by
  simp [State.chst]
@[simp] theorem measure_live (s : State) (a b c : Nat) (l : List Byte) : (measure s a b c l).live = s.live := by
  unfold State.live; rw [measure_crp]
@[simp] theorem measure_tod (s : State) (a b c : Nat) (l : List Byte) : (measure s a b c l).tod = s.tod := by
  simp [State.tod]
@[simp] theorem measure_owner (s : State) (a b c : Nat) (l : List Byte) (m : Nat) : (measure s a b c l).owner m = s.owner m := by
  simp [State.owner]
@[simp] theorem measure_inningsOf (s : State) (a b c : Nat) (l : List Byte) (m : Nat) : (measure s a b c l).inningsOf m = s.inningsOf m := by
  simp [State.inningsOf, State.inst]
@[simp] theorem measure_inMemory (s : State) (a b c : Nat) (l : List Byte) (at' len : Nat) : (measure s a b c l).inMemory at' len = s.inMemory at' len := by
  unfold State.inMemory State.usable; rw [measure_memc]

/-! ### queueOut -/

@[simp] theorem queueOut_ctxs (s : State) (n : Nat) (o : OutMsg) : (queueOut s n o).ctxs = s.ctxs := rfl
@[simp] theorem queueOut_pairs (s : State) (n : Nat) (o : OutMsg) : (queueOut s n o).pairs = s.pairs := rfl
@[simp] theorem queueOut_caches (s : State) (n : Nat) (o : OutMsg) : (queueOut s n o).caches = s.caches := rfl
@[simp] theorem queueOut_memc (s : State) (n : Nat) (o : OutMsg) : (queueOut s n o).memc = s.memc := rfl
@[simp] theorem queueOut_mem (s : State) (n : Nat) (o : OutMsg) : (queueOut s n o).mem = s.mem := rfl
@[simp] theorem queueOut_bus (s : State) (n : Nat) (o : OutMsg) : (queueOut s n o).bus = s.bus := rfl
@[simp] theorem queueOut_mbs (s : State) (n : Nat) (o : OutMsg) : (queueOut s n o).mbs = s.mbs := rfl
@[simp] theorem queueOut_sp (s : State) (n : Nat) (o : OutMsg) : (queueOut s n o).sp = s.sp := rfl
@[simp] theorem queueOut_ert (s : State) (n : Nat) (o : OutMsg) : (queueOut s n o).ert = s.ert := rfl
@[simp] theorem queueOut_fcr (s : State) (n : Nat) (o : OutMsg) : (queueOut s n o).fcr = s.fcr := rfl
@[simp] theorem queueOut_chan (s : State) (n : Nat) (o : OutMsg) : (queueOut s n o).chan = s.chan := rfl
@[simp] theorem queueOut_zips (s : State) (n : Nat) (o : OutMsg) : (queueOut s n o).zips = s.zips := rfl
@[simp] theorem queueOut_zctx (s : State) (n : Nat) (o : OutMsg) : (queueOut s n o).zctx = s.zctx := rfl
@[simp] theorem queueOut_ciph (s : State) (n : Nat) (o : OutMsg) : (queueOut s n o).ciph = s.ciph := rfl
@[simp] theorem queueOut_insts (s : State) (n : Nat) (o : OutMsg) : (queueOut s n o).insts = s.insts := rfl
@[simp] theorem queueOut_dup (s : State) (n : Nat) (o : OutMsg) : (queueOut s n o).dup = s.dup := rfl
@[simp] theorem queueOut_time (s : State) (n : Nat) (o : OutMsg) : (queueOut s n o).time = s.time := rfl
@[simp] theorem queueOut_crp (s : State) (n : Nat) (o : OutMsg) : (queueOut s n o).crp = s.crp := rfl
@[simp] theorem queueOut_aud (s : State) (n : Nat) (o : OutMsg) : (queueOut s n o).aud = s.aud := rfl
@[simp] theorem queueOut_free (s : State) (n : Nat) (o : OutMsg) : (queueOut s n o).free = s.free := rfl
@[simp] theorem queueOut_pending (s : State) (n : Nat) (o : OutMsg) : (queueOut s n o).pending = s.pending := rfl
@[simp] theorem queueOut_ctx (s : State) (n : Nat) (o : OutMsg) (m : Nat) : (queueOut s n o).ctx m = s.ctx m := by
  simp [State.ctx]
@[simp] theorem queueOut_pair (s : State) (n : Nat) (o : OutMsg) (m : Nat) : (queueOut s n o).pair m = s.pair m := by
  simp [State.pair]
@[simp] theorem queueOut_mb (s : State) (n : Nat) (o : OutMsg) (m : Nat) : (queueOut s n o).mb m = s.mb m := by
  simp [State.mb]
@[simp] theorem queueOut_zip (s : State) (n : Nat) (o : OutMsg) (m : Nat) : (queueOut s n o).zip m = s.zip m := by
  simp [State.zip]
@[simp] theorem queueOut_inst (s : State) (n : Nat) (o : OutMsg) (m : Nat) : (queueOut s n o).inst m = s.inst m := by
  simp [State.inst]
@[simp] theorem queueOut_jour (s : State) (n : Nat) (o : OutMsg) (m : Nat) : (queueOut s n o).jour m = s.jour m := by
  simp [State.jour]
@[simp] theorem queueOut_sens (s : State) (n : Nat) (o : OutMsg) (m : Nat) : (queueOut s n o).sens m = s.sens m := by
  simp [State.sens]
@[simp] theorem queueOut_pctl (s : State) (n : Nat) (o : OutMsg) (m : Nat) : (queueOut s n o).pctl m = s.pctl m := by
  simp [State.pctl]
@[simp] theorem queueOut_chst (s : State) (n : Nat) (o : OutMsg) (m : Nat) : (queueOut s n o).chst m = s.chst m := by
  simp [State.chst]
@[simp] theorem queueOut_live (s : State) (n : Nat) (o : OutMsg) : (queueOut s n o).live = s.live := by
  unfold State.live; rw [queueOut_crp]
@[simp] theorem queueOut_tod (s : State) (n : Nat) (o : OutMsg) : (queueOut s n o).tod = s.tod := by
  simp [State.tod]
@[simp] theorem queueOut_owner (s : State) (n : Nat) (o : OutMsg) (m : Nat) : (queueOut s n o).owner m = s.owner m := by
  simp [State.owner]
@[simp] theorem queueOut_inningsOf (s : State) (n : Nat) (o : OutMsg) (m : Nat) : (queueOut s n o).inningsOf m = s.inningsOf m := by
  simp [State.inningsOf, State.inst]
@[simp] theorem queueOut_inMemory (s : State) (n : Nat) (o : OutMsg) (at' len : Nat) : (queueOut s n o).inMemory at' len = s.inMemory at' len := by
  unfold State.inMemory State.usable; rw [queueOut_memc]

/-! ### setSend -/

@[simp] theorem setSend_ctxs (s : State) (o : SendOp) : (setSend s o).ctxs = s.ctxs := rfl
@[simp] theorem setSend_pairs (s : State) (o : SendOp) : (setSend s o).pairs = s.pairs := rfl
@[simp] theorem setSend_caches (s : State) (o : SendOp) : (setSend s o).caches = s.caches := rfl
@[simp] theorem setSend_memc (s : State) (o : SendOp) : (setSend s o).memc = s.memc := rfl
@[simp] theorem setSend_mem (s : State) (o : SendOp) : (setSend s o).mem = s.mem := rfl
@[simp] theorem setSend_bus (s : State) (o : SendOp) : (setSend s o).bus = s.bus := rfl
@[simp] theorem setSend_mbs (s : State) (o : SendOp) : (setSend s o).mbs = s.mbs := rfl
@[simp] theorem setSend_sp (s : State) (o : SendOp) : (setSend s o).sp = s.sp := rfl
@[simp] theorem setSend_ert (s : State) (o : SendOp) : (setSend s o).ert = s.ert := rfl
@[simp] theorem setSend_fcr (s : State) (o : SendOp) : (setSend s o).fcr = s.fcr := rfl
@[simp] theorem setSend_ports (s : State) (o : SendOp) : (setSend s o).ports = s.ports := rfl
@[simp] theorem setSend_zips (s : State) (o : SendOp) : (setSend s o).zips = s.zips := rfl
@[simp] theorem setSend_zctx (s : State) (o : SendOp) : (setSend s o).zctx = s.zctx := rfl
@[simp] theorem setSend_ciph (s : State) (o : SendOp) : (setSend s o).ciph = s.ciph := rfl
@[simp] theorem setSend_insts (s : State) (o : SendOp) : (setSend s o).insts = s.insts := rfl
@[simp] theorem setSend_dup (s : State) (o : SendOp) : (setSend s o).dup = s.dup := rfl
@[simp] theorem setSend_time (s : State) (o : SendOp) : (setSend s o).time = s.time := rfl
@[simp] theorem setSend_crp (s : State) (o : SendOp) : (setSend s o).crp = s.crp := rfl
@[simp] theorem setSend_aud (s : State) (o : SendOp) : (setSend s o).aud = s.aud := rfl
@[simp] theorem setSend_free (s : State) (o : SendOp) : (setSend s o).free = s.free := rfl
@[simp] theorem setSend_pending (s : State) (o : SendOp) : (setSend s o).pending = s.pending := rfl
@[simp] theorem setSend_ctx (s : State) (o : SendOp) (m : Nat) : (setSend s o).ctx m = s.ctx m := by
  simp [State.ctx]
@[simp] theorem setSend_pair (s : State) (o : SendOp) (m : Nat) : (setSend s o).pair m = s.pair m := by
  simp [State.pair]
@[simp] theorem setSend_mb (s : State) (o : SendOp) (m : Nat) : (setSend s o).mb m = s.mb m := by
  simp [State.mb]
@[simp] theorem setSend_port (s : State) (o : SendOp) (m : Nat) : (setSend s o).port m = s.port m := by
  simp [State.port]
@[simp] theorem setSend_zip (s : State) (o : SendOp) (m : Nat) : (setSend s o).zip m = s.zip m := by
  simp [State.zip]
@[simp] theorem setSend_inst (s : State) (o : SendOp) (m : Nat) : (setSend s o).inst m = s.inst m := by
  simp [State.inst]
@[simp] theorem setSend_sens (s : State) (o : SendOp) (m : Nat) : (setSend s o).sens m = s.sens m := by
  simp [State.sens]
@[simp] theorem setSend_pctl (s : State) (o : SendOp) (m : Nat) : (setSend s o).pctl m = s.pctl m := by
  simp [State.pctl]
@[simp] theorem setSend_chst (s : State) (o : SendOp) (m : Nat) : (setSend s o).chst m = s.chst m := by
  simp [State.chst]
@[simp] theorem setSend_live (s : State) (o : SendOp) : (setSend s o).live = s.live := by
  unfold State.live; rw [setSend_crp]
@[simp] theorem setSend_tod (s : State) (o : SendOp) : (setSend s o).tod = s.tod := by
  simp [State.tod]
@[simp] theorem setSend_owner (s : State) (o : SendOp) (m : Nat) : (setSend s o).owner m = s.owner m := by
  simp [State.owner]
@[simp] theorem setSend_inningsOf (s : State) (o : SendOp) (m : Nat) : (setSend s o).inningsOf m = s.inningsOf m := by
  simp [State.inningsOf, State.inst]
@[simp] theorem setSend_inMemory (s : State) (o : SendOp) (at' len : Nat) : (setSend s o).inMemory at' len = s.inMemory at' len := by
  unfold State.inMemory State.usable; rw [setSend_memc]

/-! ## What they change -/

@[simp] theorem mbMove_mb_self (s : State) (n : Nat) (x : Mailbox) (st : MbSt) (k : Nat) :
    (mbMove s n x st k).mb n = { x with st := st, code := BitVec.ofNat 8 k } := by
  unfold mbMove; dsimp only; split <;> simp
theorem mbMove_mb_other (s : State) (n m : Nat) (x : Mailbox) (st : MbSt) (k : Nat) (h : m ≠ n) :
    (mbMove s n x st k).mb m = s.mb m := by
  unfold mbMove; dsimp only; split <;> simp [State.mb_setMb_other, h]
@[simp] theorem mbDone_mb_self (s : State) (n k : Nat) (l : List Word) :
    (mbDone s n k l).mb n = { s.mb n with res := mkRes (s.mb n) false l, st := .done, code := BitVec.ofNat 8 k } := by
  simp [mbDone]
@[simp] theorem mbFail_mb_self (s : State) (n k : Nat) (l : List Word) :
    (mbFail s n k l).mb n = { s.mb n with res := mkRes (s.mb n) false l, st := .failed, code := BitVec.ofNat 8 k } := by
  simp [mbFail]
@[simp] theorem mbPartial_mb_self (s : State) (n : Nat) (b : Bool) (l : List Word) :
    (mbPartial s n b l).mb n =
      { s.mb n with res := mkRes (s.mb n) b l, chunk := false, st := .partialSt, code := 0#8 } := by
  simp [mbPartial]
@[simp] theorem mbProgress_mb_self (s : State) (n v : Nat) :
    (mbProgress s n v).mb n =
      { s.mb n with progress := if (s.mb n).progress.toNat ≤ v then BitVec.ofNat 32 v else (s.mb n).progress } := by
  simp [mbProgress]
theorem mbDone_mb_other (s : State) (n m k : Nat) (l : List Word) (h : m ≠ n) : (mbDone s n k l).mb m = s.mb m := by
  simp [mbDone, mbMove_mb_other, h]
theorem mbFail_mb_other (s : State) (n m k : Nat) (l : List Word) (h : m ≠ n) : (mbFail s n k l).mb m = s.mb m := by
  simp [mbFail, mbMove_mb_other, h]
theorem mbProgress_mb_other (s : State) (n m v : Nat) (h : m ≠ n) : (mbProgress s n v).mb m = s.mb m := by
  simp [mbProgress, State.mb_setMb_other, h]
@[simp] theorem setCh_chst_self (s : State) (n : Nat) (c : ChSt) : (setCh s n c).chst n = c := by
  unfold setCh
  split
  · assumption
  · simp [State.chst]
@[simp] theorem dupMove_st (s : State) (st : DupSt) : (dupMove s st).dup = { s.dup with st := st } := by
  unfold dupMove; split <;> simp
theorem movePair_pair_self (s : State) (p : Nat) (st : PairSt) : (movePair s p st).pair p = { s.pair p with st := st } := by
  unfold movePair
  split
  · rename_i h; simp [← h]
  · simp
theorem movePair_pair_other (s : State) (p m : Nat) (st : PairSt) (h : m ≠ p) : (movePair s p st).pair m = s.pair m := by
  unfold movePair; split <;> simp [State.pair_setPair_other, h]

end Sys2Proof.Machine
end

