-- ==== Sys2Proof/Laws/Memory.lean ====
section
/-! SUPPORT. The laws of physical memory: a read after a write, and the canonical form that every operation keeps. -/
namespace Sys2Proof.Machine

@[simp] theorem Memory.read_nil (a : Nat) : Memory.read [] a = Memory.blank := rfl

/-- Memory that lists only addresses above a reads blank at a. -/
theorem Memory.read_above (m : List Host.Cell) (a : Nat) (h : ∀ p ∈ m, a < p.1) : Memory.read m a = Memory.blank := by
  induction m with
  | nil => rfl
  | cons p r ih =>
    obtain ⟨j, v⟩ := p
    have hj : a < j := h (j, v) (by simp)
    have hn : ¬ j = a := by omega
    simp only [Memory.read, if_neg hn]
    exact ih fun q hq => h q (by simp [hq])

/-- A write leaves every other byte. -/
theorem Memory.read_write_other (m : List Host.Cell) (a x : Nat) (b : Byte) (h : x ≠ a) :
    Memory.read (Memory.write m a b) x = Memory.read m x := by
  have h' : ¬ a = x := fun e => h e.symm
  induction m with
  | nil => unfold Memory.write; split <;> simp [Memory.read, h']
  | cons p r ih =>
    obtain ⟨j, v⟩ := p
    unfold Memory.write
    by_cases e : j = a
    · subst e
      simp only [if_true]
      split <;> simp [Memory.read, h']
    · simp only [if_neg e]
      split
      · split <;> simp [Memory.read, h']
      · simp [Memory.read, ih]

/-- Addresses listed after a write were listed before, or are the one written. -/
theorem Memory.mem_write (m : List Host.Cell) (a : Nat) (b : Byte) (p : Host.Cell) (h : p ∈ Memory.write m a b) :
    p ∈ m ∨ (p = (a, b) ∧ b ≠ Memory.blank) := by
  induction m with
  | nil =>
    unfold Memory.write at h
    split at h <;> simp_all
  | cons q r ih =>
    obtain ⟨j, v⟩ := q
    unfold Memory.write at h
    split at h
    · split at h
      · exact Or.inl (List.mem_cons_of_mem _ h)
      · rename_i hb
        rcases List.mem_cons.mp h with g | g
        · exact Or.inr ⟨g, hb⟩
        · exact Or.inl (List.mem_cons_of_mem _ g)
    · split at h
      · split at h
        · exact Or.inl h
        · rename_i hb
          rcases List.mem_cons.mp h with g | g
          · exact Or.inr ⟨g, hb⟩
          · exact Or.inl g
      · simp only [List.mem_cons] at h ⊢
        rcases h with h | h
        · exact Or.inl (Or.inl h)
        · rcases ih h with g | g
          · exact Or.inl (Or.inr g)
          · exact Or.inr g

/-- A write keeps the canonical form. -/
theorem Memory.wf_write (m : List Host.Cell) (a : Nat) (b : Byte) (h : Memory.wf m) : Memory.wf (Memory.write m a b) := by
  refine ⟨?_, fun p hp => ?_⟩
  · induction m with
    | nil => unfold Memory.write; split <;> simp
    | cons q r ih =>
      obtain ⟨j, v⟩ := q
      obtain ⟨hs, hb⟩ := h
      rw [List.pairwise_cons] at hs
      have hr : Memory.wf r := ⟨hs.2, fun p hp => hb p (by simp [hp])⟩
      unfold Memory.write
      split
      · rename_i e
        subst e
        split
        · exact hs.2
        · exact List.pairwise_cons.mpr ⟨fun p hp => hs.1 p hp, hs.2⟩
      · split
        · rename_i hlt
          split
          · exact List.pairwise_cons.mpr hs
          · refine List.pairwise_cons.mpr ⟨fun p hp => ?_, List.pairwise_cons.mpr hs⟩
            rcases List.mem_cons.mp hp with rfl | hp
            · exact hlt
            · exact Nat.lt_trans hlt (hs.1 p hp)
        · refine List.pairwise_cons.mpr ⟨fun p hp => ?_, ih hr⟩
          rcases Memory.mem_write r a b p hp with g | ⟨rfl, -⟩
          · exact hs.1 p g
          · show j < a
            omega
  · rcases Memory.mem_write m a b p hp with g | ⟨rfl, hb⟩
    · exact h.2 p g
    · exact hb

/-- A read after a write to the same place gives the value written. -/
theorem Memory.read_write_self (m : List Host.Cell) (a : Nat) (b : Byte) (h : Memory.wf m) :
    Memory.read (Memory.write m a b) a = b := by
  induction m with
  | nil => unfold Memory.write; split <;> simp_all [Memory.read]
  | cons q r ih =>
    obtain ⟨j, v⟩ := q
    obtain ⟨hs, hb⟩ := h
    rw [List.pairwise_cons] at hs
    unfold Memory.write
    split
    · rename_i e
      subst e
      split
      · rename_i e
        rw [e]
        exact Memory.read_above r j fun p hp => hs.1 p hp
      · simp [Memory.read]
    · rename_i e
      split
      · rename_i hlt
        split
        · rename_i e
          rw [e]
          refine Memory.read_above _ a fun p hp => ?_
          rcases List.mem_cons.mp hp with rfl | hp
          · exact hlt
          · exact Nat.lt_trans hlt (hs.1 p hp)
        · simp [Memory.read]
      · simp only [Memory.read, if_neg e]
        exact ih ⟨hs.2, fun p hp => hb p (by simp [hp])⟩

@[simp] theorem Memory.writes_nil (m : List Host.Cell) (a : Nat) : Memory.writes m a [] = m := rfl

/-- Bytes written leave every byte outside them. -/
theorem Memory.read_writes_other (l : List Byte) (m : List Host.Cell) (a x : Nat) (h : x < a ∨ a + l.length ≤ x) :
    Memory.read (Memory.writes m a l) x = Memory.read m x := by
  induction l generalizing m a with
  | nil => rfl
  | cons b r ih =>
    simp only [List.length_cons] at h
    rw [Memory.writes, ih (Memory.write m a b) (a + 1) (by omega), Memory.read_write_other m a x b (by omega)]

/-- Writing bytes keeps the canonical form. -/
theorem Memory.wf_writes (l : List Byte) (m : List Host.Cell) (a : Nat) (h : Memory.wf m) :
    Memory.wf (Memory.writes m a l) := by
  induction l generalizing m a with
  | nil => exact h
  | cons b r ih => exact ih (Memory.write m a b) (a + 1) (Memory.wf_write m a b h)

/-- Bytes written are read back. -/
theorem Memory.bytes_writes (l : List Byte) (m : List Host.Cell) (a : Nat) (h : Memory.wf m) :
    Memory.bytes (Memory.writes m a l) a l.length = l := by
  induction l generalizing m a with
  | nil => rfl
  | cons b r ih =>
    have hw := Memory.wf_write m a b h
    simp only [List.length_cons, Memory.bytes, Memory.writes]
    rw [Memory.read_writes_other r _ (a + 1) a (by omega), Memory.read_write_self m a b h, ih _ (a + 1) hw]

@[simp] theorem Memory.bytes_length (m : List Host.Cell) (a n : Nat) : (Memory.bytes m a n).length = n := by
  induction n generalizing a with
  | zero => rfl
  | succ k ih => simp [Memory.bytes, ih]

/-- Two memories that read the same hold the same bytes. -/
theorem Memory.bytes_congr (m k : List Host.Cell) (a n : Nat) (h : ∀ x, a ≤ x → x < a + n → Memory.read m x = Memory.read k x) :
    Memory.bytes m a n = Memory.bytes k a n := by
  induction n generalizing a with
  | zero => rfl
  | succ j ih =>
    simp only [Memory.bytes]
    rw [h a (by omega) (by omega), ih (a + 1) fun x h1 h2 => h x (by omega) (by omega)]

@[simp] theorem leBytes_length (n v : Nat) : (leBytes n v).length = n := by
  induction n generalizing v with
  | zero => rfl
  | succ k ih => simp [leBytes, ih]

/-- Little-endian bytes spell the number that they were made from (R62). -/
theorem leNat_leBytes (n v : Nat) : leNat (leBytes n v) = v % 2 ^ (8 * n) := by
  induction n generalizing v with
  | zero => simp [leBytes, leNat, Nat.mod_one]
  | succ k ih =>
    have h : 2 ^ (8 * (k + 1)) = 256 * 2 ^ (8 * k) := by rw [Nat.mul_add, Nat.pow_add, Nat.mul_comm]
    simp only [leBytes, leNat, ih]
    rw [h, Nat.mod_mul, BitVec.toNat_ofNat]

@[simp] theorem sendRecords_mem (s : State) (l : List MirRec) : (sendRecords s l).mem = s.mem := by
  unfold sendRecords; split <;> rfl

/-- A store writes its bytes; the records that it queues for the partner leave memory alone. -/
@[simp] theorem State.storeIn_mem (s : State) (k : BitVec 2) (a : Nat) (l : List Byte) :
    (s.storeIn k a l).mem = Memory.writes s.mem a l := by
  simp [State.storeIn, mirrorWrites]

@[simp] theorem State.store_mem (s : State) (a : Nat) (l : List Byte) : (s.store a l).mem = Memory.writes s.mem a l :=
  State.storeIn_mem s 2 a l

/-- A store keeps the canonical form. -/
theorem State.store_wf (s : State) (a : Nat) (l : List Byte) (h : Memory.wf s.mem) : Memory.wf (s.store a l).mem := by
  rw [State.store_mem]; exact Memory.wf_writes l s.mem a h

/-- Memory right after reset is in canonical form. -/
theorem reset_memory_wf : Memory.wf State.reset.mem := ⟨List.Pairwise.nil, fun _ h => absurd h (List.not_mem_nil)⟩

end Sys2Proof.Machine
end

