-- ==== Sys2Proof/Laws/Steps.lean ====
section
/-! SUPPORT. How a command ends: acting, settling, control accesses, the take-up of a command of the command set. -/
namespace Sys2Proof.Machine

/-! ## The end of a command -/

/-- A state in which nothing is left to do stays as it is. -/
@[simp] theorem settle_quiet (s : State) (h : quiet s = true) : settle s = s := by simp [settle, h]

/-- While the module runs, a command answers the state it leaves, settled. -/
theorem act_live (s t : State) (h : s.live = true) : act s t = .next (settle t) := by simp [act, h]

/-- A command that leaves nothing to do answers exactly the state it leaves. -/
theorem act_quiet (s t : State) (h : s.live = true) (q : quiet t = true) : act s t = .next t := by
  simp [act, h, settle_quiet t q]

theorem done_quiet (t : State) (q : quiet t = true) : done t = .next t := by simp [done, settle_quiet t q]

/-- Quietness rests on the FCR's queue and the channel. -/
theorem quiet_of (s t : State) (h : quiet s = true) (f : t.fcr = s.fcr) (c : t.chan = s.chan) : quiet t = true := by
  simp only [quiet, chanQuiesced, f, c] at h ⊢
  exact h

/-- The same where the channel changes, but neither its quiesce bit nor its accepted SENDs. -/
theorem quiet_of' (s t : State) (h : quiet s = true) (f : t.fcr = s.fcr) (c : t.chan.quiesce = s.chan.quiesce)
    (d : t.chan.sends.isEmpty = s.chan.sends.isEmpty) : quiet t = true := by
  simp only [quiet, chanQuiesced, f, c, d] at h ⊢
  exact h

/-! ## Control space -/

/-- An access that carries its requester's instance of now is performed as it stands. -/
theorem asIssued_now (s : State) (a : CtlAcc) (f : State → State) (h : a.inst = reqInst s a.req) : asIssued s a f = f s := by
  unfold asIssued
  split
  · rename_i c e
    rw [if_pos]
    rw [h, e, reqInst, State.owner, BitVec.ofNat_toNat, BitVec.setWidth_eq]
  · rfl

/-- A context's or the management link's access issued now, with a credit and none before it, is performed. -/
theorem access_write (s : State) (r : Req) (off w : Nat) (v : Word)
    (h : Issues s r off) :
    access s r true off w v = flushCtl (writeDone (ctlWrite s r off w v) r) := by
  have i : (newAcc s r none true off w v).inst = reqInst s r := by unfold newAcc; cases r <;> rfl
  have k : (newAcc s r none true off w v).innings = s.inningsOf (reqInst s r) := by unfold newAcc; cases r <;> rfl
  have st : (newAcc s r none true off w v).stale s = false := by simp [CtlAcc.stale, i, k]
  have n : accWaits s (newAcc s r none true off w v).req (newAcc s r none true off w v).off = false := by
    simp [accWaits, newAcc, h.credit, h.noneWait]
  unfold access sendAcc
  rw [n, performAcc, st, asIssued_now _ _ _ (by rw [i]; rfl)]
  simp [newAcc]

/-- The JTAG port reaches the audit and debug registers alone (R399). -/
theorem writeDone_of {s : State} {r : Req} {off : Nat} {g : Reg} (h : Reaches s r off g) (a : g.isAud = false)
    (d : g.isDbg = false) (t : State) : writeDone t r = t := by
  cases r with
  | ctx c => rfl
  | mgmt => rfl
  | jtag =>
    exfalso
    have p := h.passes
    unfold ctlCheck at p
    split at p
    · cases p
    · split at p
      · cases p
      · split at p
        · cases p
        · split at p
          · cases p
          · split at p
            · rename_i q
              cases p
              simp [permitted, a, d] at q
            · cases p

/-- With nothing waiting, nothing is sent. -/
@[simp] theorem flushCtl_none (s : State) (e : s.bus.waitCtl = []) : flushCtl s = s := by simp [flushCtl, e, flushAcc]

@[simp] theorem writeDone_bus (s : State) (r : Req) : (writeDone s r).bus = s.bus := by cases r <;> rfl
@[simp] theorem writeDone_fcr (s : State) (r : Req) : (writeDone s r).fcr = s.fcr := by cases r <;> rfl
@[simp] theorem writeDone_chan (s : State) (r : Req) : (writeDone s r).chan = s.chan := by cases r <;> rfl
@[simp] theorem writeDone_ctx (s : State) (c : Fin 32) : writeDone s (.ctx c) = s := rfl
@[simp] theorem writeDone_mgmt (s : State) : writeDone s .mgmt = s := rfl

/-- A command that is one control access writes its register. -/
theorem ctlCmd_reaches (s : State) (r : Req) (off : Nat) (v : Word) (g : Reg) (h : Reaches s r off g)
    (e : (regWrite s r off v g).bus.waitCtl = []) :
    ctlCmd s r off v = .next (settle (writeDone (regWrite s r off v g) r)) := by
  rw [ctlCmd, access_write s r off 8 v h.issues]
  simp [ctlWrite, h.passes, e, act, h.calm.live]

/-- The same where the write leaves nothing to do. -/
theorem ctlCmd_quiet (s : State) (r : Req) (off : Nat) (v : Word) (g : Reg) (h : Reaches s r off g)
    (e : (regWrite s r off v g).bus.waitCtl = []) (q : quiet (regWrite s r off v g) = true) :
    ctlCmd s r off v = .next (writeDone (regWrite s r off v g) r) := by
  rw [ctlCmd_reaches s r off v g h e, settle_quiet]
  simpa [quiet, chanQuiesced] using q

/-! ## The command set -/

/-- A command is taken up. -/
theorem takeUp_of (s : State) (n op : Nat) (x : Mailbox) (t : State) (f : State → Mailbox → State)
    (h : TakesUp s n op x t) : takeUp s n op f = .next (settle (f t x)) := by
  simp [takeUp, act, h.live, h.runs, h.first, h.state, h.box]

/-- The same where the command leaves nothing to do. -/
theorem takeUp_quiet (s : State) (n op : Nat) (x : Mailbox) (t : State) (f : State → Mailbox → State)
    (h : TakesUp s n op x t) (q : quiet (f t x) = true) : takeUp s n op f = .next (f t x) := by
  rw [takeUp_of s n op x t f h, settle_quiet _ q]

end Sys2Proof.Machine
end

