-- ==== Sys2Proof/Laws/Units.lean ====
section
/-! SUPPORT. What a unit does when it starts, in the forms of Sys2Proof/Safety.lean: one lemma per kind of meaning. -/
namespace Sys2Proof.Machine
theorem pre_notRep (u : QUnit) : (QUnit.pre' u).isRep = false := by
  unfold QUnit.pre'; split <;> rfl
theorem pre_notLock (u : QUnit) : (QUnit.pre' u).isLock = false := by
  unfold QUnit.pre'; split <;> rfl

theorem unit_ok {c : Fin 32} {u : QUnit} {op : QOp} {s t z : State} (m : Sem) (h : UnitStarts c u op s t)
    (hm : m.body false (unitCall c u op s) t = .ok z) :
    plain c u op m s = .next (if m.own then ownEnd c z else unitEnd (unitCall c u op s) z) := by
  obtain ⟨w, hw⟩ := Option.isSome_iff_exists.mp h.form
  have hb := h.begins
  have hk : unitCall c u op s = callOf c (QUnit.pre' u) op u.form w s := by simp [unitCall, hw]
  rw [hk] at hb hm ⊢
  have hlen : (callOf c (QUnit.pre' u) op u.form w s).len = 2 * w.length := rfl
  have hcc : (callOf c (QUnit.pre' u) op u.form w s).c = c := rfl
  have hop : (callOf c (QUnit.pre' u) op u.form w s).op = op := rfl
  have hf : (callOf c (QUnit.pre' u) op u.form w s).f = u.form := rfl
  rw [hlen] at hb
  have hmode := h.mode
  have hpred := h.pred
  have hready := h.ready
  simp only [plain, unitOp, hw, unitCmd, hready, h.noHalt, wholeUnit, pre_notRep, hb, unitBody, hop, hf, h.legal, hcc, hmode, hpred, pre_notLock, hm]
  cases m.own <;> simp [ownEnd, unitEnd, retire, hcc, entryRes, Except.map]

theorem unit_trap {c : Fin 32} {u : QUnit} {op : QOp} {s t : State} (m : Sem) (h : UnitStarts c u op s t) {vec d : Nat}
    (hm : m.body false (unitCall c u op s) t = .error (plainTrap vec d)) :
    plain c u op m s = entryRes s ((enter c (trapEntry (s.ctx c) (s.ctx c).pc
        { vec := vec, detail := d, fetch := false, write := false, sw := false, aux := 0 }
        ((unitWords (QUnit.pre' u) op u.form).getD [])) s).map (groupDone c)) := by
  obtain ⟨w, hw⟩ := Option.isSome_iff_exists.mp h.form
  have hb := h.begins
  have hk : unitCall c u op s = callOf c (QUnit.pre' u) op u.form w s := by simp [unitCall, hw]
  rw [hk] at hb hm
  have hlen : (callOf c (QUnit.pre' u) op u.form w s).len = 2 * w.length := rfl
  have hcc : (callOf c (QUnit.pre' u) op u.form w s).c = c := rfl
  have hop : (callOf c (QUnit.pre' u) op u.form w s).op = op := rfl
  have hf : (callOf c (QUnit.pre' u) op u.form w s).f = u.form := rfl
  rw [hlen] at hb
  have hmode := h.mode
  have hpred := h.pred
  have hready := h.ready
  simp only [plain, unitOp, hw, unitCmd, hready, h.noHalt, wholeUnit, pre_notRep, hb, unitBody, hop, hf, h.legal, hcc, hmode, hpred, pre_notLock, hm]
  simp [plainTrap, hw]

theorem regUnit_of {mk op} (eff : Eff) (f : QUnit → Nat → Ctx → Ctx) (hx : ∀ c u s, exec (mk c u) s = plain c u op (.val .none eff) s)
    (he : ∀ (u : QUnit) g x, g.n = operandBytes op u.form → g.lay = layoutOf u.form → eff g x = .ok (f u (8 * operandBytes op u.form) x, none)) : RegUnit mk op f := by
  intro c u s t h
  rw [hx, unit_ok _ h (z := (t.setCtx c (f u (8 * operandBytes op u.form) (t.ctx c))))]
  · rfl
  · simp only [Sem.body, valueBody]
    have : operand (unitCall c u op s) .none false t = .ok (t, [], (match modeOf u.form with | .imm v => low (8 * operandBytes op u.form) v | _ => 0)) := by
      simp only [operand]
      have : (unitCall c u op s).f = u.form := rfl
      rw [this]
      cases modeOf u.form <;> rfl
    rw [this]
    simp only
    rw [he u _ _ rfl rfl]
    rfl

theorem addrUnit_of {mk op} (eff : Eff) (f : Word → Ctx → Ctx) (hx : ∀ c u s, exec (mk c u) s = plain c u op (.val .addr eff) s)
    (he : ∀ g x, eff g x = .ok (f g.ea x, none)) : AddrUnit mk op f := by
  intro c u s t h
  rw [hx, unit_ok _ h (z := (t.setCtx c ((unitCall c u op s).stepped (f ((unitCall c u op s).ea (t.ctx c)) (t.ctx c)))))]
  · rfl
  · simp only [Sem.body, valueBody]
    have : operand (unitCall c u op s) .addr false t = .ok (t, [], (match modeOf u.form with | .imm v => low (8 * operandBytes op u.form) v | _ => 0)) := by
      simp only [operand]
      have : (unitCall c u op s).f = u.form := rfl
      rw [this]
      cases modeOf u.form <;> rfl
    rw [this]
    simp only
    rw [he]
    rfl

theorem readUnit_of {mk op} {ok} (eff : Eff) (f : Form → Nat → Nat → Ctx → Ctx)
    (hx : ∀ c u s, exec (mk c u) s = plain c u op (.val .read eff) s)
    (he : ∀ (u : Form) g x, g.n = operandBytes op u → g.lay = layoutOf u →
      ok u (8 * operandBytes op u) (g.m % 2 ^ (8 * operandBytes op u)) x →
      eff g x = .ok (f u (8 * operandBytes op u) (g.m % 2 ^ (8 * operandBytes op u)) x, none)) : ReadUnit mk op ok f := by
  intro c u s t v l m h ho hok
  rw [hx, unit_ok _ h (z := (v.setCtx c ((unitCall c u op s).stepped (f u.form (8 * operandBytes op u.form) (m % 2 ^ (8 * operandBytes op u.form)) (v.ctx c)))))]
  · rfl
  · simp only [Sem.body, valueBody, ho]
    have hn : operandBytes (unitCall c u op s).op (unitCall c u op s).f = operandBytes op u.form := rfl
    have hl : layoutOf (unitCall c u op s).f = layoutOf u.form := rfl
    have hc : (unitCall c u op s).c = c := rfl
    rw [hn, hl, hc] at *
    simp only [Bool.false_eq_true, if_false]
    rw [he u.form _ _ rfl rfl hok]
    rfl

theorem readTraps_of {mk op use vec bad} (eff : Eff)
    (hx : ∀ c u s, exec (mk c u) s = plain c u op (.val use eff) s)
    (he : ∀ (u : Form) g x, g.n = operandBytes op u → bad u (8 * operandBytes op u) (g.m % 2 ^ (8 * operandBytes op u)) x →
      eff g x = .error vec) : ReadTraps mk op use vec bad := by
  intro c u s t v l m h ho hb
  rw [hx, unit_trap _ h]
  simp only [Sem.body, valueBody, ho]
  have hn : operandBytes (unitCall c u op s).op (unitCall c u op s).f = operandBytes op u.form := rfl
  have hc : (unitCall c u op s).c = c := rfl
  rw [hn, hc] at *
  simp only [Bool.false_eq_true, if_false]
  rw [he u.form _ _ rfl hb]

theorem storeUnit_of {mk op use ok val} (eff : Eff) (f : Form → Nat → Nat → Ctx → Ctx)
    (hx : ∀ c u s, exec (mk c u) s = plain c u op (.val use eff) s) (hu : use ≠ .none)
    (he : ∀ (u : Form) g x, g.n = operandBytes op u → g.lay = layoutOf u →
      ok u (8 * operandBytes op u) (g.m % 2 ^ (8 * operandBytes op u)) x →
      eff g x = .ok (f u (8 * operandBytes op u) (g.m % 2 ^ (8 * operandBytes op u)) x, some (val u (8 * operandBytes op u) x))) :
    StoreUnit mk op use ok val f := by
  intro c u s t v l m z h ho hok hp
  rw [hx, unit_ok _ h (z := z)]
  · rfl
  · simp only [Sem.body, valueBody, ho]
    have hn : operandBytes (unitCall c u op s).op (unitCall c u op s).f = operandBytes op u.form := rfl
    have hl : (unitCall c u op s).f = u.form := rfl
    have hc : (unitCall c u op s).c = c := rfl
    rw [hn, hl, hc] at *
    simp only [Bool.false_eq_true, if_false]
    rw [he u.form _ _ rfl rfl hok]
    simp only [hu, if_false]
    exact hp

theorem sysUnit_of {mk op} (body) (f : Call → State → State) (hx : ∀ c u s, exec (mk c u) s = plain c u op (.sys false body) s)
    (he : ∀ k t, body k t = .ok (f k t)) : SysUnit mk op f := by
  intro c u s t h
  rw [hx, unit_ok _ h (z := f (unitCall c u op s) t)]
  · rfl
  · simp [Sem.body, he]
end Sys2Proof.Machine
end

