-- ==== Sys2Proof/Tests/Slice0.lean ====
section
/-! SUPPORT. Tests: words written out from the encodings, terms that no command is, small steps, and for every statement
states and operands that meet its hypotheses. -/
namespace Sys2Proof.Machine

set_option Elab.async false

/-! ## Checks of hypotheses -/

/-- Calm, as a check. -/
def calmB (s : State) : Bool := s.live && quiet s

theorem calm_of (s : State) (h : calmB s = true) : Calm s := by
  simp only [calmB, Bool.and_eq_true] at h
  exact ⟨h.1, h.2⟩

/-- Issues, as a check. -/
def issuesB (s : State) (r : Req) (off : Nat) : Bool :=
  !noCredit s .controlAccess (reqNumber r) (ctlBlock off) && s.bus.waitCtl.isEmpty

theorem issues_of (s : State) (r : Req) (off : Nat) (h : issuesB s r off = true) : Issues s r off := by
  simp only [issuesB, Bool.and_eq_true, Bool.not_eq_eq_eq_not, Bool.not_true, List.isEmpty_iff] at h
  exact ⟨h.1, h.2⟩

/-- Flows, as a check. -/
def flowsB (s : State) : Bool :=
  s.bus.queues.all (fun q => decide (q.credits ≠ 0)) && s.bus.waitCards.isEmpty && s.bus.waitEvents.isEmpty

theorem flows_of (s : State) (h : flowsB s = true) : Flows s := by
  simp only [flowsB, Bool.and_eq_true, List.all_eq_true, decide_eq_true_eq, List.isEmpty_iff] at h
  exact ⟨h.1.1, h.1.2, h.2⟩

/-- Reaches, as a check. -/
def reachesB (s : State) (r : Req) (off : Nat) (g : Reg) : Bool :=
  calmB s && (issuesB s r off && (match ctlCheck s r true off 8 with
    | .ok k => decide (k = g)
    | .error _ => false))

theorem reaches_of (s : State) (r : Req) (off : Nat) (g : Reg) (h : reachesB s r off g = true) : Reaches s r off g := by
  simp only [reachesB, Bool.and_eq_true] at h
  refine ⟨calm_of s h.1, issues_of s r off h.2.1, ?_⟩
  split at h
  · simp_all
  · simp at h

/-- TakesUp, as a check. -/
def takesUpB (s : State) (n op : Nat) : Bool := s.live && running s n op && decide ((s.mb n).step = 0)

/-- The mailbox of a command that is taken up, and the state. -/
def upBox (s : State) (n : Nat) : Mailbox := { s.mb n with step := 1 }

theorem takesUp_of (s : State) (n op : Nat) (h : takesUpB s n op = true) :
    TakesUp s n op (upBox s n) (s.setMb n (upBox s n)) := by
  simp only [takesUpB, Bool.and_eq_true, decide_eq_true_eq] at h
  exact ⟨h.1.1, h.1.2, h.2, rfl, rfl⟩

/-- UnitStarts, as a check that has the state after the fetch. -/
def startsB (c : Fin 32) (u : QUnit) (op : QOp) (s : State) (p : State → Bool) : Bool :=
  (unitWords (QUnit.pre' u) op u.form).isSome && ready s c && !haltDue s c &&
    decide (encTrap (QUnit.pre' u) op u.form = none) &&
    (match beginUnit c (unitCall c u op s).len false s with
     | .ok t => !(privileged op && decide ((t.ctx c).mode = 0)) && (t.ctx c).pred (predOf (QUnit.pre' u) u.form) && p t
     | .error _ => false)

theorem starts_of (c : Fin 32) (u : QUnit) (op : QOp) (s : State) (p : State → Bool) (h : startsB c u op s p = true) :
    ∃ t, UnitStarts c u op s t ∧ p t = true := by
  simp only [startsB, Bool.and_eq_true, decide_eq_true_eq, Bool.not_eq_eq_eq_not, Bool.not_true] at h
  obtain ⟨⟨⟨⟨h1, h2⟩, h3⟩, h4⟩, h5⟩ := h
  split at h5
  · next t ht =>
    simp only [Bool.and_eq_true, Bool.not_eq_eq_eq_not, Bool.not_true] at h5
    exact ⟨t, ⟨h1, h2, h3, ht, h4, h5.1.1, h5.1.2⟩, h5.2⟩
  · simp at h5

/-- PrefixStarts, as a check that has the state after the fetch and the call. -/
def prefixB (c : Fin 32) (pre : Pre) (op : QOp) (f : Form) (s : State) (p : State → Call → Bool) : Bool :=
  let k := callOf c pre op f ((unitWords pre op f).getD []) s
  (unitWords pre op f).isSome && ready s c && !haltDue s c && decide (encTrap pre op f = none) &&
    (match beginUnit c k.len pre.isRep s with
     | .ok t => !(privileged op && decide ((t.ctx c).mode = 0)) && p t k
     | .error _ => false)

theorem prefix_of (c : Fin 32) (pre : Pre) (op : QOp) (f : Form) (s : State) (p : State → Call → Bool)
    (h : prefixB c pre op f s p = true) : ∃ t k, PrefixStarts c pre op f s t k ∧ p t k = true := by
  simp only [prefixB, Bool.and_eq_true, decide_eq_true_eq, Bool.not_eq_eq_eq_not, Bool.not_true] at h
  obtain ⟨⟨⟨⟨h1, h2⟩, h3⟩, h4⟩, h5⟩ := h
  split at h5
  · next t ht =>
    simp only [Bool.and_eq_true, Bool.not_eq_eq_eq_not, Bool.not_true] at h5
    exact ⟨t, _, ⟨h1, rfl, h2, h3, ht, h4, h5.1⟩, h5.2⟩
  · simp at h5

/-- The operand that a unit reads, W bits of it, meets a condition. -/
def readsB (c : Fin 32) (u : QUnit) (op : QOp) (use : Use) (s : State) (ok : Nat → Nat → Ctx → Bool) : Bool :=
  startsB c u op s fun t =>
    match operand (unitCall c u op s) use false t with
    | .ok (v, _, m) => ok (8 * operandBytes op u.form) (m % 2 ^ (8 * operandBytes op u.form)) (v.ctx c)
    | .error _ => false

/-- The operand that a unit stores to takes the value, as StoreUnit has it. -/
def storesB (c : Fin 32) (u : QUnit) (op : QOp) (use : Use) (s : State) (ok : Nat → Ctx → Bool) (val : Nat → Ctx → Nat)
    (eff : Nat → Nat → Ctx → Ctx) : Bool :=
  startsB c u op s fun t =>
    match operand (unitCall c u op s) use false t with
    | .ok (v, l, m) =>
      let w := 8 * operandBytes op u.form
      ok w (v.ctx c) &&
        (match putSpans c (stackMode (modeOf u.form)) (decide (use = .rmw)) .store ((unitCall c u op s).ea (t.ctx c)).toNat
            (operandBytes op u.form) l (leBytes (operandBytes op u.form) (val w (v.ctx c)))
            (v.setCtx c ((unitCall c u op s).stepped (eff w (m % 2 ^ w) (v.ctx c)))) with
         | .ok _ => true
         | .error _ => false)
    | .error _ => false

/-- A condition on the next state of a command. -/
def after (r : Res) (p : State → Bool) : Bool :=
  match r with
  | .next t => p t
  | _ => false

/-- Every check of a list passes. -/
def checks (l : List Bool) : Bool := l.all id

/-! ## States -/

/-- The module after a boot, in which no context runs. -/
def up : State := { State.reset with crp := { State.reset.crp with boot := .running } }

/-- A context that runs in hypervisor mode. -/
def ctxUp : Ctx := { Ctx.reset with run := .run, fresh := false, pc := 0x1000, sh := 0x8000, a := 7, x := 5, y := 3 }

/-- Context 0 runs. -/
def one : State := up.setCtx 0 ctxUp

/-- Context 0 runs with given registers. -/
def withA (a x : Word) : State := up.setCtx 0 { ctxUp with a := a, x := x }

/-- A unit with an immediate operand of 64 bits. -/
def imm (v : BitVec 15) : QUnit := { pfx := none, form := .long 0 3 15 v }

/-- A unit with an immediate operand of 32 bits. -/
def imm32 (v : BitVec 15) : QUnit := { pfx := none, form := .long 0 2 15 v }

/-- A unit with an operand of 64 bits at an absolute address. -/
def atAddr (v : BitVec 15) : QUnit := { pfx := none, form := .long 0 3 14 v }

/-- A unit with an operand of 64 bits at the address in Y, and its layout field. -/
def atY (o : BitVec 15) : QUnit := { pfx := none, form := .long 0 3 3 o }

/-- A unit of the operation group of a size, with its FUNC and the 8 bits below. -/
def grpUnit (size : BitVec 2) (op : QOp) (low : Nat) : QUnit :=
  { pfx := none, form := .long 0 size 0 (BitVec.ofNat 15 ((funcOf op).getD 0 * 256 + low)) }

/-! ## Encodings, bit by bit -/

/-- The example of R101: REP, then ST of 64 bits through X with post-increment in the short form of R93. -/
theorem test_rep_st : decodeUnit 0xB900#16 0x0E40#16 0#16 = .unit (.rep 0) .st (.short 3 1 0) := by decide

/-- R88: 11 001001 000 11 111 1 and fifteen bits of operand: ADD, SIZE 11b, AM 15. -/
theorem test_add_long : decodeUnit 0b1100100100011111#16 0b1000000000000101#16 0#16 = .unit .none .add (.long 0 3 15 5) := by
  decide

/-- R93, R96: 01000 11 111 000001: SUB short with SAM 7, an immediate of 1. -/
theorem test_sub_short : decodeUnit 0b0100011111000001#16 0#16 0#16 = .unit .none .sub (.short 3 7 1) := by decide

/-- R95: opcode 20h, BR, with AM 13. -/
theorem test_br : decodeUnit 0b1110000000000110#16 0b1000000000010000#16 0#16 = .unit .none .br (.long 0 0 13 16) := by decide

/-- R95: opcode 2Dh, FMA. -/
theorem test_fma : decodeUnit 0b1110110100011111#16 0b1000000000000000#16 0#16 = .unit .none .fma (.long 0 3 15 0) := by decide

/-- R95: opcode 33h, DRND, through Y: DMODE 1, DIGITS 2. -/
theorem test_drnd : decodeUnit 0b1111001100011001#16 0b1001000000000010#16 0#16 = .unit .none .drnd (.long 0 3 3 0x1002) := by
  decide

/-- R99: opcode 3Fh, FUNC 01h, RETI. -/
theorem test_reti : decodeUnit 0b1111111100000000#16 0b0000000100000000#16 0#16 = .unit .none .reti (.long 0 0 0 0x100) := by
  decide

/-- R95: opcode 23h, CINVR of the whole L2 through Y. -/
theorem test_cinvr : decodeUnit 0b1110001100000001#16 0b1010100000000000#16 0#16 = .unit .none .cinvr (.long 0 0 3 0x2800) := by
  decide

/-- R102: opcode 1Fh of the long map and the group's selector 5 are undefined. -/
theorem test_undefined : decodeUnit 0xDF00#16 0#16 0#16 = .bad 2 [0xDF00#16, 0#16] ∧ decodeUnit 0xBD00#16 0#16 0#16 = .bad 2 [0xBD00#16] := by
  decide

/-- A unit whose halfwords are read back, and halfwords that decode to a unit. -/
theorem test_meets_DecodeOfEncode :
    unitWords .none .add (.long 0 1 3 0x10) = some [0xC909#16, 0x8010#16] ∧
      [0xC909#16, 0x8010#16] = [0xC909#16, 0x8010#16, 7#16].take 2 := by decide

theorem test_meets_EncodeOfDecode : decodeUnit 0xC909#16 0x8010#16 7#16 = .unit .none .add (.long 0 1 3 0x10) := by decide

/-! ## Terms that are no command -/

/-- Commands of several kinds are well formed. -/
theorem test_meets_WellFormedCompletes :
    [wellFormed (.add 0 (imm 5)), wellFormed (.repIteration 0 .st 0 (.short 3 1 0)), wellFormed (.laneFailure 4 8),
      wellFormed (.pcieInboundRequest true (.read 0 512)), wellFormed (.mirrorWrite 5 3 (List.replicate 32 0) 1),
      wellFormed (.queueEntry { cls := .event, producer := eventBlock 200, consumer := 0 } .good (.event 200 0 0))].all id = true := by
  decide

/-- A unit without an encoding, for each kind of unit. -/
theorem test_ill_formed_units :
    [wellFormed (.trap 0 { pfx := none, form := .short 0 0 3 }), wellFormed (.ctOn 0 (imm 0)), wellFormed (.div 0 { pfx := none, form := .short 0 0 0 }),
      wellFormed (.repIteration 0 .br 0 (.grp 0)), wellFormed (.lock 0 .not 0 (.long 0 0 0 0))].any id = false := by decide

/-- Each is refused by its meaning. -/
theorem test_ill_formed_units_refused :
    exec (.trap 0 { pfx := none, form := .short 0 0 3 }) one = .refused .illFormed ∧
    exec (.repIteration 0 .br 0 (.grp 0)) one = .refused .illFormed ∧
    exec (.lock 0 .not 0 (.long 0 0 0 0)) one = .refused .illFormed := ⟨rfl, rfl, rfl⟩

/-- A card of no kind, a lane that the port has not, a request of no bytes and of 513, a record of the wrong length. -/
theorem test_ill_formed_others :
    [wellFormed (.faultCard { source := 511, kind := 63, inst := 0, copyLane := 0, address := 0, bound := none }),
      wellFormed (.queueEntry { cls := .faultCard, producer := 0, consumer := 0 } .good
        (.card { source := 511, kind := 63, inst := 0, copyLane := 0, address := 0, bound := none })),
      wellFormed (.laneFailure 0 8), wellFormed (.pcieInboundRequest false (.read 0 0)),
      wellFormed (.pcieInboundRequest false (.read 0 513)), wellFormed (.mirrorWrite 0 3 [0] 1), wellFormed (.mirrorWrite 0 0 [] 2),
      wellFormed (.queueEntry { cls := .faultCard, producer := 0, consumer := 0 } .good (.event 200 0 0)),
      wellFormed (.queueEntry { cls := .event, producer := 9, consumer := 0 } .good .other)].any id = false := by decide

/-- Each is refused by its meaning. -/
theorem test_ill_formed_others_refused :
    exec (.faultCard { source := 511, kind := 63, inst := 0, copyLane := 0, address := 0, bound := none }) up = .refused .illFormed ∧
    exec (.laneFailure 0 8) up = .refused .illFormed ∧
    exec (.pcieInboundRequest false (.read 0 513)) up = .refused .illFormed ∧
    exec (.mirrorWrite 0 3 [0] 1) up = .refused .illFormed ∧
    exec (.queueEntry { cls := .event, producer := 9, consumer := 0 } .good .other) up = .refused .illFormed := by
  refine ⟨by rfl, by rfl, by rfl, by rfl, by rfl⟩

/-! ## Integer units: hypotheses met -/

theorem test_meets_LoadsStoresMoves :
    checks [readsB 0 (imm 5) .ld .read one fun _ _ _ => true, readsB 0 (imm 5) .ldx .read one fun _ _ _ => true,
      readsB 0 (atAddr 0x40) .ldy .read one fun _ _ _ => true, startsB 0 (atAddr 8) .leax one fun _ => true,
      startsB 0 (atAddr 8) .leay one fun _ => true, startsB 0 (grpUnit 0 .mvax 0) .mvax one fun _ => true,
      startsB 0 (grpUnit 0 .mvxa 0) .mvxa one fun _ => true, startsB 0 (grpUnit 0 .mvay 0) .mvay one fun _ => true,
      startsB 0 (grpUnit 0 .mvya 0) .mvya one fun _ => true, startsB 0 (grpUnit 0 .xchgX 0) .xchgX one fun _ => true,
      startsB 0 (grpUnit 0 .xchgY 0) .xchgY one fun _ => true, storesB 0 (atAddr 0x40) .st .write one (fun _ _ => true) (fun w x => x.a.toNat % 2 ^ w) fun _ _ x => x,
      storesB 0 (atAddr 0x40) .stx .write one (fun _ _ => true) (fun w x => x.x.toNat % 2 ^ w) fun _ _ x => x, storesB 0 (atAddr 0x40) .sty .write one (fun _ _ => true) (fun w x => x.y.toNat % 2 ^ w) fun _ _ x => x,
      storesB 0 (atAddr 0x40) .xchg .rmw one (fun _ _ => true) (fun w x => x.a.toNat % 2 ^ w) fun _ m x => { x with a := w64 m }] = true := by decide

theorem test_meets_AddSubtractMultiply :
    [QOp.add, .adc, .sub, .sbb, .mul, .mulh, .mulhu].all (fun op => readsB 0 (imm 5) op .read one fun _ _ _ => true) = true ∧
      startsB 0 (grpUnit 3 .neg 0) .neg one (fun _ => true) = true := by decide

theorem test_meets_LogicAndShifts :
    [QOp.and, .or, .xor, .tst, .shl, .shr, .sar, .rol, .ror].all (fun op => readsB 0 (imm 5) op .read one fun _ _ _ => true) =
      true ∧ startsB 0 (grpUnit 3 .not 0) .not one (fun _ => true) = true := by decide

theorem test_meets_Compares :
    [QOp.cmp, .cmpu].all (fun op => readsB 0 (atY 0x1200) op .read one fun _ _ _ => true) = true := by decide

/-- Both ends of R106: the most negative value over -1, and a divisor of 0. -/
theorem test_meets_Divide :
    [QOp.div, .rem, .divu, .remu].all (fun op => readsB 0 (imm 0x7FFF) op .read (withA 0x8000000000000000 0) fun _ m _ => decide (m ≠ 0)) = true ∧
    [QOp.div, .rem, .divu, .remu].all (fun op => readsB 0 (imm 0) op .read one fun _ m _ => decide (m = 0)) = true := by decide

/-! ## Small steps of the integer units -/

/-- R105: 7 + 5 at width 64; the carry out of a sum that wraps. -/
theorem test_add :
    after (exec (.add 0 (imm 5)) one) (fun t => decide ((t.ctx 0).a = 12) && decide ((t.ctx 0).pc = 0x1004)) = true ∧
    after (exec (.add 0 (imm 1)) (withA 0xFFFFFFFFFFFFFFFF 0)) (fun t => decide ((t.ctx 0).a = 0) && bitOf (t.ctx 0).ps 1 &&
      !bitOf (t.ctx 0).ps 0) = true := by decide

/-- R105: 7 - 8 borrows. -/
theorem test_sub : after (exec (.sub 0 (imm 8)) one) (fun t => decide ((t.ctx 0).a = 0xFFFFFFFFFFFFFFFF) && bitOf (t.ctx 0).ps 1) =
    true := by decide

/-- R106: the most negative value over -1 sets V; a divisor of 0 takes vector 08h. -/
theorem test_div :
    after (exec (.div 0 (imm 0x7FFF)) (withA 0x8000000000000000 0))
      (fun t => decide ((t.ctx 0).a = 0x8000000000000000) && bitOf (t.ctx 0).ps 0) = true ∧
    after (exec (.div 0 (imm 0)) { one with mem := Memory.writes [] 0x40 (leBytes 8 0x2000) })
      (fun t => decide ((t.ctx 0).pc = 0x2000) && decide ((t.ctx 0).sh = 0x7FE0) &&
        decide (Memory.word t.mem 0x7FE0 = 0x1000)) = true := by decide

/-- R105: -7 shifted right by 1 at width 32 is -4, with the 1 moved out in C. -/
theorem test_sar : after (exec (.sar 0 (imm32 1)) (withA 0xFFFFFFF9 0))
    (fun t => decide ((t.ctx 0).a = 0xFFFFFFFC) && bitOf (t.ctx 0).ps 1) = true := by decide

/-- R103: ST of 64 bits at an address, little-endian. -/
theorem test_st : after (exec (.st 0 (atAddr 0x40)) (withA 0x0102 0))
    (fun t => decide (Memory.read t.mem 0x40 = 2) && decide (Memory.read t.mem 0x41 = 1)) = true := by decide

/-! ## Decimal units -/

/-- A state with a halfword or a doubleword at 40h, and A and X. -/
def withM (a x : Word) (m : Nat) : State := { withA a x with mem := Memory.writes [] 0x40 (leBytes 16 m) }

/-- The operand of 16 bits at 40h, and the one of 64 bits, which extended forms take for 16 bytes. -/
def half : QUnit := { pfx := none, form := .long 0 1 14 0x40 }
def wide : QUnit := { pfx := none, form := .long 0 3 14 0x40 }

/-- The cases of R114's table: DAD.H. -/
def dadCase (a m r : Word) (n z v dov : Bool) : Bool :=
  after (exec (.dad 0 half) (withM a 5 m.toNat)) fun t =>
    decide ((t.ctx 0).a = r) && (bitOf (t.ctx 0).ps 3 == n) && (bitOf (t.ctx 0).ps 2 == z) && (bitOf (t.ctx 0).ps 0 == v) &&
      (bitOf (t.ctx 0).fpsr 5 == dov)

theorem test_dad :
    checks [dadCase 0x999C 0x001C 0x000C false true true true, dadCase 0x999D 0x001D 0x000C false true true true,
      dadCase 0x250D 0x250C 0x000C false true false false, dadCase 0x123F 0x000B 0x123C false false false false,
      dadCase 0x100B 0x050A 0x050D true false false false] = true := by decide

/-- The last two rows of R114's table: DDATA at vector 09h. -/
theorem test_dad_ddata :
    [0x12AC#64, 0x1239#64].all (fun a => after (exec (.dad 0 half)
      { withM a 5 0x001C with mem := Memory.writes (Memory.writes [] 0x40 (leBytes 2 0x001C)) 0x48 (leBytes 8 0x3000) })
      fun t => decide ((t.ctx 0).pc = 0x3000) && decide ((t.ctx 0).a = a)) = true := by decide

/-- The cases of R116's table: DRND.H with DIGITS 1 through Y, which holds 40h. -/
def drndCase (a : Word) (mode : Nat) (r : Word) (b : Nat) (n z v : Bool) : Bool :=
  after (exec (.drnd 0 { pfx := none, form := .long 0 1 3 (BitVec.ofNat 15 (mode * 4096 + 1)) })
    (up.setCtx 0 { ctxUp with a := a, y := 0x40 })) fun t =>
    decide ((t.ctx 0).a = r) && decide (Memory.bytes t.mem 0x40 2 = leBytes 2 b) && (bitOf (t.ctx 0).ps 3 == n) &&
      (bitOf (t.ctx 0).ps 2 == z) && (bitOf (t.ctx 0).ps 0 == v)

theorem test_drnd_cases :
    checks [drndCase 0x125C 0 0x120C 0x005C false false false, drndCase 0x135C 0 0x140C 0x005D false false false,
      drndCase 0x125D 0 0x120D 0x005D true false false, drndCase 0x125D 1 0x120D 0x005D true false false,
      drndCase 0x125C 2 0x130C 0x005D false false false, drndCase 0x125D 3 0x130D 0x005C true false false,
      drndCase 0x125D 4 0x130D 0x005C true false false, drndCase 0x999C 2 0x000C 0x001D false true true,
      drndCase 0x004D 0 0x000C 0x004D false true false] = true := by decide

/-- Both accumulators and both operands valid, or one of the two not. -/
def okN (w m : Nat) (x : Ctx) : Bool := decOk (x.a.toNat % 2 ^ w) (2 * (w / 8) - 1) && decOk m (2 * (w / 8) - 1)
def okE (m : Nat) (x : Ctx) : Bool := decOk (x.x.toNat * 2 ^ 64 + x.a.toNat) 31 && decOk m 31

theorem test_meets_DecimalArithmetic :
    [QOp.dad, .dsb, .dmul, .dcmp].all (fun op => readsB 0 half op .read (withM 0x001C 5 0x002C) fun w m x => okN w m x) =
      true ∧
    [QOp.dadExt, .dsbExt, .dmulExt, .dcmpExt].all (fun op => readsB 0 wide op .read (withM 0x001C 0 0x002C) fun _ m x => okE m x) =
      true ∧
    [QOp.dad, .dsb, .dmul].all (fun op => readsB 0 half op .read (withM 0x0019 5 0x002C) fun w m x => !okN w m x) = true ∧
    [QOp.dad, .dsb, .dmul].all (fun op => readsB 0 half op .read (withM 0x001C 5 0x00A9) fun w m x => !okN w m x) = true ∧
    [QOp.dadExt, .dsbExt, .dmulExt].all (fun op => readsB 0 wide op .read (withM 0x001C 5 0x0029) fun _ m x => !okE m x) = true := by
  decide

theorem test_meets_DecimalCompareAndConvert :
    checks [readsB 0 half .dcmp .read (withM 0x001C 5 0x002C) fun w m x => okN w m x,
      readsB 0 wide .dcmpExt .read (withM 0x001C 0 0x002C) fun _ m x => okE m x,
      readsB 0 half .dcmp .read (withM 0x0019 5 0x002C) fun w m x => !okN w m x,
      readsB 0 wide .dcmpExt .read (withM 0x0019 0 0x002C) fun _ m x => !okE m x,
      readsB 0 half .dval .read (withM 0 5 0x00A9) fun _ _ _ => true, readsB 0 wide .dvalExt .read (withM 0 5 0x00A9) fun _ _ _ => true,
      startsB 0 (grpUnit 0 .bcvd 0) .bcvd one fun _ => true,
      startsB 0 (grpUnit 0 .dcvb 0) .dcvb (withA 0x12C 0) fun t => decOk (t.ctx 0).a.toNat 15,
      startsB 0 (grpUnit 0 .dcvbExt 0) .dcvbExt (withA 0x12C 0) fun t =>
        decOk ((t.ctx 0).x.toNat * 2 ^ 64 + (t.ctx 0).a.toNat) 31] = true := by decide

/-- R117: BCVD of the most negative value. -/
theorem test_bcvd : after (exec (.bcvd 0 (grpUnit 0 .bcvd 0)) (withA 0x8000000000000000 0))
    (fun t => decide ((t.ctx 0).a = 0x372036854775808D) && decide ((t.ctx 0).x = 0x9223)) = true := by decide

/-- The breakage and the result of a DRND, at a store through Y. -/
def rounds (u : QUnit) (op : QOp) (ext : Bool) (s : State) : Bool :=
  let k (w : Nat) := if ext then 31 else 2 * (w / 8) - 1
  let v (w : Nat) (x : Ctx) : Int := decVal (if ext then x.x.toNat * 2 ^ 64 + x.a.toNat else x.a.toNat % 2 ^ w) (k w)
  let r (w : Nat) (x : Ctx) : Int :=
    let d := layoutOf u.form % 32
    if d = 0 then v w x else if k w ≤ d then 0 else roundTo (layoutOf u.form / 2 ^ 12 % 8) (v w x) (10 ^ d)
  storesB 0 u op .write s (fun w x => decOk (if ext then x.x.toNat * 2 ^ 64 + x.a.toNat else x.a.toNat % 2 ^ w) (k w))
    (fun w x => packDec (v w x - r w x) (k w)) (fun w _ x => x.decResult ext (k w) (r w x))

theorem test_meets_DecimalRound :
    checks [rounds (atY 0x1002) .drnd false (up.setCtx 0 { ctxUp with a := 0x125C, y := 0x40 }),
      rounds (atY 0x1000) .drnd false (up.setCtx 0 { ctxUp with a := 0x125C, y := 0x40 }),
      rounds (atY 0x001E) .drndExt true (up.setCtx 0 { ctxUp with a := 0x125C, x := 0, y := 0x40 }),
      readsB 0 (atY 0x1002) .drnd .write (up.setCtx 0 { ctxUp with a := 0x1259, y := 0x40 }) fun w _ x =>
        !decOk (x.a.toNat % 2 ^ w) (2 * (w / 8) - 1),
      readsB 0 (atY 0x1002) .drndExt .write (up.setCtx 0 { ctxUp with a := 0x1259, y := 0x40 }) fun _ _ x =>
        !decOk (x.x.toNat * 2 ^ 64 + x.a.toNat) 31] = true := by decide

/-! ## Floating-point units -/

theorem test_meets_FloatOperations_arithmetic :
    [QOp.fadd, .fsub, .fmul, .fdiv, .fsqrt, .fma, .fmin, .fmax].all (fun op =>
      readsB 0 (imm32 5) op .read one (fun _ _ _ => true) && readsB 0 (imm 5) op .read one fun _ _ _ => true) = true := by decide

theorem test_meets_FloatOperations_conversions :
    [QOp.fmin, .fmax].all (fun op => readsB 0 (imm 5) op .read one fun _ _ _ => true) = true ∧
    readsB 0 (atY 0x1200) .fcmp .read one (fun _ _ _ => true) = true ∧
    [QOp.fcvt, .fcvti, .icvtf].all (fun op => startsB 0 (grpUnit 3 op 0) op one fun _ => true) = true := by decide

/-- R124: 1 + 2 at binary64 is 3, exactly. -/
theorem test_fadd : after (exec (.fadd 0 (atAddr 0x40)) (withM 0x3FF0000000000000 0 0x4000000000000000))
    (fun t => decide ((t.ctx 0).a = 0x4008000000000000) && decide ((t.ctx 0).fpsr = 0)) = true := by decide

/-- R122, R125: 1 / 3 at binary32, rounded to even, raises inexact. -/
theorem test_fdiv : after (exec (.fdiv 0 { pfx := none, form := .long 0 2 14 0x40 }) (withM 0x3F800000 0 0x40400000))
    (fun t => decide ((t.ctx 0).a = 0x3EAAAAAB) && bitOf (t.ctx 0).fpsr 4) = true := by decide

/-- R129: 2.5 to an integer, to nearest even. -/
theorem test_fcvti : after (exec (.fcvti 0 (grpUnit 3 .fcvti 0)) (withA 0x4004000000000000 0))
    (fun t => decide ((t.ctx 0).a = 2)) = true := by decide

/-! ## Where operands lie -/

/-- Bare, as a check. -/
def bareB (s : State) (c : Nat) : Bool :=
  decide (Memory.wf s.mem) && !bitOf (s.ctx c).ttb 0 && decide ((s.pctl (cacheOf s c % 18)).l2 = .off) && decide (s.caches.l3st = .off) &&
    s.caches.l1.isEmpty && s.caches.l2.isEmpty && s.caches.l3.isEmpty && s.caches.poison.isEmpty

theorem bare_of (s : State) (c : Nat) (h : bareB s c = true) : Bare s c := by
  simp only [bareB, Bool.and_eq_true, decide_eq_true_eq, Bool.not_eq_eq_eq_not, Bool.not_true, List.isEmpty_iff] at h
  obtain ⟨⟨⟨⟨⟨⟨⟨h1, h2⟩, h3⟩, h4⟩, h5⟩, h6⟩, h7⟩, h8⟩ := h
  exact ⟨h1, h2, h3, h4, h5, h6, h7, h8⟩

/-- The hypotheses of each mode: every base, and a call in every mode that steps a register and in none. -/
theorem test_meets_EffectiveAddresses :
    checks [decide (Base.x = baseOf 0), decide (Base.y = baseOf 1), decide (Base.s = baseOf 2),
      decide (modeOf (.long 0 3 1 0) = .post .x), decide (modeOf (.long 0 3 2 0) = .pre .x),
      decide (modeOf (.long 0 3 4 0) = .post .y), decide (modeOf (.long 0 3 5 0) = .pre .y),
      decide (modeOf (.long 0 3 7 0) = .post .s), decide (modeOf (.long 0 3 8 0) = .pre .s),
      decide (modeOf (.long 0 3 14 0) = .abs 0)] = true := by decide

/-- A call of LD in a mode. -/
def ldCall (am : BitVec 4) (o : BitVec 15) : Call :=
  callOf 0 .none .ld (.long 0 3 am o) [0, 0] one

/-- The last bytes of the usable memory are within, too. -/
theorem test_meets_BareFetchAndRead :
    bareB one 0 = true ∧ decide ((one.ctx 0).pc.toNat + 6 ≤ one.usable) = true ∧ breakpoint one 0 = none ∧
    modeOf (ldCall 15 5).f = .imm 5 ∧ stackMode (modeOf (ldCall 14 0x40).f) = false ∧
    decide (((ldCall 14 0x40).ea (one.ctx 0)).toNat + 8 ≤ one.usable) = true ∧ (isNarrow .ld || isExt .ld) = false := by decide

theorem test_meets_BareFetchAndRead_operandFile :
    bareB one 0 = true ∧ stackMode (modeOf (ldCall 11 0x10).f) = true ∧ stackMode (modeOf (ldCall 6 0).f) = true ∧
    (one.ctx 0).opfile = [] ∧ decide (((ldCall 11 0x10).ea (one.ctx 0)).toNat + 8 ≤ one.usable) = true := by decide

/-- One byte at 0, and sixteen at the end of the usable memory. -/
theorem test_meets_BareStoreFrame :
    bareB one 0 = true ∧ decide ((0#64).toNat + 1 ≤ one.usable) = true ∧
      decide ((BitVec.ofNat 64 (one.usable - 16)).toNat + 16 ≤ one.usable) = true := by decide

/-! ## Control flow, barriers and cache operations -/

/-- A branch to an address, and a unit of the operation group at the stack. -/
def toAddr (v : BitVec 15) : QUnit := { pfx := none, form := .long 0 0 14 v }

/-- Context 0 with a frame at S that RETI restores: PC 2000h, PS in supervisor mode. -/
def framed (ps : Nat) : State := { one with mem := Memory.writes [] 0x8000 (leBytes 8 0x2000 ++ leBytes 8 ps) }

theorem test_meets_Branches :
    startsB 0 (toAddr 0x40) .br one (fun _ => true) = true ∧
    startsB 0 (toAddr 0x40) .call one (fun t =>
      let k := unitCall 0 (toAddr 0x40) .call one
      let y := k.stepped (t.ctx 0)
      match put 0 (y.s - 8).toNat 8 k.next.toNat (t.setCtx 0 y) with
      | .ok _ => true
      | .error _ => false) = true ∧
    startsB 0 (grpUnit 0 .ret 0) .ret (framed 0) (fun t =>
      match load 0 (t.ctx 0).s.toNat 8 t with
      | .ok _ => true
      | .error _ => false) = true := by decide

/-- R406: CALL pushes the address of the next unit; RET takes it back. -/
theorem test_call : after (exec (.call 0 (toAddr 0x40)) one) (fun t =>
    decide ((t.ctx 0).pc = 0x40) && decide ((t.ctx 0).sh = 0x7FF8) && decide (Memory.word t.mem 0x7FF8 = 0x1004)) = true := by decide

theorem test_ret : after (exec (.ret 0 (grpUnit 0 .ret 0)) (framed 0)) (fun t =>
    decide ((t.ctx 0).pc = 0x2000) && decide ((t.ctx 0).sh = 0x8008)) = true := by decide

/-- The last vector of TRAP, DFh, and a frame whose MODE is the running one. -/
theorem test_meets_TrapAndReti :
    startsB 0 (grpUnit 0 .trap 0xDF) .trap one (fun t =>
      match enter 0 { vec := 0xFF, shown := 0xFF, mode := if (t.ctx 0).mode = 0 then 1 else 3
                      ret := (unitCall 0 (grpUnit 0 .trap 0xDF) .trap one).next, detail := 0, fetch := false, write := false
                      sw := true, words := 0, aux := 0, deliv := false, mct := false } t with
      | .ok _ => true
      | .error _ => false) = true ∧
    startsB 0 (grpUnit 0 .reti 0) .reti (framed 0x3000) (fun t => (takeable t 0).isNone &&
      (match load 0 (t.ctx 0).s.toNat 16 t with
       | .ok (_, v) => decide (w64 (v / 2 ^ 64) &&& psReserved = 0) && decide (fld (w64 (v / 2 ^ 64)) 13 12 ≠ 2) &&
           decide (fld (w64 (v / 2 ^ 64)) 13 12 ≤ (t.ctx 0).mode)
       | .error _ => false)) = true := by decide

/-- R74: TRAP 5 takes vector 25h with the address of the next unit. -/
theorem test_trap : after (exec (.trap 0 (grpUnit 0 .trap 5)) { one with mem := Memory.writes [] 0x128 (leBytes 8 0x3000) })
    (fun t => decide ((t.ctx 0).pc = 0x3000) && decide (Memory.word t.mem 0x7FE0 = 0x1004) &&
      decide (Memory.word t.mem 0x7FF0 = 0x4000325)) = true := by decide

/-- R78: a return to supervisor mode. -/
theorem test_reti_return : after (exec (.reti 0 (grpUnit 0 .reti 0)) (framed 0x1001)) (fun t =>
    decide ((t.ctx 0).pc = 0x2000) && decide ((t.ctx 0).mode = 1) && decide ((t.ctx 0).sh = 0x8020) && bitOf (t.ctx 0).ps 0) =
    true := by decide

theorem test_meets_BarriersAndWaits :
    [QOp.fence, .pflush, .pbar, .punbar, .rnda, .wait].all (fun op => startsB 0 (grpUnit 0 op 0) op one fun _ => true) = true ∧
    startsB 0 { pfx := none, form := .grp 0 } .ctOn one (fun _ => true) = true ∧
    startsB 0 { pfx := none, form := .grp 0 } .ctOff one (fun _ => true) = true ∧
    startsB 0 (grpUnit 0 .wait 0) .wait one (fun t => !wakeSource t 0) = true ∧
    startsB 0 (grpUnit 0 .wait 0) .wait (up.setCtx 0 { ctxUp with wakeLatch := true }) (fun t => wakeSource t 0) = true := by decide

theorem test_meets_CacheUnits :
    startsB 0 (toAddr 0x40) .cflush one (fun t =>
      match checkSpans 0 .read ((unitCall 0 (toAddr 0x40) .cflush one).ea (t.ctx 0)).toNat 1 t with
      | .ok (v, l) => !((l.filter fun sp => decide (sp.region = .memory)).map fun sp => sp.pa / 128).any (opBusy v 0)
      | .error _ => false) = true ∧
    startsB 0 { pfx := none, form := .long 0 0 0 0x800 } .cinvr one (fun _ => true) = true ∧
    startsB 0 { pfx := none, form := .long 0 0 0 0x1800 } .cinvr one (fun _ => true) = true ∧
    (layoutOf (.long 0 0 0 0x1800)).testBit 11 = true ∧ layoutOf (.long 0 0 0 0x1800) / 2 ^ 12 % 8 < 2 ∧
    startsB 0 { pfx := none, form := .long 0 0 0 0x2C00 } .cinvr one (fun _ => true) = true ∧
    (layoutOf (.long 0 0 0 0x2C00)).testBit 11 = true ∧ (layoutOf (.long 0 0 0 0x2C00)).testBit 10 = true ∧
    layoutOf (.long 0 0 0 0x2C00) / 2 ^ 12 % 8 = 2 ∧
    startsB 0 { pfx := none, form := .long 0 0 3 0x2000 } .cinvr one (fun t =>
      match cinvrSpans 0 (cinvrRange ((unitCall 0 { pfx := none, form := .long 0 0 3 0x2000 } .cinvr one).ea (t.ctx 0)).toNat
          (t.ctx 0).a.toNat) t with
      | .ok (v, l) => decide (l.length = 1) && v.caches.l2.isEmpty
      | .error _ => false) = true ∧ (layoutOf (.long 0 0 3 0x2000)).testBit 11 = false := by decide

/-! ## Prefixes, predicates and traps -/

/-- The plain units: a unit of each kind under predicate 1, which is 0. -/
def underP1 (op : QOp) : QUnit :=
  match funcOf op, grpOf op with
  | some f, _ => { pfx := none, form := .long 1 (if sizeless op then 0 else 3) 0 (BitVec.ofNat 15 (f * 256)) }
  | none, _ => { pfx := none, form := .long 1 3 (if op = .cinvr then 3 else if isCmp op ∨ isDrnd op then 6 else if isExt op then 6 else 14) 0 }

/-- Every operation but CT.ON and CT.OFF, which have no predicate other than P0, which is 1 (R67). -/
theorem test_meets_PredicateFalse :
    (allOps.filter fun op => (grpOf op).isNone).all (fun op =>
      prefixB 0 (QUnit.pre' (underP1 op)) op (underP1 op).form one fun t _ =>
        !(t.ctx 0).pred (predOf (QUnit.pre' (underP1 op)) (underP1 op).form)) = true := by decide

/-- A unit that is fetched, at a boundary. -/
def fetched (u : QUnit) (op : QOp) (s : State) (p : State → Bool) : Bool :=
  match unitWords (QUnit.pre' u) op u.form with
  | none => false
  | some w => ready s 0 && !haltDue s 0 &&
      (match beginUnit 0 (2 * w.length) false s with
       | .ok t => p t
       | .error _ => false)

theorem test_meets_EarlyTraps :
    checks [fetched (imm 5) .st one fun _ => illegal .st (imm 5).form,
      fetched (atY 1) .ld one fun _ => !illegal .ld (atY 1).form && badFields .ld (atY 1).form,
      fetched { pfx := some 8, form := .short 0 0 0 } .ld one fun _ => !illegal .ld (.short 0 0 0) && badPre (.pfx 8),
      fetched { pfx := some 1, form := .long 0 3 3 0 } .ld one fun _ =>
        !illegal .ld (.long 0 3 3 0) && !(badPre (.pfx 1) || badFields .ld (.long 0 3 3 0)) && badPrefix (.pfx 1) .ld (.long 0 3 3 0),
      fetched (grpUnit 0 .wait 0) .wait (up.setCtx 0 { ctxUp with ps := 0, su := 0x8000 }) fun t =>
        decide (encTrap .none .wait (grpUnit 0 .wait 0).form = none) && decide ((t.ctx 0).mode = 0)] = true := by decide

/-- The entries of an illegal form and of a privileged unit: vectors 02h and 05h. -/
theorem test_illegal : after (exec (.st 0 (imm 5)) { one with mem := Memory.writes [] 0x10 (leBytes 8 0x3000) })
    (fun t => decide ((t.ctx 0).pc = 0x3000) && decide (Memory.word t.mem 0x7FE0 = 0x1000)) = true := by decide

theorem test_meets_RepAndUndefined :
    prefixB 0 (.rep 0) .add (.long 0 3 4 0) (withA 1 0) (fun t _ => decide ((t.ctx 0).x = 0)) = true ∧
    prefixB 0 (.rep 0) .add (.long 0 3 4 0) (withA 1 1) (fun t k => decide ((t.ctx 0).x ≠ 0) &&
      (t.ctx 0).pred (predOf (.rep 0) (.long 0 3 4 0)) &&
      (match semOf .add with
       | .val use eff => (match valueBody use eff false k t with
          | .ok z => decide ((z.ctx 0).x - 1 = 0)
          | .error _ => false)
       | .sys _ _ => false)) = true ∧
    (match decodeUnit 0xDF00#16 0#16 0#16 with
     | .bad vec w => ready one 0 && !haltDue one 0 && (match beginUnit 0 (2 * w.length) false one with
        | .ok _ => (match enter 0 (trapEntry (one.ctx 0) (one.ctx 0).pc
            { vec := vec, detail := 0, fetch := false, write := false, sw := false, aux := 0 } w) one with
          | .ok _ => true
          | .error _ => false)
        | .error _ => false)
     | .unit _ _ _ => false) = true := by decide

/-- R69: the last of a run of ADD with post-increment of Y leaves X = 0 and PC past the unit. -/
theorem test_rep : after (exec (.repIteration 0 .add 0 (.long 0 3 4 0)) (withA 1 1)) (fun t =>
    decide ((t.ctx 0).x = 0) && decide ((t.ctx 0).y = 11) && decide ((t.ctx 0).pc = 0x1006)) = true := by decide

/-- The hypotheses of a LOCK: the operand is read, the effect has a value, the store passes. -/
def locks (op : QOp) (s : State) (p : Nat → Word → Bool) : Bool :=
  prefixB 0 (.lock 0) op (atAddr 0x40).form s fun t k =>
    let t' := t.setCtx 0 { t.ctx 0 with opfile := [] }
    (t.ctx 0).pred (predOf (.lock 0) (atAddr 0x40).form) &&
    (match operand k .rmw true t' with
     | .ok (v, l, m) => p m (v.ctx 0).a &&
       (match putSpans 0 false true { Acc.store with lock := true } (k.ea (t'.ctx 0)).toNat 8 l (leBytes 8 1) v with
        | .ok _ => true
        | .error _ => false)
     | .error _ => false)

theorem test_meets_Lock :
    checks [locks .add one fun _ _ => true, locks .sub one fun _ _ => true, locks .and one fun _ _ => true,
      locks .or one fun _ _ => true, locks .xor one fun _ _ => true, locks .xchg one fun _ _ => true] = true ∧
    prefixB 0 (.lock 0) .cmpu (.long 0 3 3 0x1200) (up.setCtx 0 { ctxUp with a := 0, y := 0x40 }) (fun t k =>
      match operand k .rmw true t with
      | .ok (v, _, m) => decide ((v.ctx 0).a.toNat = m)
      | .error _ => false) = true ∧
    prefixB 0 (.lock 0) .cmpu (.long 0 3 3 0x1200) (up.setCtx 0 { ctxUp with a := 1, y := 0x40 }) (fun t k =>
      match operand k .rmw true t with
      | .ok (v, _, m) => decide ((v.ctx 0).a.toNat ≠ m)
      | .error _ => false) = true := by decide

/-- R70: LOCK ADD stores the sum and leaves the old value; LOCK CMPU stores X on equality alone. -/
theorem test_lock : after (exec (.lock 0 .add 0 (atAddr 0x40).form) (withM 7 5 9)) (fun t =>
    decide (Memory.word t.mem 0x40 = 16) && decide ((t.ctx 0).a = 9)) = true ∧
    after (exec (.lock 0 .cmpu 0 (.long 0 3 3 0x1200)) ((withM 0 0 9).setCtx 0 { ctxUp with a := 9, x := 4, y := 0x40 }))
      (fun t => decide (Memory.word t.mem 0x40 = 4)) = true := by decide

/-! ## Entries -/

/-- An entry of vector 9 in supervisor mode; the frame lies at the end of what SS addresses. -/
theorem test_meets_EntryThroughMemory :
    (let s := up.setCtx 0 { ctxUp with ps := 0, su := 0x4000, ss := BitVec.ofNat 64 one.usable }
     bareB s 0 && decide ((((s.ctx 0).inMode 1).s - 32).toNat + 32 ≤ s.usable) &&
       decide ((s.ctx 0).vbaseS.toNat + 8 * 9 + 8 ≤ s.usable)) = true ∧
    (bareB one 0 && decide ((((one.ctx 0).inMode 3).s - 32).toNat + 32 ≤ one.usable)) = true := by decide

/-- A delivery of source 130 that has come to context 0. -/
def delivered (mct : Bool) : State :=
  setSlot (up.setCtx 0 { ctxUp with ps := 0x7000, mct := mct }) 0
    (some { source := 130, prio := 5, vector := 7, hyp := true, age := 3, arrived := true, lateMask := false })

/-- Source 131, of higher priority, is pending and may choose context 0. -/
def higher : State :=
  { delivered false with ert := { (delivered false).ert with
      en := true, mask := 0, pend := setBit 0 131 true, src := [(131, 0x0800000900000001#64)] } }

theorem test_meets_Entries :
    (boundary (delivered false) 0 && (takeable (delivered false) 0).isSome && (match takeInterrupt 0 (delivered false) with
      | .ok _ => true
      | .error _ => false)) = true ∧
    (boundary (delivered true) 0 && (((delivered true).ctx 0).mct) && quiet (delivered true) && bareB (delivered true) 0) = true ∧
    (entersNow (up.setCtx 0 { ctxUp with entering := true }) 0 && (match resetEntry 0 (up.setCtx 0 { ctxUp with entering := true }) with
      | .ok _ => true
      | .error _ => false)) = true ∧
    (boundary higher 0 && (match takeable higher 0 with
      | some d => overtakes higher 0 131 0 d && overtakes higher 0 131 11 d && (bitOf (srcOf higher 131) 59 == d.hyp) &&
          (slotAt (reached higher 131 0) 0).isSome && overtakes higher 0 131 12 d
      | none => false) && (match takeInterrupt 0 (reached higher 131 0) with
      | .ok _ => true
      | .error _ => false) && (match takeInterrupt 0 higher with
      | .ok v => (slotAt v 0).isNone && decide ((v.ctx 0).run = .run) && (match takeInterrupt 0 (reached v 131 0) with
        | .ok _ => true
        | .error _ => false)
      | .error _ => false)) = true := by decide +kernel

/-- R226: an entry pushes its delivery; PC comes from vector 27h. -/
theorem test_interrupt_entry : after (exec (.interruptEntry 0) { delivered false with mem := Memory.writes [] 0x138 (leBytes 8 0x3000) })
    (fun t => decide ((t.ctx 0).pc = 0x3000) && decide ((stackOf t 0).length = 1) && (slotAt t 0).isNone) = true := by decide

/-- R231: the frame of an entry that is overtaken at cycle 3 shows the higher event's vector, at cycle 4 its own; PC is the
higher event's handler. -/
theorem test_entry_takeover :
    checks [after (exec (.entryTakeover 0 131 3) { higher with mem := Memory.writes [] 0x100 (leBytes 8 0x3000) }) fun t =>
        decide ((t.ctx 0).pc = 0x3000) && decide ((Memory.word t.mem 0x7FF0).extractLsb' 0 8 = 0x20#8),
      after (exec (.entryTakeover 0 131 4) { higher with mem := Memory.writes [] 0x100 (leBytes 8 0x3000) }) fun t =>
        decide ((t.ctx 0).pc = 0x3000) && decide ((Memory.word t.mem 0x7FF0).extractLsb' 0 8 = 0x27#8)] = true := by
  decide +kernel

/-- An entry of table 2 for a branch at 1000h. -/
def t2 : PredEntry := { table := 2, index := predIndexOf 2 0x1000 0, tag := predTagOf 2 0x1000 0, counter := 7, useful := 0, target := 0 }

/-- The entry belongs to the branch in table 2 and in no other table; what hashes there is free (log entry 6). -/
theorem test_meets_predictTaken :
    (([t2]).find? fun e => e.isFor 2 0x1000 0) = some t2 ∧ ∀ u, u ≠ 2 → t2.isFor u 0x1000 0 = false := by
  refine ⟨by simp [PredEntry.isFor, t2], fun u h => ?_⟩
  simp [PredEntry.isFor, t2, Ne.symm h]

theorem test_meets_ContextCommands : calmB up = true ∧ calmB one = true ∧ runnable one 0 = true := by decide

/-! ## The whole machine -/

theorem test_meets_MemoryStaysCanonical :
    Memory.wf State.reset.mem ∧ step State.reset = .next State.reset := ⟨by decide, rfl⟩

/-- The command at the front of the queue runs, with the rest of the queue. -/
theorem test_meets_StepRunsFrontCommand : step { up with pending := [.nerrPulseEnd, .ertSelection] } =
    exec .nerrPulseEnd { up with pending := [.ertSelection] } := rfl

/-! ## Caches and memory -/

/-- Pair 0 with caches in given states. -/
def cached (x : Pctl) : State := up.setPctl 0 x

/-- The L2 of pair 0 ON, holding lines. -/
def l2On (l : List CLine) : State :=
  { cached { Pctl.reset with l2 := .on } with caches := { (cached { Pctl.reset with l2 := .on }).caches with l2 := l } }

/-- A line of pair 0. -/
def ln0 (line : Nat) (dirty : Bool) (filling : BitVec 8) : CLine :=
  { owner := 0, line := line, way := 3, dirty := dirty, inst := 0, filling := filling, crit := none }

/-- The L3 in a state, holding lines. -/
def l3At (st : CacheSt) (inv : Bool) (l : List CLine) : State := setCaches up { up.caches with l3st := st, l3inv := inv, l3 := l }

theorem test_meets_CacheControl :
    checks [reachesB (cached { Pctl.reset with l2Inv := true }) .mgmt (0x2000200 + 8 * (0 : Fin 18).val) (.cachePctl 0),
      after (exec (.cachePctlWrite .mgmt 0 0x400) (cached { Pctl.reset with l2Inv := true })) fun t =>
        decide ((t.pctl 0).l2 = .on) && !(t.pctl 0).l2Inv,
      reachesB (cached { Pctl.reset with l2 := .on, l1iInv := true, l1dInv := true }) .mgmt 0x2000200 (.cachePctl 0),
      after (exec (.cachePctlWrite .mgmt 0 0x700) (cached { Pctl.reset with l2 := .on, l1iInv := true, l1dInv := true })) fun t =>
        decide (t.pctl 0 = { Pctl.reset with l2 := .on, l1i := .on, l1d := .on }),
      reachesB (l2On [ln0 5 true 0]) .mgmt 0x2000200 (.cachePctl 0), l2Dirty (l2On [ln0 5 true 0]) 0,
      after (exec (.cachePctlWrite .mgmt 0 0) (l2On [ln0 5 true 0])) fun t =>
        decide ((t.pctl 0).l2 = .disablePending) && decide (t.caches.l2.length = 1),
      reachesB (l2On [ln0 5 false 0]) .mgmt 0x2000200 (.cachePctl 0), !l2Dirty (l2On [ln0 5 false 0]) 0,
      after (exec (.cachePctlWrite .mgmt 0 0) (l2On [ln0 5 false 0])) fun t =>
        decide ((t.pctl 0).l2 = .off) && t.caches.l2.isEmpty,
      reachesB (l3At .off true []) .mgmt 0x2000000 .cacheL3ctl,
      after (exec (.cacheL3ctlWrite .mgmt 0x100) (l3At .off true [])) fun t => decide (t.caches.l3st = .on),
      reachesB (l3At .on false [ln0 5 true 0]) .mgmt 0x2000000 .cacheL3ctl,
      after (exec (.cacheL3ctlWrite .mgmt 0) (l3At .on false [ln0 5 true 0])) fun t => decide (t.caches.l3st = .disablePending),
      calmB (l3At .disablePending false [ln0 5 true 0]),
      after (exec (.cacheDrainComplete .l3) (l3At .disablePending false [ln0 5 true 0])) fun t =>
        decide (t.caches.l3st = .off) && t.caches.l3.isEmpty,
      calmB (cached { Pctl.reset with l2 := .disablePending }),
      after (exec (.cacheDrainComplete (.l2 0)) (cached { Pctl.reset with l2 := .disablePending })) fun t =>
        decide ((t.pctl 0).l2 = .off)] = true := by decide +kernel

/-- A FILLING line holds a snoop. -/
def snooped : State :=
  { l2On [ln0 5 false 4] with caches := { (l2On [ln0 5 false 4]).caches with snoops := [{ pair := 0, line := 5, invalidate := true }] } }

theorem test_meets_CacheTraffic :
    checks [calmB (l2On []), decide (placeOf (l2On []) 0 = some (0, false)), !l1Wants (l2On []) (cacheOf (l2On []) 0) false,
      !noCredit (l2On []) .lineFill 0 (cacheOf (l2On []) 0), (l2On []).inMemory (5 * 128) 128,
      (l2Find (l2On []) (cacheOf (l2On []) 0) 5).isNone, decide (3 ∈ l2Ways (l2On []) (cacheOf (l2On []) 0 % 18) 0),
      after (exec (.lineFill 0 5 3 2 .good false) (l2On [])) fun t =>
        decide ((l2Find t 0 5).map (fun l => (l.filling, l.crit)) = some (0xFB#8, some (0, 2))),
      calmB (l2On [ln0 5 false 6]),
      decide ((l2Find (l2On [ln0 5 false 6]) 0 5).map (fun l => (bitOf l.filling 2, decide (setBit l.filling 2 false ≠ 0))) =
        some (true, true)),
      after (exec (.lineFill 0 5 3 2 .good false) (l2On [ln0 5 false 6])) fun t =>
        decide ((l2Find t 0 5).map (·.filling) = some 2#8),
      after (exec (.lineFill 0 5 3 2 .good false) snooped) fun t => t.caches.l2.isEmpty && t.caches.snoops.isEmpty,
      after (exec (.lineFill 0 5 3 2 .uncorrectable false) (l2On [ln0 5 false 6])) fun t => t.caches.l2.isEmpty &&
        decide ((t.pair 0).letcnt = 1),
      (l2Find (l2On [ln0 5 false 0]) (0 + 18) 5).isNone,
      after (exec (.snoop 0 5 true) (l2On [ln0 5 false 0])) fun t => t.caches.l2.isEmpty,
      after (exec (.snoop 0 5 true) (l2On [ln0 5 false 6])) fun t => decide (t.caches.snoops.length = 1),
      after (exec (.cacheScrub [.l3Clean 2 5]) (l3At .on false [ln0 5 false 0])) fun t =>
        t.caches.l3.isEmpty && decide (t.fcr.log.length = 1)] = true := by decide +kernel

/-- A serving channel, and a read that cannot be rebuilt. -/
theorem test_meets_MemoryRequests :
    checks [calmB up, up.inMemory (7 * 128) 128, up.inMemory (7 / 11 * 11 * 128) 1408, serves up (channelOf 7) (stripeOf 7),
      decide (fld up.memc.cfg 15 8 ≠ 0), decide (Memory.wf up.mem),
      after (exec (.memoryRequest (.write (List.replicate 128 3#8)) 7 .none false) up) fun t =>
        decide (Memory.read t.mem (7 * 128 + 127) = 3) && decide (Memory.read t.mem (8 * 128) = 0),
      after (exec (.memoryRequest .read 7 (.uncorrectable true) false) up) fun t =>
        decide (t.caches.poison = [7]) && decide (t.fcr.log.length = 1),
      !noCredit up .memRequest 0 (channelOf 7),
      after (exec (.memoryRequest .read 7 (.uncorrectable true) true) up) fun t => t.caches.poison.isEmpty && t.fcr.log.isEmpty] = true := by decide +kernel

/-! ## Queues and control space -/

/-- The queue of the events of source 200's block, and the queue of a DRAM channel's requests. -/
def evQueue : QueueId := { cls := .event, producer := eventBlock 200, consumer := 0 }
def memQueue : QueueId := { cls := .memRequest, producer := 1, consumer := 2 }

/-- The queue of an access of the management link to the CACHE block. -/
def ctlQueue : QueueId := accQueue .mgmt 0x2000100

/-- A queue without a credit. -/
def noneLeft (q : QueueId) : State := setQueue up { queueOf up q with credits := 0, held := 1 }

/-- A card of pair 0 waits for a credit. -/
def heldCard : State :=
  sendCard (noneLeft { cls := .faultCard, producer := 0, consumer := 0 })
    { source := 0, kind := 1, sev := 1, inst := 3, copyLane := 0, address := 0x80, bound := none, forced := false, win := false
      : CardIn }

/-- The instance of an ordinary context, 4, which owns context 0. -/
def owned : State := { up with insts := { up.insts with tab := [(4, { Inst.reset 0 with present := true })], ctxown := [(0, 4#8)] } }

theorem test_meets_Queues :
    checks [payloadFits evQueue (.event 200 0 0), canSend up evQueue (.event 200 0 0), decide ((queueOf up evQueue).credits ≠ 0),
      after (exec (.queueEntry evQueue .good (.event 200 0 0)) up) fun t =>
        bitOf t.ert.pend 200 && decide ((queueOf t evQueue).credits = (queueOf up evQueue).credits - 1) &&
          after (exec (.creditReturn evQueue) t) fun u => decide ((queueOf u evQueue).credits = (queueOf up evQueue).credits),
      payloadFits memQueue .other, canSend up memQueue .other, !responseClass memQueue.cls,
      after (exec (.queueEntry memQueue .good .other) up) fun t => decide ((queueOf t memQueue).held = 1),
      payloadFits ctlQueue (.ctlWrite .mgmt 0x2000100 .w8 5), canSend up ctlQueue (.ctlWrite .mgmt 0x2000100 .w8 5),
      after (exec (.queueEntry ctlQueue .good (.ctlWrite .mgmt 0x2000100 .w8 5)) up) fun t => decide (t.caches.l2mask = [(0, 5#16)]),
      !canSend (noneLeft evQueue) evQueue (.event 200 0 0),
      after (exec (.queueEntry evQueue .good (.event 200 0 0)) (noneLeft evQueue)) fun t => decide (t = noneLeft evQueue),
      calmB (noneLeft evQueue), decide ((queueOf (noneLeft evQueue) evQueue).held ≠ 0),
      decide (heldCard.bus.waitCards.length = 1), decide (heldCard.fcr.inbox = []), noCredit heldCard .faultCard 0 0,
      !noCredit up .faultCard 0 0,
      after (exec (.creditReturn { cls := .faultCard, producer := 0, consumer := 0 }) heldCard) fun t => t.bus.waitCards.isEmpty &&
        decide (t.fcr.cnt.get 0 0#32 = 1)] = true := by
  decide +kernel

theorem test_meets_ControlSpace :
    checks [reachesB up .mgmt (0x2000100#40).toNat (.cacheL2mask 0),
      decide ((regWrite up .mgmt (0x2000100#40).toNat 5 (.cacheL2mask 0)).bus.waitCtl = []),
      after (exec (.controlWrite .mgmt 0x2000100#40 .w8 5) up) fun t => decide (t.caches.l2mask = [(0, 5#16)]),
      decide (widthBytes .w4 < 8), issuesB up .mgmt (0x2000100#40).toNat, issuesB up .mgmt (0x2000104#40).toNat,
      issuesB up .mgmt (0x10000#40).toNat,
      after (exec (.controlWrite .mgmt 0x2000100#40 .w4 5) up) fun t => t.caches.l2mask.isEmpty && decide (t.fcr.log.length = 1),
      after (exec (.controlWrite .mgmt 0x2000104#40 .w8 5) up) fun t => decide (t.fcr.log.length = 1),
      decide (regAt (0x10000#40).toNat = none),
      after (exec (.controlWrite .mgmt 0x10000#40 .w8 5) up) fun t => decide (t.fcr.log.length = 1),
      decide (regAt (0x2000100#40).toNat = some (.cacheL2mask 0)), regMapped owned (.cacheL2mask 0),
      !permitted owned (.ctx 0) true (.cacheL2mask 0), issuesB owned (.ctx 0) (0x2000100#40).toNat,
      after (exec (.controlWrite (.ctx 0) 0x2000100#40 .w8 5) owned) fun t => t.caches.l2mask.isEmpty && decide (t.fcr.log.length = 1),
      (match ctlCheck up .mgmt false 0x3000008 8 with
       | .ok .memcCfg => issuesB up .mgmt 0x3000008
       | _ => false),
      after (exec (.controlRead .mgmt 0x3000008#40 .w8) up) fun t => decide (t.bus.cpl = .data 0x41804), up.chan.mgmtUp,
      after (exec (.mgmtBar0Request true 0x2000100#40 9 5) up) fun t => decide (t.bus.cpl = .unsupported) && t.caches.l2mask.isEmpty,
      after (exec (.mgmtBar0Request true 0x2000100#40 8 5) up) fun t => decide (t.caches.l2mask = [(0, 5#16)])] = true := by
  decide +kernel

/-! ## Pairs and contexts -/

/-- Pair 0 substitutes to bench pair 16. -/
def substituting (passed : Bool) : State :=
  one.setPair 0 { one.pair 0 with
    st := .substituting, subst := some { bench := some 16, told := true, passed := passed, mb := none, turn := 1 } }

/-- The same, with the bench pair 17 free. -/
def benched : State := substituting false

/-- Pair 0 hands over. -/
def handing (split : Bool) : State :=
  up.setPair 0 { up.pair 0 with st := .handover, handover := some { toSplit := split, mb := some 5 } }

/-- Pair 0 is SPLIT, three lets on the group of copy T. -/
def splitThrice : State := one.setPair 0 { one.pair 0 with st := .split, slot0 := some 1, slot1 := some 0, group1 := 3 }

/-- Context 0 runs on a pair whose L2 holds a line. -/
def withLine (dirty : Bool) : State :=
  let s := one.setPctl 0 { Pctl.reset with l2 := .on }
  { s with caches := { s.caches with l2 := [ln0 5 dirty 0] } }

theorem test_meets_Lets :
    checks [calmB one, pairWorks one 0, decide ((one.pair 0).groupOf false < 3), decide ((one.pair 0).groupOf true < 3),
      after (exec (.letRollback 0 .stagger false false false) one) fun t =>
        decide ((t.pair 0).letcnt = 1) && decide ((t.pair 0).group = 1) && decide ((t.pair 0).group1 = 0) && decide ((t.ctx 0).a = 7),
      after (exec (.letRollback 0 .stagger false true true) one) fun t =>
        decide ((t.pair 0).divcnt = 1) && decide ((t.pair 0).group1 = 1) && decide ((t.pair 0).letcnt = 0),
      decide ((splitThrice.pair 0).st = .split), letsSplit .parity,
      decide (slotCtx splitThrice 0 true = some 0), decide (3 ≤ (splitThrice.pair 0).groupOf true), pairWorks splitThrice 0,
      calmB (withLine false), pairWorks (withLine false) 0, decide (((withLine false).pair 0).st = .active),
      (l2Find (withLine false) 0 5).isSome,
      after (exec (.letRollback 0 (.miscompareLine 5 true) false false false) (withLine false)) fun t => t.caches.l2.isEmpty &&
        t.caches.l3.isEmpty && decide (t.fcr.log.length = 1) && decide ((t.pair 0).letcnt = 0),
      after (exec (.letRollback 0 (.miscompareLine 5 true) false false false) (withLine true)) fun t => t.caches.l2.isEmpty &&
        decide (t.caches.poison = [5]) && decide (t.fcr.log.length = 1),
      !pairWorks one 16,
      after (exec (.letRollback 16 .stagger false false false) one) fun t => decide (t = one)] = true := by decide +kernel

theorem test_meets_PairCommands :
    checks [calmB one, pairWorks one 0, decide ((one.pair 0).st = .active), (List.range 18).all fun q => (one.pair q).subst.isNone,
      decide (benchPair one = some 16),
      after (exec (.umpireCodeError 0 true) one) fun t => decide ((t.pair 0).st = .substituting) && decide ((t.pair 0).lastlet.reason = 6) &&
        (t.pair 0).lastlet.slot && decide ((t.pair 0).subst.map (·.bench) = some (some 16)),
      pairWorks (substituting false) 1, substServed (substituting false),
      after (exec (.umpireCodeError 1 false) (substituting false)) fun t => decide ((t.pair 1).st = .substituting) &&
        decide ((t.pair 1).subst.map (·.bench) = some none),
      calmB (substituting false),
      decide ((pairNums.find? fun q => decide (((substituting false).pair q).subst.bind (·.bench) = some 16)) = some 0),
      after (exec (.benchSelfTestDone 16 true) (substituting false)) fun t => decide ((t.pair 0).subst.map (·.passed) = some true),
      decide ((pairNums.find? fun q => decide ((benched.pair q).st = .bench) && !(benched.pair q).failed && decide (q ≠ 16)) = some 17),
      after (exec (.benchSelfTestDone 16 false) benched) fun t => decide ((t.pair 16).st = .fenced) && (t.pair 16).failed &&
        decide ((t.pair 0).subst.map (·.bench) = some (some 17)) && decide (16 ∈ t.crp.kept.fenced),
      decide (((substituting true).pair 0).held = []),
      after (exec (.substitutionResume 0 100) (substituting true)) fun t => decide ((t.pair 16).st = .active) &&
        decide ((t.pair 16).slot0 = some 0) && decide ((t.pair 0).st = .fenced) && decide ((t.ctx 0).a = 7),
      decide (((handing true).pair 0).held = []),
      after (exec (.handoverComplete 0) (handing true)) fun t => decide ((t.pair 0).st = .split) && decide ((t.mb 5).st = .done),
      after (exec (.handoverComplete 0) (handing false)) fun t => decide ((t.pair 0).st = .active),
      reachesB up .mgmt (slotOff 0 false (0x3000#14).toNat) (.slot 0 false (0x3000#14).toNat),
      decide (slotCtx up 0 false = some 0), !slotHeld up 0, !(up.pair 0).gated,
      after (exec (.slotWindowWrite .mgmt 0 false 0x3000 0x2001) up) fun t => decide ((t.ctx 0).pc = 0x2000),
      reachesB up .mgmt (slotOff 0 false (0x3008#14).toNat) (.slot 0 false (0x3008#14).toNat),
      after (exec (.slotWindowWrite .mgmt 0 false 0x3008 9) up) fun t => decide ((t.ctx 0).a = 9),
      reachesB (substituting false) .mgmt (slotOff 0 false (0x3008#14).toNat) (.slot 0 false (0x3008#14).toNat),
      slotHeld (substituting false) 0,
      after (exec (.slotWindowWrite .mgmt 0 false 0x3008 9) (substituting false)) fun t =>
        decide ((t.pair 0).held.length = 1) && decide ((t.ctx 0).a = 7)] = true := by decide +kernel

/-- AUTO for pair 0, whose contexts are stopped. -/
def autoGate : State := { up with crp := { up.crp with auto := 1 } }

/-- Pair 0 is in GATE. -/
def gated : State := up.setPair 0 { up.pair 0 with gated := true }

/-- Context 0 is in NAP with its latch set. -/
def napping : State := up.setCtx 0 { ctxUp with run := .nap, waitLen := 4, wakeLatch := true }

theorem test_meets_ContextPower :
    checks [calmB autoGate, pairIdle autoGate 0,
      after (exec (.gateEntry 0 false) autoGate) fun t => (t.pair 0).gated,
      after (exec (.gateEntry 0 true) autoGate) fun t => !(t.pair 0).gated,
      after (exec (.gateExit 0) gated) fun t => !(t.pair 0).gated,
      wakeSource napping 0, !haltDue napping 0,
      after (exec (.napWake 0) napping) fun t => decide ((t.ctx 0).run = .run) && decide ((t.ctx 0).pc = 0x1004),
      after (exec (.contextReset 0) one) fun t => decide (t.ctx 0 = Ctx.reset),
      decide ((up.ctx 0).run = .stopped), (up.ctx 0).fresh, decide (up.dup.st ≠ .backup),
      after (exec (.contextRelease 0) up) fun t => (t.ctx 0).entering,
      after (exec (.contextWakeWrite 0) one) fun t => (t.ctx 0).wakeLatch] = true := by decide +kernel

/-! ## Event router -/

theorem test_meets_StaleEventDiscarded :
    checks [calmB up, flowsB up, blockSource 200, !blockSource 3, reservedSource 1023 || !blockSource 130, decide (up.inningsOf (0#8).toNat ≠ 1#12), decide (up.inningsOf (0#8).toNat = 0#12), !reservedSource 200,
      after (exec (.eventArrival 3 0 0) up) fun t => decide (t = up),
      after (exec (.eventArrival 200 0 1) up) fun t => decide (t.ert.pend = 0),
      after (exec (.eventArrival 200 0 0) up) fun t => bitOf t.ert.pend 200] = true := by decide +kernel

/-- 127 is taken, 128 is not. -/
theorem test_meets_MsixOutOfRangeDropped :
    checks [calmB up, after (exec (.msixWrite true 127) up) fun t => bitOf t.ert.pend 767 && decide (t.ert.msidrop = 0),
      after (exec (.msixWrite true 128) up) fun t => decide (t.ert.pend = 0) && decide (t.ert.msidrop = 1)] = true := by
  decide +kernel

theorem test_meets_PendingWrites :
    checks [!reservedSource 200, bitOf up.ert.mask 200, reachesB up .mgmt (0x100100 + 8 * (3 : Fin 16).val) (.ertPend 3),
      after (exec (.ertPendWrite .mgmt 3 0x100) { up with ert := { up.ert with pend := setBit (setBit 0 200 true) 201 true } })
        fun t => decide (t.ert.pend = setBit 0 201 true)] = true := by decide +kernel

/-- A delivery of source 130 in the slot of context 0, at an age. -/
def inSlot0 (age : Nat) : State :=
  setSlot up 0 (some { source := 130, prio := 5, vector := 7, hyp := false, age := age, arrived := false, lateMask := false })

/-- Context 0 serves source 130. -/
def serving : State :=
  setStack up 0 [{ source := 130, prio := 5, vector := 7, hyp := false, lateMask := false }]

theorem test_meets_EventRouterCommands :
    checks [decide (fld (srcOf up 3) 55 48 + 2 ≤ 2), !isLevel up 3, decide (bitOf up.ert.ball 3 ≠ true), decide (bitOf (srcOf up 3) 60 ≠ true),
      after (exec (.evtBallChange 3 true 2 false) up) fun t => bitOf t.ert.ball 3 && bitOf t.ert.pend 3,
      isLevel { up with ert := { up.ert with src := [(3, 0x2000000000000000#64)] } } 3,
      after (exec (.evtBallChange 3 true 2 false) { up with ert := { up.ert with src := [(3, 0x2000000000000000#64)] } }) fun t =>
        bitOf t.ert.ball 3 && decide (t.ert.pend = 0),
      calmB up, (slotAt (inSlot0 3) 0).isSome, !noCredit (inSlot0 3) .eventDelivery 0 0, decide (placeOf (inSlot0 3) 0 = some (0, false)),
      after (exec (.deliveryArrival 0) (inSlot0 3)) fun t => decide ((slotAt t 0).map (·.arrived) = some true),
      withdrawDue (inSlot0 25) 0,
      after (exec (.deliveryWithdrawal 0) (inSlot0 25)) fun t => (slotAt t 0).isNone && bitOf t.ert.pend 130,
      reachesB (inSlot0 25) .mgmt (0x100200 + 8 * (2 : Fin 16).val) (.ertMaskset 2),
      after (exec (.ertMasksetWrite .mgmt 2 4) (inSlot0 25)) fun t => (slotAt t 0).isNone,
      after (exec (.ertMasksetWrite .mgmt 2 4) (inSlot0 24)) fun t => decide ((slotAt t 0).map (·.lateMask) = some true),
      reachesB up .mgmt (0x100280 + 8 * (2 : Fin 16).val) (.ertMaskclr 2),
      after (exec (.ertMaskclrWrite .mgmt 2 4) up) fun t => !bitOf t.ert.mask 130 && bitOf t.ert.mask 131,
      reachesB up .mgmt 0x100400 .ertSwraise,
      after (exec (.ertSwraise .mgmt 1) up) fun t => decide (t.ert.pend = setBit 0 128 true),
      reachesB up .mgmt (0x102000 + 8 * (1023 : Fin 1024).val) (.ertSrc 1023),
      after (exec (.ertSrcWrite .mgmt 1023 0xDF0000000000#64) up) fun t => decide (srcOf t 1023 = 0xDF0000000000#64),
      after (exec (.ertSrcWrite .mgmt 1023 0xE00000000000#64) up) fun t => decide (srcOf t 1023 = 0) && decide (t.fcr.log.length = 1),
      reachesB serving (.ctx 0) 0x108008 .ertEoi, decide ((stackOf serving 0).length = 1),
      after (exec (.ertEoi 0) serving) fun t => decide (stackOf t 0 = []),
      reachesB up (.ctx 0) 0x108008 .ertEoi,
      after (exec (.ertEoi 0) up) fun t => bitOf t.ert.underflow 0,
      reachesB serving .mgmt (0x100808 + 0x40 * (0 : Fin 32).val) (.ertEoic 0),
      after (exec (.ertEoic .mgmt 0) serving) fun t => decide (stackOf t 0 = [])] = true := by decide +kernel

theorem test_meets_LeastBusyChosen : chooseCtx higher [] 131 = none ∧
    chooseCtx (setSlot higher 0 none) [] 131 = some 0 := by decide +kernel

/-! ## Fault collection -/

/-- A card of pair 0, kind 1: severity 1. -/
def aCard : FaultRec := { source := 0, kind := 1, inst := 3, copyLane := 1, address := 0x80, bound := none }

/-- Reactions in which source 0 is only logged. -/
def logOnly : State := { up with fcr := { up.fcr with react := [(0, 0#64)] } }

/-- Reactions in which severity 1 of source 0 interrupts, and the state in which the card is open. -/
def intOne : State := { up with fcr := { up.fcr with react := [(0, 0x100#64)] } }
def opened : State := match exec (.faultCard aCard) intOne with
  | .next t => t
  | _ => up

/-- Slots 5 and 6 hold keys. -/
def keyed : State :=
  let k : KeySlot := { ktype := 0, key := List.replicate 16 0, counter := 1, kcv := 0 }
  { up with ciph := { up.ciph with slots := [(5, some k), (6, some k)] } }

/-- Mailbox 9 runs a command. -/
def firmwareRuns : State := up.setMb 9 { Mailbox.reset 9 with st := .running }

theorem test_meets_FaultCommands :
    checks [calmB up, decide (severity aCard.source aCard.kind.toNat = some 1), decide (actionOf (reactOf logOnly aCard.source) 1 = 0),
      decide (actionOf (reactOf intOne aCard.source) 1 = 1),
      !pinOf (reactOf intOne aCard.source) 1,
      !keyOf (reactOf intOne aCard.source) 1, (openCard up 1).isNone,
      after (exec (.faultCard aCard) intOne) fun t =>
        decide ((openCard t 1).map (fun o => (o.source, o.inst, o.copyLane, o.address)) = some (0, 3, 1, 0)) && bitOf t.ert.pend 265,
      after (exec (.faultCard aCard) logOnly) fun t => decide (t.fcr.log.length = 1) && (openCard t 1).isNone,
      calmB keyed, !intOne.fcr.pulse, flowsB intOne, flowsB logOnly,
      after (exec (.faultCard { aCard with source := 306, kind := 3, address := 5 }) keyed) fun t => (keySlot t 5).isNone && (keySlot t 6).isSome,
      (firmwareRuns.mb 9).busy,
      after (exec (.faultCard { aCard with source := 320, kind := 1, address := 9 }) firmwareRuns) fun t =>
        decide ((t.mb 9).st = .failed) && decide ((t.mb 9).code = 0x0B),
      reachesB opened .mgmt 0x200008 .fcrClose, (openCard opened (fld 1#64 1 0)).isSome,
      after (exec (.fcrClose .mgmt 1) opened) fun t => (openCard t 1).isNone && decide (t.fcr.log.length = 1),
      reachesB up .mgmt 0x200010 .fcrPin,
      after (exec (.fcrPinWrite .mgmt 1) up) fun t => t.fcr.hold,
      after (exec .nerrPulseEnd { up with fcr := { up.fcr with pulse := true } }) fun t => !t.fcr.pulse,
      after (exec (.mgmtLinkError true) up) fun t => decide ((t.fcr.cnt.get 167 0#32) = 1),
      after (exec .watchdogRestart up) fun t => decide ((t.fcr.cnt.get 320 0#32) = 1)] = true := by decide +kernel

/-! ## Service processor -/

/-- A mailbox in a state. -/
def inState (st : MbSt) : Mailbox := { Mailbox.reset 5 with st := st, phase := true, tag := 9, progress := 4, res := [(0, 1#64)] }

/-- Mailboxes in six states. -/
def sixBoxes : State :=
  ((((((up.setMb 1 (inState .accepted)).setMb 2 (inState .running)).setMb 3 (inState .partialSt)).setMb 4 (inState .done)).setMb
    62 (inState .failed)).setMb 63 (inState .refused))

theorem test_meets_SpResetEndsCommands :
    checks [calmB sixBoxes, !bitOf sixBoxes.crp.brstat 8,
      after (exec (.blockReset .sp) sixBoxes) fun t =>
        [1, 2, 3].all (fun n => decide (t.mb n = { inState .failed with code := 0x0A, res := [] })) &&
          [0, 4, 62, 63].all fun n => decide (t.mb n = sixBoxes.mb n)] = true := by decide +kernel

/-- A command area: a header with an opcode, a tag, ARG_WORDS and LAST, then the argument words. -/
def cmdWords (op : Nat) (last : Bool) (args : List Word) : List Word :=
  w64 (op * 2 ^ 48 + 0x77 * 2 ^ 32 + args.length * 2 ^ 24 + b2n last * 2 ^ 23) :: args

/-- Mailbox 5 runs a command of the management link that the firmware has not taken up. -/
def cmdBox (op : Nat) (last : Bool) (args : List Word) : Mailbox :=
  { Mailbox.reset 5 with
      st := .running
      cap := some { words := cmdWords op last args, req := .mgmt, inst := 0 }
      start := (cmdWords op last args).headD 0 }

/-- The firmware runs. -/
def fwUp : State := { up with sp := { up.sp with fw := .running } }

/-- Mailbox 5 with a command area written, in a state. -/
def written (st : MbSt) (op : Nat) (args : List Word) : State :=
  fwUp.setMb 5 { cmdBox op false args with st := st, cmd := (List.range (args.length + 1)).zip (cmdWords op false args) }

/-- A state of a mailbox holds of the next state of a command. -/
def mbIs (n : Nat) (st : MbSt) (code : Nat) (t : State) : Bool := decide ((t.mb n).st = st) && decide ((t.mb n).code.toNat = code)

theorem test_meets_Mailboxes :
    checks [reachesB (written .idle 0x0700 []) .mgmt (0x400 * (5 : Fin 64).val + 0x308) (.mbGo 5),
      after (exec (.mbGoStart .mgmt 5) (written .idle 0x0700 [])) fun t => mbIs 5 .accepted 0 t && decide ((t.mb 5).tag = 0x77) &&
        (t.mb 5).phase && decide ((t.mb 5).opcode = 0x0700),
      reachesB (written .running 0x0700 []) .mgmt (0x400 * (5 : Fin 64).val + 0x308) (.mbGo 5),
      after (exec (.mbGoStart .mgmt 5) (written .running 0x0700 [])) fun t => (t.mb 5).goIgnored && mbIs 5 .running 0 t,
      reachesB (written .partialSt 0x0602 []) .mgmt (0x400 * (5 : Fin 64).val + 0x308) (.mbGo 5),
      after (exec (.mbGoContinue .mgmt 5) (written .partialSt 0x0602 [])) fun t => mbIs 5 .running 0 t && (t.mb 5).chunk,
      reachesB (written .accepted 0x0700 []) .mgmt (0x400 * (5 : Fin 64).val + 0x308) (.mbGo 5),
      after (exec (.mbGoAbort .mgmt 5) (written .accepted 0x0700 [])) (mbIs 5 .failed 7),
      calmB (written .accepted 0x0700 []), decide (refusal (written .accepted 0x0703 []) ((written .accepted 0x0703 []).mb 5) = some 2),
      after (exec (.commandCheck 5) (written .accepted 0x0703 [])) (mbIs 5 .refused 2),
      decide (refusal (written .accepted 0x0700 []) ((written .accepted 0x0700 []).mb 5) = none),
      after (exec (.commandCheck 5) (written .accepted 0x0700 [])) fun t => (t.mb 5).checked && mbIs 5 .accepted 0x0C t,
      match exec (.commandCheck 5) (written .accepted 0x0700 []) with
      | .next t => calmB t && decide ((busyMbs t).length < 8) && decide (nextCommand t = some 5) &&
          decide ((t.mb 5).opcode ≠ 0x0602) && after (exec .commandDispatch t) (mbIs 5 .running 0)
      | _ => false,
      reachesB (written .done 0x0602 []) .mgmt (0x400 * (5 : Fin 64).val + 0x308) (.mbGo 5),
      after (exec (.mbGoContinue .mgmt 5) (written .done 0x0602 [])) fun t => (t.mb 5).goIgnored,
      reachesB (written .running 0x0700 []) .mgmt (0x400 * (5 : Fin 64).val + 0x308) (.mbGo 5),
      !abortable (written .running 0x0500 []) ((written .running 0x0500 []).mb 5),
      after (exec (.mbGoAbort .mgmt 5) (written .running 0x0500 [])) fun t => (t.mb 5).goIgnored && mbIs 5 .running 0 t,
      !noCredit (written .accepted 0x0700 []) .mailbox 5 0,
      match exec (.commandCheck 5) (written .accepted 0x0602 [1, 2, 3, 4]) with
      | .next t => calmB t && decide (nextCommand t = some 5) && decide ((t.mb 5).opcode = 0x0602)
      | _ => false] = true := by decide +kernel

/-! ## The command set -/

/-- The state with a command of mailbox 5 that is taken up next. -/
def cmd (s : State) (op : Nat) (args : List Word) : State := s.setMb 5 (cmdBox op false args)

/-- The last chunk of a command. -/
def cmdLast (s : State) (op : Nat) (args : List Word) : State := s.setMb 5 (cmdBox op true args)

/-- Mailbox 5 runs a command at a step of its own. -/
def cmdAt (s : State) (op : Nat) (args : List Word) (step aux : Nat) : State :=
  s.setMb 5 { cmdBox op false args with step := step, aux := aux }

/-- A command is taken up, and what it leaves. -/
def takesUp (s : State) (op : Nat) (i : Instr) (p : State → Bool) : Bool := quiet s && takesUpB s 5 op && after (exec i s) p

/-- The channels but one. -/
def without (n : Nat) (st : ChSt) : State := { fwUp with memc := { fwUp.memc with ch := [(n, st)] } }

/-- Pair 0 is SPLIT. -/
def splitUp : State := fwUp.setPair 0 { fwUp.pair 0 with st := .split }

theorem test_meets_DcsPairsMemory :
    checks [takesUp (cmd fwUp 0x0100 [0]) 0x0100 (.substitute 5) fun t => decide ((t.pair 0).st = .substituting) &&
        decide ((t.pair 0).subst = some { bench := some 16, told := true, passed := false, mb := some 5, turn := 1 }),
      takesUp (cmd fwUp 0x0101 [15]) 0x0101 (.splitPair 5) fun t => decide ((t.pair 15).handover = some { toSplit := true, mb := some 5 }) &&
        decide ((t.pair 15).st = .handover),
      takesUp (cmd splitUp 0x0102 [0]) 0x0102 (.joinPair 5) fun t => decide ((t.pair 0).handover = some { toSplit := false, mb := some 5 }) &&
        decide ((t.pair 0).st = .handover),
      takesUp (cmd fwUp 0x0200 [0x11102, 15]) 0x0200 (.wayDelete 5) fun t => mbIs 5 .done 0 t &&
        decide (t.caches.l2del.get 17 0#32 = 0x80000000#32) && decide (t.crp.kept.l2del = t.caches.l2del),
      !stray (cmdBox 0x0200 false [0x11102, 15]) [(1, 0xF11F03#64)], !l2Deleted fwUp 17 15, decide (waysLeft fwUp false 17 ≠ 1),
      !bitOf fwUp.caches.l2lock 15,
      takesUp (cmd fwUp 0x0200 [0xF00003, 31]) 0x0200 (.wayDelete 5) fun t => mbIs 5 .done 0 t &&
        decide (t.caches.l3del.get 15 0#32 = 0x80000000#32),
      !stray (cmdBox 0x0200 false [0xF00003, 31]) [(1, 0xF11F03#64)], decide (waysLeft fwUp true 15 ≠ 1),
      othersOnline fwUp 11, flowsB fwUp, !othersOnline (without 3 .offline) 11,
      takesUp (cmd fwUp 0x0201 [11]) 0x0201 (.memChannelOffline 5) fun t => mbIs 5 .done 0 t && decide (t.chst 11 = .offline) &&
        bitOf t.ert.pend 287,
      takesUp (cmd (without 11 .offline) 0x0202 [11]) 0x0202 (.memChannelRebuild 5 .trained) fun t => mbIs 5 .running 0 t &&
        decide (t.chst 11 = .rebuilding) && decide ((t.mb 5).step = 2) && decide ((t.mb 5).aux = 11),
      calmB (cmdAt (without 11 .rebuilding) 0x0202 [11] 2 11), running (cmdAt (without 11 .rebuilding) 0x0202 [11] 2 11) 5 0x0202,
      after (exec (.memChannelRebuild 5 (.advance 3 2)) (cmdAt (without 11 .rebuilding) 0x0202 [11] 2 11)) fun t =>
        decide (t.memc.ptr.get 11 0 = 24576) && decide ((t.mb 5).progress = 3),
      after (exec (.memChannelRebuild 5 .finished) (cmdAt (without 11 .rebuilding) 0x0202 [11] 2 11)) fun t =>
        decide (t.chst 11 = .online) && mbIs 5 .done 0 t] = true := by decide +kernel

/-- Bytes n, n + 1, … -/
def rise (n k : Nat) : List Byte := (List.range k).map fun i => BitVec.ofNat 8 (n + i)

/-- The bytes of a hexadecimal number of n bytes, the first byte at the top. -/
def hex (n v : Nat) : List Byte := beBytes n v

/-- A key of a slot. -/
def aKey (ty : Nat) (key : List Byte) : KeySlot := { ktype := BitVec.ofNat 4 ty, key := key, counter := 1, kcv := 0 }

/-- Slot 7 holds the key-encryption key of RFC 3394, 4.1. -/
def kekUp : State := { fwUp with ciph := { fwUp.ciph with slots := [(7, some (aKey 0 (rise 0 16)))] } }

/-- The wrapped key of RFC 3394, 4.1, as three words. -/
def wrapped41 : List Word := bytesWords 24 (hex 24 0x1FA68B0A8112B447AEF34BD8FB5A7B829D3E862371D2CFE5)

/-- The key that it wraps. -/
def plain41 : List Byte := hex 16 0x00112233445566778899AABBCCDDEEFF

/-- A table of one field of 8 bytes (R274). -/
def tab8 : List Byte := wordsBytes [0x10008, 0x80000]

/-- Instance 4 exists and owns context 3. -/
def inst4 : State :=
  let s := fwUp.setInst 4 { Inst.reset 4 with present := true, innings := 0xFFF }
  { s with insts := { s.insts with ctxown := [(3, 4#8)] } }.setCtx 3 { ctxUp with a := 77, pc := 0x2000 }

/-- A reset of instance 2 waits for its work in mailbox 5. -/
def drainsTwo : State :=
  (cmdAt fwUp 0x0401 [2] 1 0).setInst 2 { fwUp.inst 2 with phase := .draining, drainMb := some 5 }

theorem test_meets_DcsKeysTablesInstances_keys :
    checks [takesUp (cmd kekUp 0x0300 ([256, 7] ++ wrapped41)) 0x0300 (.keyLoad 5) fun t => mbIs 5 .done 0 t &&
        decide ((keySlot t 256).map (·.key) = some plain41) && (keySlot t 7).isSome,
      decide (kwUnwrap (rise 0 16) (wordsBytes wrapped41) = some plain41),
      decide ((cmdBox 0x0300 false ([256, 7] ++ wrapped41)).argWords = 2 + wrappedLen 0 / 8),
      !stray (cmdBox 0x0300 false ([256, 7] ++ wrapped41)) [(1, 0xF0FFF#64), (2, 0xFFFF#64)],
      decide (kekOf kekUp 7 = some (rise 0 16)), !inAlarm kekUp, (keySlot kekUp 256).isNone,
      takesUp (cmd kekUp 0x0301 [7, 1]) 0x0301 (.keyErase 5) fun t => mbIs 5 .done 0 t && (keySlot t 7).isNone && bitOf t.ert.pend 274,
      takesUp (cmd kekUp 0x0301 [8, 4088]) 0x0301 (.keyErase 5) fun t => (keySlot t 7).isSome] = true := by decide +kernel

theorem test_meets_DcsKeysTablesInstances_tables :
    checks [takesUp (cmdLast fwUp 0x0302 ([0x1F000A, 16] ++ bytesWords 16 tab8)) 0x0302 (.formatLoad 5) fun t => mbIs 5 .done 0 t &&
        (zipTable t 0 31).isNone && decide ((zipTable t 1 31).map (·.bytes) = some tab8) && (zipTable t 2 31).isNone &&
        decide ((zipTable t 3 31).map (·.bytes) = some tab8),
      !stray (cmdBox 0x0302 true ([0x1F000A, 16] ++ bytesWords 16 tab8)) [(1, 0x1F000F#64)], !tableInUse fwUp 10 31, tableOk tab8,
      decide (takeChunk [] (bytesWords 16 tab8) 16 true = .complete tab8),
      decide (takeChunk [] (bytesWords 16 (tab8.take 8)) 16 false = .more (tab8.take 8)),
      takesUp (cmd fwUp 0x0302 ([0x1F000A, 16] ++ bytesWords 16 (tab8.take 8))) 0x0302 (.formatLoad 5) fun t => mbIs 5 .partialSt 0 t &&
        decide ((t.mb 5).buf = tab8.take 8)] = true := by decide +kernel

theorem test_meets_DcsKeysTablesInstances_instances :
    checks [takesUp (cmd fwUp 0x0400 [255, 0x014040, 0xFFFFFFFF, 65536, 1, 1, 0xFFFFFFFF, 65536]) 0x0400 (.instanceCreate 5) fun t =>
        mbIs 5 .done 0 t && (t.inst 255).present && decide (tokensOf t 255 1 = 1024) && decide (rateOf t 255 1 = 1) &&
          decide (tokensOf t 255 0 = 67108864),
      !badWeight 0x014040, !badBucket (bucketWord 0xFFFFFFFF 65536) false, !badBucket (bucketWord 1 1) true, !(fwUp.inst 255).present,
      !stray (cmdBox 0x0400 false [255, 0x014040, 0xFFFFFFFF, 65536, 1, 1, 0xFFFFFFFF, 65536])
        [(2, 0x7F7F7F#64), (3, 0xFFFFFFFF#64), (4, 0xFFFFFF#64), (5, 0xFFFFFFFF#64), (6, 0xFFFFFF#64), (7, 0xFFFFFFFF#64), (8, 0xFFFFFF#64)],
      takesUp (cmd inst4 0x0401 [4, 0x1FFF]) 0x0401 (.instanceReset 5) fun t => mbIs 5 .running 0 t && decide ((t.inst 4).innings = 0) &&
        decide ((t.inst 4).phase = .resetting) && decide ((t.inst 4).drainMb = some 5) && decide ((t.ctx 3).run = .run),
      takesUp (cmd inst4 0x0401 [4, 0x1FFF]) 0x0401 (.instanceReset 5) fun t => calmB t && running t 5 0x0401 &&
        after (exec (.instanceReset 5) t) fun u => mbIs 5 .done 0 u && decide ((u.inst 4).phase = .idle) &&
          decide ((u.ctx 3).run = .stopped) && decide ((u.ctx 3).a = 77) && decide ((u.ctx 3).pc = 0x2000),
      bitOf (0x1FFF#64) 12, flowsB drainsTwo,
      decide ((inst4.inst 4).innings = (0x1FFF#64).extractLsb' 0 12),
      !stray (cmdBox 0x0401 false [4, 0x1FFF]) [(1, 0x1FF#64), (2, 0x1FFF#64)],
      calmB drainsTwo, decide ((drainsTwo.inst 2).drainMb = some 5), decide (workLeft drainsTwo 2 = 0),
      after (exec (.instanceDrainComplete 2) drainsTwo) fun t => mbIs 5 .done 0 t && decide ((t.inst 2).innings = 1) &&
        decide ((t.inst 2).phase = .idle) && bitOf t.ert.pend 275,
      reachesB inst4 .mgmt (0x7000100 + 8 * (31 : Fin 32).val) (.instCtxown 31),
      after (exec (.instCtxownWrite .mgmt 31 4) inst4) fun t => decide (t.owner 31 = 4),
      after (exec (.instCtxownWrite .mgmt 31 5) inst4) fun t => decide (t.owner 31 = 0) && decide (t.fcr.log.length = 1)] = true := by
  decide +kernel

/-- A state whose time count is S seconds. -/
def atSec (s : State) (n : Nat) : State := { s with time := { s.time with count := BitVec.ofNat 160 (n * 2 ^ 96) } }

/-- A package, whose signature is a free value. -/
def aPackage : Package := { bytes := [1], version := 9, minimum := 70 }

/-- The firmware with a package staged. -/
def stagedUp : State := { fwUp with sp := { fwUp.sp with staged := some aPackage, running := 8 } }

/-- FW_ACTIVATE has been taken up and waits for the drain; mailbox 6 runs a command. -/
def activating : State :=
  let s := (cmdAt stagedUp 0x0601 [1000000] 1 0).setMb 6 (cmdBox 0x0602 false [1, 2, 3, 4])
  { s with sp := { s.sp with activateMb := some 5, old := 8 } }

/-- The image switch is under way. -/
def switching : State := { cmdAt stagedUp 0x0601 [0] 1 0 with sp := { stagedUp.sp with fw := .switching, activateMb := some 5, old := 8 } }

/-- Sequencer n is updated next. -/
def updating (n : Nat) : State :=
  { cmdAt stagedUp 0x0601 [0] 2 0 with sp := { stagedUp.sp with activateMb := some 5, old := 7, seqDone := n } }

theorem test_meets_DcsTimeFirmware_time :
    checks [takesUp (cmd (atSec fwUp 3) 0x0500 [7, 8, 0x2]) 0x0500 (.todSet 5) fun t => mbIs 5 .done 0 t && decide (t.tod = 7#64 ++ 8#64) && t.time.set && decide (t.time.steps = 1) && !t.time.clkfault,
      !stray (cmdBox 0x0500 false [7, 8, 0x2]) [(3, 0xFFFF0003#64)],
      takesUp (cmd fwUp 0x0500 [7, 8, 0x1]) 0x0500 (.todSet 5) fun t => decide (t.time.setAtPps = some 5) && decide (t.tod = 0),
      calmB { cmdAt fwUp 0x0500 [7, 8, 1] 1 0 with time := { fwUp.time with setAtPps := some 5 } },
      running (cmdAt fwUp 0x0500 [7, 8, 1] 1 0) 5 0x0500,
      after (exec (.todSetNoPps 5) { cmdAt fwUp 0x0500 [7, 8, 1] 1 0 with time := { fwUp.time with setAtPps := some 5 } }) fun t =>
        mbIs 5 .failed 0x53 t && t.time.setAtPps.isNone,
      takesUp (cmd fwUp 0x0501 [0xFFFFFFFF80000000, 0xFFFFFFFF80000000, 1]) 0x0501 (.todSteer 5) fun t => mbIs 5 .running 0 t &&
        decide (t.time.trim = 0x80000000) && decide (t.time.steerOff = -2147483648) && t.time.slewing,
      decide (0xFFFFFFFF80000000#64 = BitVec.ofInt 64 (signedOf 32 (0xFFFFFFFF80000000#64).toNat)),
      decide ((0xFFFFFFFF80000000#64).toInt.natAbs ≤ 2 ^ 31),
      takesUp (cmd fwUp 0x0501 [5, 0, 1]) 0x0501 (.todSteer 5) fun t => mbIs 5 .done 0 t && !t.time.slewing,
      takesUp (cmd fwUp 0x0502 [31, 0x0000FFF000000001, 0x0000001000000002]) 0x0502 (.sensorCalibrate 5) fun t => mbIs 5 .done 0 t &&
        decide ((t.crp.kept.curves.get 31 none).map (·.length) = some 2),
      rising ([0x0000FFF000000001#64, 0x0000001000000002#64].map calPoint)] = true := by decide +kernel

theorem test_meets_DcsTimeFirmware_firmware :
    checks [decide (takeChunk [] [0x0102030405060708#64] 8 true = .complete (leBytes 8 0x0102030405060708)),
      quiet (cmdLast fwUp 0x0600 [8, 0x0102030405060708]), takesUpB (cmdLast fwUp 0x0600 [8, 0x0102030405060708]) 5 0x0600,
      takesUp (cmd fwUp 0x0600 [12, 0x0102030405060708]) 0x0600 (.fwStage 5) (mbIs 5 .partialSt 0),
      takesUp ((cmd stagedUp 0x0601 [1000000]).setMb 6 (cmdBox 0x0602 false [1, 2, 3, 4])) 0x0601 (.fwActivate 5) fun t =>
        decide (t.sp.activateMb = some 5) && mbIs 5 .running 0 t && decide (t.sp.fw = .running),
      takesUp (cmd stagedUp 0x0601 [0]) 0x0601 (.fwActivate 5) fun t => decide (t.sp.fw = .switching) && decide (t.sp.old = 8),
      calmB activating, decide (activating.sp.activateMb = some 5), decide ((activating.mb 5).step = 1),
      after (exec .fwDrainLimitExpiry activating) fun t => decide (t.sp.fw = .switching) && mbIs 6 .failed 8 t] = true := by decide +kernel

/-! A sequencer's 65,536 subchannels are not walked here. -/

theorem test_meets_DcsTimeFirmware_activation :
    checks [calmB switching, after (exec (.fwImageSwitchDone true) switching) fun t => decide (t.sp.fw = .running) && decide (t.sp.running = 9) &&
        decide ((t.mb 5).step = 2) && decide (t.chan.seqstat = 1),
      after (exec (.fwImageSwitchDone false) switching) fun t => decide (t.sp.running = 8) && mbIs 5 .failed 0x59 t,
      calmB (updating 0), flowsB (updating 6), decide ((updating 6).dup.st ≠ .takingOver),
      calmB (updating 6), calmB (updating 7), decide ((updating 6).sp.seqDone < 7), decide ((updating 7).sp.seqDone = 7),
      (let s := { updating 6 with dup := { (updating 6).dup with st := .takingOver } }
       calmB s && after (exec .sequencerUpdateStep s) fun t => decide (t = s)),
      decide ((updating 0).sp.fw = .running) && decide ((updating 0).sp.seqDone = 0) && decide (((updating 0).mb 5).step = 2)] = true := by decide +kernel

theorem test_meets_DcsTimeFirmware_reports :
    checks [takesUp (cmd fwUp 0x0602 [1, 2, 3, 4]) 0x0602 (.attest 5) fun t => mbIs 5 .done 0 t,
      takesUp (fwUp.setMb 5 { cmdBox 0x0602 false [1, 2, 3, 4] with out := List.replicate 64 1 }) 0x0602 (.attest 5) fun t =>
        mbIs 5 .partialSt 0 t && decide ((t.mb 5).out = [1]) && decide ((t.mb 5).res.get 63 0 = 1),
      takesUp (cmd { fwUp with fcr := { fwUp.fcr with log := [{ seq := 3, words := List.replicate 12 5 }] } } 0x0603 [3, 9, 1]) 0x0603
        (.faultLogRead 5) fun t => mbIs 5 .done 0 t && decide (t.fcr.log = []) && decide ((t.mb 5).res.get 12 0 = 5),
      takesUp (cmd fwUp 0x0603 [3, 9, 1]) 0x0603 (.faultLogRead 5) fun t => mbIs 5 .done 0 t] = true := by decide +kernel

theorem test_meets_DcsTimeFirmware_warmReset :
    checks [takesUp ((cmd fwUp 0x0700 []).setCtx 0 ctxUp) 0x0700 (.warmReset 5) fun t =>
        mbIs 5 .done 0 t && decide ((t.ctx 0).a = 0),
      (let s := (cmd fwUp 0x0700 []).setCtx 0 { ctxUp with rep := true }
       midPrefix s 0 && takesUp s 0x0700 (.warmReset 5) fun t => decide (t.sp.warmMb = some 5) && decide ((t.ctx 0).run = .run) &&
         !t.chan.quiesce),
      running ((cmdAt fwUp 0x0700 [] 1 0).setMb 6 (cmdBox 0x0602 false [1, 2, 3, 4])) 5 0x0700,
      after (exec .warmResetWaitExpiry ((cmdAt fwUp 0x0700 [] 1 0).setMb 6 (cmdBox 0x0602 false [1, 2, 3, 4]))) (mbIs 6 .failed 0x0A),
      takesUp (cmd fwUp 0x0800 [0x4000008, 0xFFFF, 0x3FFF]) 0x0800 (.lkWrite 5) fun t => mbIs 5 .done 0 t &&
        decide (t.chan.modid = 0x3FFF),
      decide (regAt 0x4000008 = some .chanModid), regMapped fwUp .chanModid, decide (lkMask .chanModid = some 0x3FFF)] = true := by
  decide +kernel

/-! ## Channel subsystem -/

/-- Memory with words written. -/
def poke (m : List Host.Cell) (a : Nat) (l : List Word) : List Host.Cell := Memory.writes m a (wordsBytes l)

/-- Subchannel 8 of instance 0: remote subchannel 9 of module 7, depth 2, all ports, OP_IDs at 4000h; its state and its
next sequence numbers; and an operation block at 8000h. -/
def chanMem (st tx rx : Nat) (opb : List Word) : List Host.Cell :=
  poke (poke [] 0x200 [w64 (9 * 2 ^ 48 + 7 * 2 ^ 32 + 2 * 2 ^ 24 + 0xF0), 0, w64 tx, w64 rx, 0, 0x4000, w64 (if st = 0 then 0 else st)])
    0x8000 opb

/-- A port that is up. -/
def upPort : Port := { Port.reset with st := .up, en := true, credits := [32, 32, 64, 32] }

/-- The channel of module 5 with port 0 up, no limit on the C0 messages of instance 0, and the ring of instance 0 at 10000h with 64 entries. -/
def chanUp (st tx rx : Nat) (opb : List Word) : State :=
  let s := (up.setPort 0 upPort).setInst 0 { up.inst 0 with bktch := 0xFFFFFFFF00010000 }
  { s with mem := chanMem st tx rx opb, chan := { s.chan with
      en := true, modid := 5, jour := [(0, { Journal.reset with base := 0x10000, cfg := 6 })] } }

/-- The address of a register of subchannel 8's doorbell. -/
def db8 : Nat := 0x4100000 + 8 * (8#16 : BitVec 16).toNat

/-- A SEND of 3 bytes from 9000h, and a RECEIVE of 16 bytes. -/
def sendOpb : List Word := [0x81, 0xAB, 0, 0x9000, 3]
def recvOpb : List Word := [2, 0xCD, 0, 0xA000, 16]

/-- The next state, or the state. -/
def stepTo (i : Instr) (s : State) : State :=
  match exec i s with
  | .next t => t
  | _ => s

/-- A SEND of subchannel 8 has been accepted. -/
def sent : State := stepTo (.chanDoorbell .mgmt 8 0x8000 none) (chanUp 1 1 1 sendOpb)

/-- It is on the wire. -/
def wired : State := stepTo (.sendSchedule 0) sent

/-- A RECEIVE is posted. -/
def posting : State := stepTo (.chanDoorbell .mgmt 8 0x8000 none) (chanUp 1 1 1 recvOpb)

/-- Entry 0 of the ring is not OPEN, and JHEAD has passed it. -/
def oneDone : State :=
  let s := chanUp 1 2 1 []
  { s with mem := poke s.mem 0x10000 [w64 (1 + 1 * 2 ^ 50)] }.setJour 0 { s.jour 0 with head := 1 }

theorem test_meets_ChannelRegisters :
    checks [reachesB (chanUp 0 5 5 []) .mgmt 0x4000030 .chanBind, decide (Memory.wf (chanUp 0 5 5 []).mem), subReach (chanUp 0 5 5 []) 8,
      decide (sdState (chanUp 0 5 5 []) 8 = 0),
      after (exec (.chanBindFresh .mgmt 8) (chanUp 0 5 5 [])) fun t => decide (sdState t 8 = 1) && decide (txSeq t 8 = 1) &&
        decide (rxExpect t 8 = 1) && decide (t.chan.bindSub = 8),
      decide (firstPort (chanUp 2 5 5 []) 8 = some 0),
      after (exec (.chanBindSync .mgmt 8) (chanUp 2 5 5 [])) fun t => decide (sdState t 8 = 3) && decide ((t.port 0).out = [.syncReq 8]),
      (let s := (chanUp 2 5 5 []).setPort 0 Port.reset
       decide (firstPort s 8 = none) && reachesB s .mgmt 0x4000030 .chanBind &&
         after (exec (.chanBindSync .mgmt 8) s) fun t => decide (t.chan.unsent = [.syncReq 8])),
      after (exec (.chanBindFresh .mgmt 8) (chanUp 2 5 5 [])) fun t => decide (t = chanUp 2 5 5 []),
      after (exec (.chanUnbind .mgmt 8) (chanUp 1 1 1 [])) fun t => decide (t.chan.unbinding = [8]),
      decide (posting.chan.recvs.filter (fun o => decide (o.s ≠ 8)) = []),
      after (exec (.unbindComplete 8) (stepTo (.chanUnbind .mgmt 8) (chanUp 1 1 1 []))) fun t => decide (sdState t 8 = 0) &&
        decide (t.chan.unbinding = []),
      reachesB oneDone .mgmt (0x4001018 + 0x20 * (0 : Fin 256).val) (.chanJtail 0), decide (ringBits oneDone 0 = some 6), oneDone.inMemory (ringBase oneDone 0) (128 * 2 ^ 6),
      decide (ringEntries oneDone 0 = [0]), decide (fld (entryWord0 oneDone 0 0) 52 50 = 1),
      after (exec (.chanJtailWrite .mgmt 0 1) oneDone) fun t => decide ((t.jour 0).tail = 1),
      after (exec (.chanJtailWrite .mgmt 0 1) sent) fun t => decide ((t.jour 0).tail = 0) && decide (t.fcr.log.length = 1)] = true := by
  decide +kernel

theorem test_meets_Doorbells :
    checks [reachesB (chanUp 1 1 1 sendOpb) .mgmt db8 (.chanDb 8), opbReach (chanUp 1 1 1 sendOpb) 0x8000, subReach (chanUp 1 1 1 sendOpb) 8, !(chanUp 1 1 1 sendOpb).refusesWork 0,
      decide (reqInst (chanUp 1 1 1 sendOpb) .mgmt = sdInst (chanUp 1 1 1 sendOpb) 8), decide (sdState (chanUp 1 1 1 sendOpb) 8 = 1),
      decide (queued (chanUp 1 1 1 sendOpb) 8 < sdDepth (chanUp 1 1 1 sendOpb) 8), !ringFull (chanUp 1 1 1 sendOpb) 0,
      !badOpb (sendOpb ++ [0, 0, 0]), !badOpb (recvOpb ++ [0, 0, 0]), decide (txSeq (chanUp 1 1 1 sendOpb) 8 < 2 ^ 48),
      decide (((List.range 8).map fun k => Memory.word (chanUp 1 1 1 sendOpb).mem (0x8000 + 8 * k)) = sendOpb ++ [0, 0, 0]),
      decide (sent.chan.sends.map (fun o => (o.s, o.opb, o.opid, o.seq.toNat, o.length)) = [(8, 0x8000, 0xAB, 1, 3)]),
      decide (sent.chan.sends.map (·.st) = [.queued]), decide (txSeq sent 8 = 2), decide ((sent.jour 0).head = 1),
      decide (posting.chan.recvs.map (fun o => (o.s, o.opb, o.capacity)) = [(8, 0x8000, 16)]),
      issuesB (chanUp 1 1 1 sendOpb) (.ctx 0) db8, decide ((chanUp 1 1 1 sendOpb).inningsOf 0 ≠ 5),
      after (exec (.chanDoorbell (.ctx 0) 8 0x8000 (some { inst := 0, innings := 5 })) (chanUp 1 1 1 sendOpb)) fun t =>
        decide (t = chanUp 1 1 1 sendOpb),
      after (exec (.chanDoorbell (.ctx 0) 8 0x8000 (some { inst := 0, innings := 0 })) (chanUp 1 1 1 sendOpb)) fun t =>
        decide (t.chan.sends.length = 1),
      calmB sent, decide (chosenSend sent 0 = none), decide (sent.setPort 0 { sent.port 0 with chosen := none } = sent),
      decide (((sent.chan.sends.filter fun o => eligibleFlit sent 0 o && (sent.port 0).mayData 0 (linkClass sent o)).find?
        (firstTier sent)).map (·.opb) = some 0x8000),
      decide (wired.chan.sends.map (·.st) = [.onWire]), decide ((wired.port 0).chosen = some (8, 1)),
      (let s := sent.setInst 0 { sent.inst 0 with bktch := 0 }
       let l := s.chan.sends.filter fun o => eligibleFlit s 0 o && (s.port 0).mayData 0 (linkClass s o)
       (l.find? (firstTier s)).isNone && (secondTier s l).isSome &&
         after (exec (.sendSchedule 0) s) fun t => decide (t.chan.sends.map (·.demoted) = [true]))] = true := by decide +kernel

/-- A header of a message to subchannel 8 from its remote. -/
def hdr8 (seq : BitVec 48) (l : List Byte) : MsgHdr :=
  { cls := 0, seq := seq, dstMod := 5, srcMod := 7, dstSub := 8, srcSub := 9, opid := 0x77, length := BitVec.ofNat 17 l.length, crc := crc32c l }

theorem test_meets_ChannelMessages :
    checks [forUs posting (hdr8 1 [1, 2]), fromRemote posting (hdr8 1 [1, 2]), subReach posting 8, decide ((posted posting 8).length = 1),
      decide (rxExpect posting 8 = 1), !bitOf (rxMap posting 8) 0, !mirroring posting, decide (crc32c ([1, 2] : List Byte) = (hdr8 1 [1, 2]).crc), !ringFull posting (sdInst posting 8),
      decide (posting.chan.early ++ posting.chan.rxHeld = []),
      after (exec (.dataMessage 0 (hdr8 1 [1, 2]) [1, 2]) posting) fun t => decide ((t.port 0).out = [.ack (answer (hdr8 1 [1, 2]))]) &&
        decide (t.chan.recvs = []) && decide (Memory.bytes t.mem 0xA000 2 = [1, 2]) && decide (rxExpect t 8 = 2),
      calmB (chanUp 1 1 3 []),
      after (exec (.dataMessage 0 (hdr8 2 [1, 2]) [1, 2]) (chanUp 1 1 3 [])) fun t => decide ((t.port 0).out = [.ack (answer (hdr8 2 [1, 2]))]),
      after (exec (.dataMessage 0 (hdr8 2 [1, 2]) [1, 2]) (chanUp 0 1 3 [])) fun t => decide ((t.port 0).out = [.nak (answer (hdr8 2 [1, 2])) .refused]),
      (findSend wired 8 1).isSome, calmB wired,
      after (exec (.ackMessage (hdr8 1 [])) wired) fun t => decide (t.chan.sends = []) && decide ((Memory.word t.mem 0x8040).extractLsb' 0 8 = 1#8),
      after (exec (.nakMessage (hdr8 1 []) .rnr) wired) fun t => decide (t.chan.sends.map (·.st) = [.rnrWait]),
      decide (0 < limitOf wired 47 40), decide (1 < limitOf wired 31 24),
      after (exec (.nakMessage (hdr8 1 []) .badCrc) wired) fun t => decide (t.chan.sends.map (·.st) = [.queued]),
      flowsB wired, decide ((findSend wired 8 1).map (fun o => decide (wired.inningsOf o.inst.toNat = o.innings)) = some true),
      after (exec (.nakMessage (hdr8 1 []) .refused) wired) fun t => decide (t.chan.sends = []) && bitOf t.ert.pend 313 && decide (sdState t 8 = 2),
      after (exec (.syncReq 0 (hdr8 0 [])) (chanUp 2 1 3 [])) fun t => decide ((t.port 0).out.length = 1),
      after (exec (.syncReq 0 (hdr8 0 [])) (chanUp 0 1 3 [])) fun t => decide ((t.port 0).out = [.nak (answer (hdr8 0 [])) .refused]),
      decide (sdState (chanUp 3 1 3 []) 8 = 3),
      after (exec (.syncRsp (hdr8 0 []) 1 0 []) (chanUp 3 1 3 [])) fun t => decide (sdState t 8 = 1),
      after (exec (.syncRsp (hdr8 0 []) 1 1 [5]) (chanUp 3 1 3 [])) fun t => decide (sdState t 8 = 1) && decide (t.chan.unjournalled.length = 1) &&
        decide (txSeq t 8 = 2),
      after (exec (.syncSkip (hdr8 66 [])) (chanUp 1 1 3 [])) fun t => decide (rxMap t 8 = 0x8000000000000000) && decide (rxExpect t 8 = 3),
      decide (rxMap (chanUp 1 1 3 []) 8 = 0),
      after (exec (.syncSkip (hdr8 3 [])) (chanUp 1 1 3 [])) fun t => decide (rxExpect t 8 = 4),
      after (exec (.e2eTimeout 8 1) wired) fun t => decide (t.chan.sends.map (fun o => (o.st, o.counted)) = [(.queued, 1)]),
      (let s := { wired with chan := { wired.chan with cfg := 0x01000000 } }
       decide (limitOf s 31 24 ≤ 1) && after (exec (.e2eTimeout 8 1) s) fun t => decide (t.chan.sends = []) && bitOf t.ert.pend 313),
      (let s := stepTo (.nakMessage (hdr8 1 []) .rnr) wired
       calmB s && after (exec (.rnrRetryTimer 8 1) s) fun t => decide (t.chan.sends.map (fun o => (o.st, o.stay)) = [(.queued, true)])),
      (let s := sent.setPort 0 { sent.port 0 with st := .down }
       decide (upPorts s 8 = []) && after (exec (.nopathTimeout 8 1) s) fun t => decide (t.chan.sends = []) && bitOf t.ert.pend 313),
      after (exec (.syncTimeout 8) (chanUp 3 1 3 [])) fun t => decide (sdState t 8 = 2)] = true := by decide +kernel

/-- Port n is in a state. -/
def withPort (n : Nat) (x : Port) : State := up.setPort n x

/-- A DATA flit. -/
def dataOf (lseq : BitVec 12) (good : Bool) : Flit :=
  { ftype := 1, lseq := lseq, cls := 2, seg := 0, link := none, ackLseq := 0, ackValid := false, nak := false, credits := 0x1234, good := good }

/-- A port with a CONTROL flit and a DATA flit to replay. -/
def replayPort : Port :=
  { upPort with replay := [{ ftype := 2, lseq := 9, cls := 0, seg := 0, ctl := some .fenceFlit },
                           { ftype := 1, lseq := 10, cls := 1, seg := 0, ctl := none }] }

/-- What the last flit of a port was. -/
def lastIs (t : State) (n : Nat) (ftype lseq cls seg : Nat) : Bool :=
  decide ((t.port n).last.map (fun f => (f.ftype.toNat, f.lseq.toNat, f.cls.toNat, f.seg.toNat)) = some (ftype, lseq, cls, seg))

/-- A mirror record of one sector. -/
def aRecord : MirRec := .write 2 5 1#8 (List.replicate 16 7#8)

theorem test_meets_FlitWindows :
    checks [calmB (withPort 4 upPort), upPort.isUp, decide (soloRelease (withPort 4 upPort) = withPort 4 upPort),
      !copying (withPort 4 upPort),
      after (exec (.flitWindow 4) (withPort 4 upPort)) fun t => lastIs t 4 0 0 0 0 && decide ((t.port 4).txSeq = 0),
      after (exec (.flitWindow 0) (withPort 0 { replayPort with replaying := replayPort.replay })) fun t => lastIs t 0 2 9 0 0 &&
        decide ((t.port 0).replaying.length = 1) && decide ((t.port 0).replay = replayPort.replay),
      after (exec (.flitWindow 4) (withPort 4 { upPort with ctl := [.halfWidth] })) fun t => lastIs t 4 2 0 0 0 &&
        decide ((t.port 4).last.bind (·.link) = some .half) && decide ((t.port 4).txSeq = 1) && decide ((t.port 4).replay.length = 1),
      after (exec (.flitWindow 0) (withPort 0 { upPort with out := [.syncRsp (hdr8 0 []) 1 0 []] })) fun t =>
        lastIs t 0 1 0 0 1 && decide ((t.port 0).rest = 1) && decide ((t.port 0).out = []) && decide ((t.port 0).txSeq = 1),
      calmB wired, decide (soloRelease wired = wired), decide ((chosenSend wired 0).map (·.s) = some 8),
      after (exec (.flitWindow 0) wired) fun t => lastIs t 0 1 0 0 0 && decide ((t.port 0).chosen = none) &&
        decide (t.chan.sends.map (·.left) = [0]),
      ({ upPort with mir := [aRecord] } : Port).mayData 4 2,
      after (exec (.flitWindow 4) (withPort 4 { upPort with mir := [aRecord] })) fun t => lastIs t 4 1 0 2 0 &&
        decide ((t.port 4).mir = []),
      after (exec (.flitWindow 0) (withPort 0 upPort)) fun t => lastIs t 0 0 0 0 0] = true := by decide +kernel

theorem test_meets_LinksAndRootPorts :
    checks [calmB (withPort 4 upPort), flowsB (withPort 4 upPort),
      after (exec (.flitReceived 0 (dataOf 0 true)) (withPort 0 upPort)) fun t => decide ((t.port 0).rxSeq = 1) && (t.port 0).ackOwed &&
        decide ((t.port 0).credits = [36, 35, 66, 33]),
      after (exec (.flitReceived 0 (dataOf 0 false)) (withPort 0 upPort)) fun t => (t.port 0).nakOwed,
      after (exec (.flitReceived 3 (dataOf 0 true)) (withPort 3 { Port.reset with st := .training, trained := true, good := 63 })) fun t =>
        decide ((t.port 3).st = .up) && decide ((t.port 3).credits = [32, 32, 64, 32]) && bitOf t.ert.pend 283,
      after (exec (.linkReplayTimeout 0) (withPort 0 replayPort)) fun t => decide ((t.port 0).replaying = replayPort.replay) &&
        decide ((t.port 0).replays = 1),
      laneActive upPort 0 3, laneActive { upPort with spare := true } 4 8,
      after (exec (.laneFailure 0 3) (withPort 0 upPort)) fun t => decide ((t.port 0).st = .up) && decide ((t.port 0).laneFails = 1),
      after (exec (.laneFailure 4 8) (withPort 4 { upPort with spare := true })) fun t => decide ((t.port 4).st = .upHalf),
      after (exec (.laneFailure 0 3) (withPort 0 { upPort with st := .upHalf })) fun t => decide ((t.port 0).st = .down),
      after (exec (.linkSilenceTimeout 4) (withPort 4 replayPort)) fun t => decide ((t.port 4).st = .down) &&
        decide ((t.port 4).losses = 1) && bitOf t.ert.pend 284,
      after (exec (.trainingComplete 0 true) (withPort 0 { upPort with st := .training })) fun t => (t.port 0).trained,
      after (exec (.retrainTimer 4) up) fun t => decide ((t.port 4).st = .training),
      after (exec (.retrainTimer 0) up) fun t => decide ((t.port 0).st = .down),
      after (exec (.pcieInboundRequest false (.read 0 512)) up) fun t => decide (t.bus.cpl = .bytes (List.replicate 512 0)),
      after (exec (.pcieInboundRequest false (.read 0xFFFFFFFFFFFFFFFF 1)) up) fun t => decide (t.bus.cpl = .unsupported),
      !noCredit up .pcieInbound 0 0, !noCredit up .pcieInbound 1 0, up.inMemory (0x80#64).toNat 3,
      after (exec (.pcieInboundRequest true (.write 0xFEE00000 [127, 0, 0, 0])) up) fun t => bitOf t.ert.pend 767,
      after (exec (.pcieInboundRequest true (.write 0x80 [1, 2, 3])) up) fun t => decide (Memory.bytes t.mem 0x7F 5 = [0, 1, 2, 3, 0]),
      after (exec (.rootPortLinkEvent true .linkUp 0) up) fun t => t.chan.rootUp1 && !t.chan.rootUp0 && bitOf t.ert.pend 286,
      after (exec (.rootPortLinkEvent true .fatal 7) up) fun t => bitOf t.ert.pend 286,
      after (exec (.mgperst true) up) fun t => !t.chan.mgmtUp] = true := by decide +kernel

/-! ## Duplex pair -/

/-- The duplex engine in a state, port M up, the partner module 7. -/
def dupIn (st : DupSt) (role : Bool) : State :=
  let s := fwUp.setPort 4 upPort
  { s with dup := { s.dup with st := st, role := role, partner := 7 }, chan := { s.chan with en := true, modid := 5 } }

/-- The state with changed duplex registers. -/
def dupWith (s : State) (f : Dup → Dup) : State := { s with dup := f s.dup }

/-- A primary that checkpoints context 0, at 4000h. -/
def ckptUp : State :=
  dupWith ((dupIn .primary false).setCtx 0 ctxUp) fun d => { d with ckptMask := 1, ckptBase := 0x4000, ckptSeq := [(0, 1)] }

theorem test_meets_DuplexRecords :
    checks [calmB (dupIn .backup true), applies (dupIn .backup true), applies (dupIn .syncing true), (dupIn .backup true).inMemory (5 * 128) 128,
      after (exec (.mirrorWrite 5 0xFF#8 (rise 1 128) 1) (dupIn .backup true)) fun t => decide (Memory.bytes t.mem 640 128 = rise 1 128) &&
        decide (Memory.read t.mem 768 = 0) && decide (t.dup.appliedHere = 1),
      after (exec (.mirrorWrite 5 (BitVec.ofNat 8 (2 ^ (7 : Fin 8).val)) (rise 1 16) 1) (dupIn .backup true)) fun t =>
        decide (Memory.bytes t.mem 752 16 = rise 1 16) && decide (Memory.bytes t.mem 640 112 = List.replicate 112 0),
      after (exec (.mirrorWrite 0xFFFFFFFFFF 1#8 (rise 1 16) 1) (dupIn .backup true)) fun t => decide (t.dup.dropped = 1) &&
        decide (t.fcr.cnt.get 308 0#32 = 1),
      !(dupIn .backup true).inMemory (0xFFFFFFFFFF * 128) 128,
      after (exec (.mirrorWrite 5 0 [] 9) (dupIn .backup true)) fun t => decide (t.dup.dropped = 1) && decide (t.fcr.cnt.get 308 0#32 = 1),
      after (exec (.mirrorJhead 9 77) (dupIn .backup true)) fun t => decide (t.dup.jheads = [(9, 77#24)]),
      after (exec (.mirrorCkptCommit true 3) (dupIn .backup true)) fun t => decide (t.dup.commits = [{ ctx := 3, buf := true }]),
      mirroring (dupIn .primary false), mirroring (dupIn .partnerLost false), mirroring (dupIn .syncing false),
      (let s := dupWith (dupIn .primary false) fun d => { d with sent := 10, sentBase := 4, partnerApplied := 5, syncWaiters := [(.mgmt, 7), (.ctx 1, 9)] }
       after (exec (.appliedCount 4) s) fun t => decide (t.dup.partnerApplied = 8) && decide (t.dup.syncWaiters = [(.ctx 1, 9)]) &&
         decide (t.bus.cpl = .data 4)),
      (match ctlCheck (dupIn .backup true) .mgmt false 0x8000010 8 with
       | .ok .dupxSync => issuesB (dupIn .backup true) .mgmt 0x8000010
       | _ => false),
      after (exec (.dupxSyncRead .mgmt) (dupIn .backup true)) fun t => decide (t.bus.cpl = .data 0),
      (let s := dupWith (dupIn .primary false) fun d => { d with sent := 10, partnerApplied := 5 }
       !partnerGone s && after (exec (.dupxSyncRead .mgmt) s) fun t => decide (t.dup.syncWaiters = [(.mgmt, 10)]) &&
         decide ((t.port 4).ctl.length = 1)),
      calmB ckptUp, ckptReady ckptUp 0 true, ckptUp.inMemory (slotAddr ckptUp 0 false) 512,
      after (exec (.checkpoint 0 true) ckptUp) fun t => decide (Memory.word t.mem 0x4000 = 2) && decide (Memory.word t.mem 0x4008 = 0x1000) &&
        decide (Memory.word t.mem 0x4100 = 0) && decide (t.dup.sent = 4),
      !ckptReady (ckptUp.setCtx 0 { ctxUp with rep := true }) 0 true,
      after (exec (.checkpoint 0 true) (ckptUp.setCtx 0 { ctxUp with rep := true })) fun t => decide (t.dup.skipped = 1) && decide (t.dup.sent = 0)] = true := by decide +kernel

/-- Zone 0 covers the first 16 MiB. -/
def zonedUp : State :=
  dupWith (dupIn .unbound false) fun d => { d with zbase := [(0, 1)], zsize := [(0, 0x1000000)] }

/-- A bind of mailbox 5 that synchronises. -/
def binding (role : Bool) (step : Nat) : State :=
  (dupWith (dupIn .syncing role) fun d => { d with bindMb := some 5, ckptMask := 1 }).setMb 5
    { cmdBox 0x0701 false [0, 7, 1000] with step := step } |>.setCtx 0 ctxUp

/-- The bind of the partner, module 7, that agrees with `binding`. -/
def partnerBind : BindInfo := { partner := 5, period := 1000, zones := zoneTable (binding false 1), ckptBase := 0 }

theorem test_meets_DuplexStates :
    checks [calmB (dupIn .primary false), ((dupIn .primary false).port 4).isUp,
      after (exec .heartbeatSend (dupIn .primary false)) fun t => decide ((t.port 4).ctl = [.heartbeat false 5 2]),
      after (exec (.heartbeat true 9 2 none) (dupIn .takingOver true)) fun t => decide ((t.port 4).ctl = [.fenceFlit]),
      after (exec (.heartbeat true 7 1 (some partnerBind)) (binding false 1)) fun t => decide ((t.mb 5).step = 2),
      after (exec (.heartbeat false 7 1 (some partnerBind)) (binding false 1)) fun t => mbIs 5 .failed 0x5B t &&
        decide (t.dup.st = .unbound),
      after (exec .partnerLoss (dupIn .primary false)) fun t => decide (t.dup.st = .partnerLost) && bitOf t.ert.pend 276,
      after (exec .partnerLoss (dupWith (dupIn .primary false) fun d => { d with onLoss := true })) fun t => decide (t.dup.st = .solo),
      bindAgrees (binding false 1) true 7 partnerBind, !bindAgrees (binding false 1) false 7 partnerBind, flowsB (dupIn .primary false),
      after (exec .partnerLoss (dupIn .backup true)) fun t => decide (t.dup.st = .backup) && t.dup.lost && bitOf t.ert.pend 276,
      after (exec .partnerLoss (binding false 1)) fun t => mbIs 5 .failed 0x5A t && decide (t.dup.st = .unbound),
      after (exec .fenceFlit (dupIn .partnerLost false)) fun t => decide (t.dup.st = .fenced) && !t.chan.en && bitOf t.ert.pend 279,
      after (exec .relinquish (dupIn .primary false)) fun t => decide (t.dup.st = .fenced) && !t.chan.en && !t.dup.relinquishing,
      (let s := { dupIn .primary false with chan := { (dupIn .primary false).chan with sends := sent.chan.sends.map fun o => { o with st := .heldBack, mirrorAt := 1 } } }
       after (exec .relinquish s) fun t => decide (t.dup.st = .primary) && t.dup.relinquishing),
      after (exec .takeoverComplete ((dupWith (dupIn .takingOver true) fun d => { d with takeMb := some 5 }).setMb 5 (cmdBox 0x0702 false []))) fun t =>
        decide (t.dup.st = .solo) && bitOf t.ert.pend 277 && mbIs 5 .done 0 t,
      takesUp (cmd zonedUp 0x0701 [1, 7, 1000]) 0x0701 (.duplexBind 5) fun t => decide (t.dup.st = .syncing) && t.dup.role &&
        decide (t.dup.partner = 7) && mbIs 5 .running 0 t,
      zonesHold zonedUp, !stray (cmdBox 0x0701 false [1, 7, 1000]) [(2, 0x3FFF#64)],
      calmB (binding false 1),
      after (exec .duplexBindTimeout (binding false 1)) fun t => decide (t.dup.st = .unbound) && mbIs 5 .failed 0x5A t,
      after (exec .duplexSyncComplete (binding false 2)) fun t => decide (t.dup.st = .primary) && mbIs 5 .done 0 t,
      after (exec .duplexSyncComplete (binding true 2)) fun t => decide (t.dup.st = .backup) && decide ((t.ctx 0).run = .stopped),
      takesUp (cmd (dupIn .backup true) 0x0702 []) 0x0702 (.duplexTakeover 5) fun t => t.dup.relAsked && decide ((t.port 4).ctl = [.relinquish]) &&
        mbIs 5 .running 0 t] = true := by decide +kernel

/-! A takeover starts from BACKUP; its 65,536 subchannels are not walked here. -/

theorem test_meets_DuplexTakeovers :
    checks [calmB (dupWith (dupIn .backup true) fun d => { d with autoTakeover := true }),
      calmB (dupWith (dupIn .backup true) fun d => { d with relAsked := true }),
      takesUpB (cmd (dupWith (dupIn .backup true) fun d => { d with lost := true }) 0x0702 []) 5 0x0702] = true := by decide +kernel

/-! ## Engines and keys -/

/-- A started COMPRESS job of instance 0 with an open block: 100 records of 8 bytes from 2000h to 8000h. -/
def zJob : ZJob :=
  { desc := 0x1000, inst := 0, innings := 0, started := true, compress := true, flush := true, signal := true, table := 5, src := 0x2000
    srcLen := 800, dst := 0x8000, dstLen := 4096, ctxAddr := 0x9000, inPos := 0, outPos := 8, goodIn := 0, goodOut := 0, earlier := 0
    stream := { ZStream.fresh true 5 with openBlock := true, tableCrc := crc32c tab8 } }

/-- Engine 0 with a job. -/
def zipUp (j : ZJob) : State :=
  up.setZip 0 { Zip.reset with en := true, tables := [(5, some { bytes := tab8, crc := crc32c tab8 })], queue := [j] }

/-- A started XTS job of instance 0 with 32-byte units. -/
def xJob (pos len : Nat) : CJob :=
  { desc := 0x1000, inst := 0, innings := 0, started := true, mode := 1, signal := true, ivgen := false, taglen := 0, slot := 256, dublk := 1
    src := 0x2000, srcLen := len, aadLen := 0, dst := 0x3000, dunum := 0, ivtag := 0, iv := [], pos := pos, acc := 0
    key := aKey 2 (List.replicate 32 0) }

/-- Cluster 1 with a job. -/
def ciphUp (j : CJob) : State :=
  { up with ciph := { up.ciph with en := 2, queue := [(1, [j])], slots := [(256, some (aKey 2 (List.replicate 32 0)))] }
            time := { up.time with drbgOk := true } }

theorem test_meets_EnginesAndKeys :
    checks [reachesB up .mgmt (0x5008000 + 0x10000 * (3 : Fin 4).val) (.zipSubmit 3) == false,
      reachesB up (.ctx 0) (0x5008000 + 0x10000 * (3 : Fin 4).val) (.zipSubmit 3),
      after (exec (.zipSubmit (.ctx 0) 3 0x1000 none) up) fun t => decide ((t.zip 3).queue.map (fun j => (j.desc, j.started)) = [(0x1000, false)]),
      issuesB up (.ctx 0) (0x5008000 + 0x10000 * (3 : Fin 4).val), issuesB up (.ctx 0) (0x6008000 + 8 * (1 : Fin 2).val),
      after (exec (.zipSubmit (.ctx 0) 3 0x1000 (some { inst := 0, innings := 9 })) up) fun t => decide (t = up),
      after (exec (.ciphSubmit (.ctx 0) 1 0x1000 (some { inst := 0, innings := 9 })) up) fun t => decide (t = up),
      decide ((zipJobs up 3 (reqInst up (.ctx 0))).length < 16), !up.refusesWork 0, !inAlarm up,
      calmB (zipUp zJob), !badRead (zipUp zJob) 0x2000 256, !badRead (zipUp zJob) 0 0, !zJob.stream.badBack (zipUp zJob) 8,
      decide (tabRlen tab8 ≤ zJob.stream.partLen + (zJob.srcLen - zJob.inPos)), (zipUp zJob).inMemory 0x8008 400,
      decide (zipChoose (zipUp zJob) 0 = some 0), decide (nextZJob (zipUp zJob) 0 0 = some zJob),
      decide (tabRlen tab8 = 8), decide (chunkCount 8 0 100 = 32),
      after (exec (.zipChunk 0 false) (zipUp zJob)) fun t => decide ((t.zip 0).queue.map (fun j => (j.desc, j.inPos, j.stream.inLen)) =
        [(0x1000, 256, 256)]),
      (zipUp zJob).inMemory 0x1000 64,
      (let j := { zJob with compress := false, inPos := 800, stream := .fresh false 0, earlier := 3 }
       after (exec (.zipChunk 0 false) (zipUp j)) fun t => decide ((t.zip 0).queue = []) && decide ((t.zip 0).ended = 1) &&
         decide (Memory.word t.mem 0x1030 = 0x300000001)),
      reachesB up (.ctx 0) (0x6008000 + 8 * (1 : Fin 2).val) (.ciphSubmit 1),
      after (exec (.ciphSubmit (.ctx 0) 1 0x1000 none) up) fun t => decide ((cipherQueue t 1).map (fun j => (j.desc, j.started)) = [(0x1000, false)]),
      calmB (ciphUp (xJob 0 64)), decide (cipherChoose (ciphUp (xJob 0 64)) 1 = some 0), lanesLeft (ciphUp (xJob 0 64)) 1,
      decide ((unitOutput (xJob 0 64) (Memory.bytes (ciphUp (xJob 0 64)).mem 0x2000 32)).1.length = unitLen (xJob 0 64)),
      decide ((xJob 0 64).pos + unitLen (xJob 0 64) < (xJob 0 64).srcLen), (ciphUp (xJob 0 64)).inMemory 0x3000 32,
      calmB (ciphUp (xJob 32 64)), decide (cipherChoose (ciphUp (xJob 32 64)) 1 = some 0), decide ((xJob 32 64).srcLen ≤ 32 + unitLen (xJob 32 64)),
      (ciphUp (xJob 32 64)).inMemory 0x1000 64,
      after (exec (.tamperAlarm 3 true 2) (ciphUp (xJob 0 64))) fun t => decide (t.ciph.slots = []) && decide (t.ciph.alarm = 8) && t.ciph.erasing,
      after (exec (.sensorAlarm (.voltage 0 619999)) up) fun t => decide (t.ciph.alarm = 0x10),
      after (exec (.sensorAlarm (.temperature 3 (BitVec.ofInt 32 (-45001)))) up) fun t => decide (t.ciph.alarm = 0x20),
      after (exec (.sensorAlarm (.glitch 12001)) up) fun t => decide (t.ciph.alarm = 0x40),
      after (exec (.sensorAlarm (.temperature 3 125001)) up) fun t => t.crp.thermTrip && decide (t.crp.boot = .mReset) && decide (t.crp.cause = 3),
      after (exec (.sensorAlarm (.glitch 12000)) up) fun t => decide (t = up), up.crp.vstby, decide (up.ciph.alarmen = 0x7F),
      after (exec .keyErasureComplete { up with ciph := { up.ciph with erasing := true } }) fun t => !t.ciph.erasing && bitOf t.ert.pend 274,
      reachesB up .mgmt 0x6000010 .ciphAlarm,
      after (exec (.ciphAlarmClear .mgmt 0xFF) { up with ciph := { up.ciph with alarm := 0x8F, active := 2 } }) fun t =>
        decide (t.ciph.alarm = 2)] = true := by decide +kernel

/-! ## Time, entropy, power, debug -/

/-- The time unit in a state. -/
def timeUp (f : Time → Time) : State := { up with time := f up.time }

theorem test_meets_TimeCommands :
    checks [after (exec (.todTick .none) up) fun t => decide (t.time.count = 396140812571321687968) &&
        decide (t.time.copy1 = t.time.count) && !t.time.clkfault,
      after (exec (.todTick (.flip false 1)) up) fun t => decide (t.time.count = 396140812571321687968) &&
        decide (t.time.copy1 = t.time.count) && !t.time.clkfault,
      after (exec (.todTick (.flip false 3)) up) fun t => decide (t.time.count = 396140812571321687968 ^^^ 3) && t.time.clkfault,
      after (exec (.todTick (.flip true 3)) up) fun t => decide (t.time.copy1 = t.time.count),
      flowsB up, decide (up.time.arming = []),
      (let s := timeUp fun t => { t with arming := [(63, 0)] }
       calmB s && after (exec (.todTick .none) s) fun t => decide (t.time.arming = []) && bitOf t.time.dlbits 63),
      after (exec (.deadlineReached 63) (timeUp fun t => { t with armed := [(63, some 0)] })) fun t => bitOf t.time.dlbits 63 &&
        bitOf t.ert.pend 255 && decide (t.time.armed.get 63 none = none),
      calmB (timeUp fun t => { t with armed := [(63, some 1)] }),
      after (exec (.deadlineReached 63) (timeUp fun t => { t with armed := [(63, some 1)] })) fun t => !bitOf t.time.dlbits 63,
      reachesB up .mgmt 0x9000030 .timeDlarm,
      after (exec (.timeDlarmWrite .mgmt 0x8000000000000001) (timeUp fun t => { t with dlbits := 3, dls := [(63, 5)], dlf := [(63, 6)] })) fun t =>
        decide (t.time.dlbits = 3) && decide (t.time.arming = [(0, 0), (63, 0x50000000000000006)]),
      (match ctlCheck up .mgmt false 0x9008000 8 with
       | .ok .timeNowf => issuesB up .mgmt 0x9008000 && issuesB up (.ctx 0) 0x9008000
       | _ => false),
      after (exec (.timeNowfRead (.ctx 0) 0) (atSec up 9)) fun t => decide (t.bus.cpl = .data 0) && decide ((t.ctx 0).nows = 9),
      after (exec (.timeRead .channel) (atSec up 9)) fun t => decide (t.bus.cpl = .time 0x90000000000000000 0), !noCredit up .timeRead (readerNumber .channel) 0,
      decide ((true : Bool) ≠ up.time.ppsEdge), decide (up.time.sinceEdge = none),
      after (exec (.ppsEdge true 9) (atSec up 9)) fun t => decide (t.time.capS = 9) && bitOf t.ert.pend 256,
      after (exec (.ppsEdge true 9) (timeUp fun t => { t with sinceEdge := some 199799999 })) fun t => decide (t.time.ppsRej = 1),
      after (exec .holdoverEntry (timeUp fun t => { t with disc := true, locked := true, sinceEdge := some 400000000 })) fun t =>
        t.time.holdover && !t.time.locked && bitOf t.ert.pend 257,
      calmB (timeUp fun t => { t with holdover := true }),
      after (exec .ppsOutPulseEnd (timeUp fun t => { t with ppsOut := true })) fun t => !t.time.ppsOut,
      after (exec .bucketRefill (up.setInst 0 { up.inst 0 with bktch := 0x700000001, tokens := [(0, 1020)] })) fun t => decide (t.crp.us = 1) &&
        decide (tokensOf t 0 0 = 1024)] = true := by decide +kernel

/-- Raw bits that alternate, and raw bits that are all 0. -/
def rawGood : BitVec 4096 := BitVec.ofNat 4096 ((2 ^ 4096 - 1) / 3)

theorem test_meets_EntropyStart :
    checks [calmB up, decide (up.time.ent = .starting), decide ((Health.reset.run' (rawBits rawGood)).2 = none),
      decide ((Health.reset.run' (rawBits (0 : BitVec 4096))).2 = some false), flowsB up,
      after (exec (.entropyStartTest rawGood) up) fun t => decide (t.time.ent = .ok) && t.time.srcOk,
      after (exec (.entropyStartTest 0) up) fun t => decide (t.time.ent = .waitRestart) && !t.time.srcOk && bitOf t.ert.pend 259 &&
        decide (t.time.rct = 1)] = true := by decide +kernel

theorem test_meets_Entropy :
    checks [decide ((Health.reset.run' (List.replicate 60 true)).2 = none), decide ((Health.reset.run' (List.replicate 61 true)).2 = some false),
      after (exec (.healthTestFailure (List.replicate 61 true)) (timeUp fun t => { t with ent := .ok })) fun t =>
        decide (t.time.ent = .waitRestart) && decide (t.time.apt = 0) && decide (t.time.rct = 1),
      after (exec (.healthTestFailure (List.replicate 60 true)) (timeUp fun t => { t with ent := .ok })) fun t =>
        decide (t.time.health.run = 60) && decide (t.time.ent = .ok),
      after (exec .entropyRestart (timeUp fun t => { t with ent := .waitRestart })) fun t => decide (t.time.ent = .starting),
      decide (((Health.reset.run' (rawBits (BitVec.ofNat 1024 ((2 ^ 1024 - 1) / 3)))).2) = none),
      after (exec (.drbgReseed (BitVec.ofNat 1024 ((2 ^ 1024 - 1) / 3))) (timeUp fun t => { t with ent := .ok })) fun t => t.time.seeded && t.time.drbgOk,
      seedDue up, !seedDue (timeUp fun t => { t with seeded := true }),
      after (exec .drbgSeedTimeout up) fun t => t.time.drbgFail && !t.time.drbgOk && bitOf t.ert.pend 260] = true := by decide +kernel

/-- The module is held in an M reset. -/
def held (low trip : Bool) : State := { State.reset with crp := { State.reset.crp with boot := .mReset, nresetLow := low, thermTrip := trip } }

theorem test_meets_PowerCommands :
    checks [!State.reset.crp.nresetLow,
      after (exec (.powerOn (.slot 1)) State.reset) fun t => decide (t.crp.boot = .running) && decide (t.sp.fw = .running) &&
        decide (t.crp.kept.flashSlot = 1) && decide (t.crp.pll = 0x3F),
      after (exec (.powerOn .none) State.reset) fun t => decide (t.crp.boot = .fwStart) && t.fcr.hold,
      after (exec (.powerOn (.slot 0)) { State.reset with crp := { State.reset.crp with nresetLow := true } }) fun t => decide (t.crp.boot = .waitRails),
      after (exec (.nreset 25 false) one) fun t => decide (t.crp.boot = .mReset) && decide (t.crp.cause = 1) && decide (t.crp.resets = 1) &&
        decide (t.ctxs = []),
      after (exec (.nreset 3 true) one) fun t => decide (t = one),
      after (exec (.nresetRelease (.slot 1)) (held true false)) fun t => decide (t.crp.boot = .running) && !t.crp.nresetLow,
      coolEnough (held false true),
      after (exec .thermalTripRelease (held false true)) fun t => decide (t.crp.boot = .running) && !t.crp.thermTrip,
      after (exec (.railFailure 4) up) fun t => decide (t.crp.boot = .waitRails) && bitOf t.crp.railsLow 4 && decide (t.crp.pll = 0),
      after (exec .vstbyLoss one) fun t => decide (t.crp.boot = .aonOnly) && !t.crp.vstby && decide (t.ctxs = []),
      !bitOf (zipUp zJob).crp.brstat (2 + (0 : Fin 4).val),
      after (exec (.blockReset (.zip 0)) (zipUp zJob)) fun t => !(t.zip 0).en && decide ((t.zip 0).queue = []) && decide ((t.zip 0).tables.length = 1),
      after (exec (.blockReset .ciph) (ciphUp (xJob 0 64))) fun t => decide (t.ciph.en = 0) && decide (t.ciph.queue = []) && decide (t.ciph.slots.length = 1),
      after (exec (.pllLockLoss 5) up) fun t => t.time.clkfault, after (exec (.railCheck 2 true) up) fun t => decide (t.fcr.log.length = 1),
      after (exec (.railCheck 2 false) up) fun t => decide (t = up),
      (let s := { up with crp := { up.crp with kept := { up.crp.kept with curves := [(9, some [(0, 0), (10, 1000)])] } } }.setSens 9
        { Sens.reset with thr := 0x000001F300000000, outside := false }
       calmB s && !sensorAlarms (sensorRead s 9 5 true) 9 && outOfRange (s.sens 9).thr (sensorValue s 9 5) && flowsB s &&
         after (exec (.sensorUpdate 9 5 true) s) fun t => decide ((t.sens 9).value = 500) && bitOf t.crp.sensTrip 9 && bitOf t.ert.pend 306)] = true := by decide +kernel

/-- The debug port in a state. -/
def audUp (f : Aud → Aud) : State := { one with aud := f one.aud }

theorem test_meets_DebugCommands :
    checks [reachesB up .mgmt 0xF000000 .dbgCtl, after (exec (.dbgCtlWrite .mgmt 1) up) fun t => t.aud.dbgEn,
      reachesB (audUp fun a => { a with dbgEn := true }) .mgmt 0xF000008 .dbgHalt,
      after (exec (.dbgHaltWrite .mgmt 2) up) fun t => decide (t.aud.halt = 2),
      decide (placeOf one 0 = some (0, false)), decide (!(one.pair 0).gated && !(one.ctx 0).entering),
      after (exec (.dbgHaltWrite .mgmt 1) (audUp fun a => { a with dbgEn := true })) fun t => decide ((t.ctx 0).run = .stopped) &&
        (t.ctx 0).dbgHalted && decide ((t.ctx 0).pc = 0x1000),
      after (exec (.csacc true 0xF000100#40 0xFFFFFFFFFFFFFFFF) (audUp fun a => { a with ir := .csacc })) fun t => t.aud.csDone && t.aud.csaccSeen &&
        decide ((t.aud.bps.get 0 { addr := 0, ctl := 0 }).addr = 0x01FFFFFFFFFFFFFF),
      after (exec (.csacc false 0xF000000#40 0) (audUp fun a => { a with ir := .csacc, dbgEn := true })) fun t => decide (t.aud.csData = 1),
      after (exec (.jtagInstruction .csacc) up) fun t => decide (t.aud.ir = .csacc),
      after (exec (.jtagInstruction .csacc) (audUp fun a => { a with sealed := true })) fun t => decide (t.aud.ir = .bypass),
      decide (i3cReg up 0x10 = some 4), after (exec (.i3cRead 0x10) up) fun t => decide (t.bus.cpl = .data 4),
      decide (i3cReg up 0x14 = none), after (exec (.i3cRead 0x14) up) fun t => decide (t.bus.cpl = .none),
      after (exec (.i3cAddressAssign 9) up) fun t => decide (t.crp.i3cAddr = some 9)] = true := by decide +kernel

/-! ## Published functions -/

/-- FIPS 197, C.1. -/
theorem test_aes : aesEnc (rise 0 16) plain41 = hex 16 0x69C4E0D86A7B0430D8CDB78070B4C55A := by decide +kernel

/-- FIPS 180-4: SHA-384 of abc. -/
theorem test_sha384 : sha384 [0x61, 0x62, 0x63] =
    hex 48 0xCB00753F45A35E8BB5A03D699AC65007272C32AB0EDED1631A8B605A43FF5BED8086072BA1E7CC2358BAECA134C825A7 := by decide +kernel

/-- CRC-32C of the digits 1 to 9. -/
theorem test_crc32c : crc32c (rise 0x31 9) = 0xE3069283#32 := by decide +kernel

/-! ## The block's step -/

/-- An empty queue idles; the front command runs with the rest of the queue. -/
theorem test_step_front :
    after (step State.reset) (fun t => decide (t = State.reset)) = true ∧
    after (step { up with pending := [.todTick .none, .ertSelection] }) (fun t => decide (t.pending = [.ertSelection]) && decide (t.time.count ≠ 0)) =
      true := by decide +kernel

end Sys2Proof.Machine
end

section
/-! PROOFS. What State.reset holds, read through the accessors of State, and the statement about it. -/
namespace Sys2Proof.Machine

/-! ## Tables that list a function -/

/-- A table that lists the values of a function at some numbers answers them there, and the default elsewhere. -/
theorem Tab.get_map_pair {α : Type} (f : Nat → α) (d : α) (k : Nat) (l : List Nat) :
    Tab.get (l.map fun j => (j, f j)) k d = if k ∈ l then f k else d := by
  induction l with
  | nil => rfl
  | cons j r ih =>
    by_cases e : j = k
    · simp [Tab.get, e]
    · simp [Tab.get, e, Ne.symm e, ih]

/-! ## The parts of the state after reset -/

@[simp] theorem reset_ctx (c : Nat) : State.reset.ctx c = Ctx.reset := rfl

@[simp] theorem reset_mb (n : Nat) : State.reset.mb n = Mailbox.reset n := rfl

@[simp] theorem reset_mem : State.reset.mem = [] := rfl

@[simp] theorem reset_not_live : State.reset.live = false := rfl

/-- Each of the 18 pairs is as on a module with no fenced pair (R203). -/
theorem reset_pair (p : Nat) (h : p < 18) : State.reset.pair p = Pair.fresh p :=
  (Tab.get_map_pair Pair.fresh (.empty .bench) p (List.range 18)).trans (if_pos (List.mem_range.mpr h))

/-- A pair below 16 starts ACTIVE with its own two contexts. -/
theorem reset_pair_active (p : Nat) (h : p < 16) :
    State.reset.pair p = { Pair.empty .active with slot0 := some (2 * p), slot1 := some (2 * p + 1) } := by
  rw [reset_pair p (by omega), Pair.fresh, if_pos h]

/-- Pairs 16 and 17 start on the bench. -/
theorem reset_pair_bench (p : Nat) (h : p < 18) (h' : 16 ≤ p) : State.reset.pair p = Pair.empty .bench := by
  rw [reset_pair p h, Pair.fresh, if_neg (by omega)]

/-- A context starts in hypervisor mode (R51). -/
@[simp] theorem Ctx.reset_mode : Ctx.reset.mode = 3 := by decide

theorem reset_memoryCanonical : MemoryCanonical State.reset := reset_memory_wf

theorem reset_pcsEven : PcsEven State.reset := fun _ => BitVec.getLsbD_zero

theorem reset_modesLegal : ModesLegal State.reset := fun c => by simp

/-- Every source of the ERT starts masked (R232). -/
theorem reset_ert_masked (n : Nat) (h : n < 1024) : bitOf State.reset.ert.mask n = true := by
  have : bitOf State.reset.ert.mask n = decide (n < 1024) := BitVec.getLsbD_allOnes
  rw [this, decide_eq_true h]

/-- No source of the ERT starts pending (R232). -/
theorem reset_ert_not_pending (n : Nat) : bitOf State.reset.ert.pend n = false := BitVec.getLsbD_zero

end Sys2Proof.Machine

namespace Sys2Proof.Proofs
open Sys2Proof.Machine

/-- Settles O28: a table that State.reset leaves empty answers its default everywhere, and the table of pairs lists
Pair.fresh. -/
theorem resetState : Obligations.ResetState := by
  unfold Obligations.ResetState
  refine ⟨reset_memoryCanonical, reset_pcsEven, reset_modesLegal, reset_not_live, rfl, ?contexts, ?sources, ?pairs,
    ?pair16, ?pair17, ?memoryAndMailboxes⟩
  case contexts =>
    intro c
    rw [reset_ctx]
    exact ⟨rfl, Ctx.reset_mode, rfl, rfl, rfl, rfl, rfl, rfl, rfl⟩
  case sources => exact fun n h => ⟨reset_ert_masked n h, reset_ert_not_pending n⟩
  case pairs =>
    intro p h
    rw [reset_pair_active p h]
    exact ⟨rfl, rfl, rfl⟩
  case pair16 => rw [reset_pair_bench 16 (by decide) (by decide)]; rfl
  case pair17 => rw [reset_pair_bench 17 (by decide) (by decide)]; rfl
  case memoryAndMailboxes =>
    intro n a
    rw [reset_mem, reset_mb]
    exact ⟨Memory.read_nil a, rfl⟩

end Sys2Proof.Proofs
end

section
/-! PROOFS. The credits of the queues (01): what a producer may send and what a return gives back. -/
namespace Sys2Proof.Machine

/-! ## The queues of the bus -/

@[simp] theorem queueOf_id (s : State) (q : QueueId) : (queueOf s q).id = q := by
  unfold queueOf
  cases h : s.bus.queues.find? fun x => decide (x.id = q) with
  | none => rfl
  | some x => simpa using List.find?_some h

theorem queueOf_setQueue_self (s : State) (x : Queue) : queueOf (setQueue s x) x.id = x := by
  simp [queueOf, setQueue]

/-- Setting a queue leaves every other; its credits at first do not rest on the bus. -/
theorem queueOf_setQueue_other (s : State) (x : Queue) (q : QueueId) (h : q ≠ x.id) :
    queueOf (setQueue s x) q = queueOf s q := by
  have full : fullCredits (setQueue s x) q = fullCredits s q := rfl
  have same : (s.bus.queues.filter fun y => decide (y.id ≠ x.id)).find? (fun y => decide (y.id = q)) =
      s.bus.queues.find? fun y => decide (y.id = q) := by
    rw [List.find?_filter]
    congr 1
    funext y
    by_cases e : y.id = q <;> simp [e, h]
  unfold queueOf
  rw [full, setQueue, List.find?_cons, decide_eq_false (Ne.symm h)]
  exact congrArg (Option.getD · _) same

/-! ## Sending (R12, R14) -/

/-- The response to a unit goes through a queue of a response class. -/
theorem responseOf_responseClass {q a : QueueId} {pl : Payload} {n : Nat} (h : responseOf q pl = some (a, n)) :
    responseClass a.cls = true := by
  unfold responseOf at h
  split at h
  · cases h; rfl
  · split at h <;> cases h <;> rfl
  · cases h

theorem roomFor_eq_false {s : State} {q : QueueId} {n : Nat} (h : q.cls ≠ .controlReturn)
    (full : fullCredits s q < (queueOf s q).reserved + (queueOf s q).held + n) : roomFor s q n = false := by
  simp [roomFor, h, full]

theorem canSend_credits {s : State} {q : QueueId} {pl : Payload} (h : canSend s q pl = true) :
    0 < (queueOf s q).credits := by
  simp only [canSend, Bool.and_eq_true, decide_eq_true_eq] at h
  obtain ⟨⟨credits, _⟩, _⟩ := h
  exact Nat.pos_of_ne_zero credits

theorem canSend_of_no_credit {s : State} {q : QueueId} (pl : Payload) (h : (queueOf s q).credits = 0) :
    canSend s q pl = false := by
  simp [canSend, h]

theorem canSend_of_no_room {s : State} {q a : QueueId} {pl : Payload} {n : Nat} (h : responseOf q pl = some (a, n))
    (room : roomFor s a n = false) : canSend s q pl = false := by
  simp [canSend, h, room]

/-- Sending a unit of a class that is no response class moves one credit to the consumer; what its response reserves is in
another queue. -/
theorem queueOf_takeCredit (s : State) (q : QueueId) (pl : Payload) (h : responseClass q.cls = false) :
    queueOf (takeCredit s q pl) q =
      { queueOf s q with credits := (queueOf s q).credits - 1, held := (queueOf s q).held + 1 } := by
  have taken (r : Queue) (e : r.id = q) : queueOf (setQueue s r) q = r := e ▸ queueOf_setQueue_self s r
  simp only [takeCredit, h, Bool.false_eq_true, if_false]
  split
  · exact taken _ (queueOf_id s q)
  · rename_i a n e
    have other : q ≠ a := by
      rintro rfl
      simp [responseOf_responseClass e] at h
    rw [reserve, queueOf_setQueue_other _ _ _ (by simpa using other)]
    exact taken _ (queueOf_id s q)

/-- Sending a unit changes the queues alone. -/
theorem takeCredit_of_queues (s : State) (q : QueueId) (pl : Payload) :
    takeCredit s q pl = { s with bus := { s.bus with queues := (takeCredit s q pl).bus.queues } } := by
  unfold takeCredit
  cases responseOf q pl <;> rfl

theorem exec_queueEntry (s : State) (q : QueueId) (e : Ecc) (pl : Payload) (h : payloadFits q pl = true) :
    exec (.queueEntry q e pl) s = act s (if !canSend s q pl then s
      else if responseClass q.cls && decide ((queueOf s q).dropping ≠ 0) then dropResponse s q
      else match e with
        | .good => consume (takeCredit s q pl) pl
        | .corrected => consume (queueCard (takeCredit s q pl) q false) pl
        | .uncorrectable => dropEntry (takeCredit s q pl) q pl) := by
  change execQueueEntry q e pl s = _
  rw [execQueueEntry, h]
  rfl

/-! ## Returning a credit (R12, R15) -/

/-- A consumer that holds a unit gives its credit back. -/
theorem exec_creditReturn (s : State) (q : QueueId) (held : (queueOf s q).held ≠ 0) (c : q.cls ≠ .controlReturn) :
    exec (.creditReturn q) s = act s (releaseWaits (setQueue s
      { queueOf s q with credits := (queueOf s q).credits + 1, held := (queueOf s q).held - 1 }) q) := by
  change execCreditReturn q s = _
  simp only [execCreditReturn, if_neg held, if_neg c]

/-- Where nothing waits, a returned credit sends nothing. -/
theorem releaseWaits_none (s : State) (q : QueueId) (cards : s.bus.waitCards = []) (events : s.bus.waitEvents = [])
    (ctl : s.bus.waitCtl = []) : releaseWaits s q = s := by
  unfold releaseWaits
  split
  · simp only [cards, List.filter_nil, List.append_nil]; rw [← cards]
  · simp only [events, List.filter_nil, List.foldl_nil]; rw [← events]
  · exact flushCtl_none s ctl
  · rfl

/-- A card that waited for a credit of its block's queue goes to the FCR. -/
theorem releaseWaits_card (s : State) (q : QueueId) (c : CardIn) (h : q.cls = .faultCard) (w : c ∈ s.bus.waitCards)
    (b : c.block = q.producer) :
    c ∈ (releaseWaits s q).fcr.inbox ∧ c ∉ (releaseWaits s q).bus.waitCards := by
  simp [releaseWaits, h, w, b]

/-! ## Cards (R12, R15) -/

theorem sendCard_waits (s : State) (c : CardIn) (h : noCredit s .faultCard c.block 0 = true) :
    sendCard s c = { s with bus := { s.bus with waitCards := s.bus.waitCards ++ [c] } } := by
  simp [sendCard, cardWaits, h]

theorem sendCard_arrives (s : State) (c : CardIn) (h : noCredit s .faultCard c.block 0 = false)
    (w : s.bus.waitCards = []) : sendCard s c = { s with fcr := { s.fcr with inbox := s.fcr.inbox ++ [c] } } := by
  simp [sendCard, cardWaits, h, w]

end Sys2Proof.Machine

namespace Sys2Proof.Proofs
open Sys2Proof.Machine

/-- Settles O34: each clause is the law of one operation of the queues; the reserved space of a response is never in the
queue of its request, and a return with nothing waiting leaves nothing to do. -/
theorem queues : Obligations.Queues := by
  unfold Obligations.Queues
  refine ⟨?entry, ?credit, ?blocked, ?noSend, ?back, ?backOnly, ?waited, ?sent⟩
  case entry =>
    intro s q pl live fits can kept
    have noDrop : (responseClass q.cls && decide ((queueOf s q).dropping ≠ 0)) = false := by
      obtain h | h := kept <;> simp [h]
    rw [exec_queueEntry s q .good pl fits, can, noDrop]
    exact act_live s _ live
  case credit =>
    intro s q pl can request
    rw [queueOf_takeCredit s q pl request]
    exact ⟨canSend_credits can, rfl, rfl, takeCredit_of_queues s q pl⟩
  case blocked =>
    intro s q e pl calm fits cannot
    rw [exec_queueEntry s q e pl fits, cannot]
    exact act_quiet s s calm.live calm.quiet
  case noSend =>
    rintro s q pl (none | ⟨a, n, response, cls, full⟩)
    · exact canSend_of_no_credit pl none
    · exact canSend_of_no_room response (roomFor_eq_false cls full)
  case back =>
    intro s q live held cls
    rw [exec_creditReturn s q held cls]
    exact act_live s _ live
  case backOnly =>
    intro s q calm held cls cards events ctl
    rw [exec_creditReturn s q held cls, releaseWaits_none (setQueue s _) q cards events ctl]
    exact act_quiet s _ calm.live (quiet_of s _ calm.quiet rfl rfl)
  case waited => exact releaseWaits_card
  case sent => exact fun s c => ⟨sendCard_waits s c, sendCard_arrives s c⟩

end Sys2Proof.Proofs
end

section
/-! PROOFS. The checks of control space in their order (R26), and the accesses that pass them or fail. -/
namespace Sys2Proof.Machine

/-! ## The checks of R26 -/

theorem ctlCheck_narrow (s : State) (r : Req) (off w : Nat) (h : w < 8) : ctlCheck s r true off w = .error 0x0A := by
  simp [ctlCheck, h]

theorem ctlCheck_misaligned (s : State) (r : Req) (off : Nat) (h : off % 8 ≠ 0) :
    ctlCheck s r true off 8 = .error 0x0D := by
  simp [ctlCheck, h]

/-- An aligned access of 8 bytes to an offset of no register. -/
theorem ctlCheck_of_none (s : State) (r : Req) (write : Bool) (off : Nat) (a : off % 8 = 0) (h : regAt off = none) :
    ctlCheck s r write off 8 = .error 0x0B := by
  have whole : off / 8 * 8 = off := Nat.div_mul_cancel (Nat.dvd_of_mod_eq_zero a)
  simp [ctlCheck, a, whole, h]

/-- An aligned access of 8 bytes to a register is judged by its mapping, then by its permission. -/
theorem ctlCheck_of_some (s : State) (r : Req) (write : Bool) (off : Nat) (g : Reg) (a : off % 8 = 0)
    (h : regAt off = some g) :
    ctlCheck s r write off 8 =
      if regMapped s g = false then .error 0x0B else if permitted s r write g then .ok g else .error 0x0C := by
  have whole : off / 8 * 8 = off := Nat.div_mul_cancel (Nat.dvd_of_mod_eq_zero a)
  simp [ctlCheck, a, whole, h]

theorem ctlCheck_unmapped (s : State) (r : Req) (write : Bool) (off : Nat) (a : off % 8 = 0)
    (h : regAt off = none ∨ ∃ g, regAt off = some g ∧ regMapped s g = false) : ctlCheck s r write off 8 = .error 0x0B := by
  obtain h | ⟨g, reg, unmapped⟩ := h
  · exact ctlCheck_of_none s r write off a h
  · rw [ctlCheck_of_some s r write off g a reg, if_pos unmapped]

theorem ctlCheck_forbidden (s : State) (r : Req) (write : Bool) (off : Nat) (g : Reg) (a : off % 8 = 0)
    (reg : regAt off = some g) (mapped : regMapped s g = true) (h : permitted s r write g = false) :
    ctlCheck s r write off 8 = .error 0x0C := by
  simp [ctlCheck_of_some s r write off g a reg, mapped, h]

/-- An access of 8 bytes that passes is aligned, and its requester may reach the register. -/
theorem ctlCheck_passes {s : State} {r : Req} {write : Bool} {off : Nat} {g : Reg}
    (h : ctlCheck s r write off 8 = .ok g) : off % 8 = 0 ∧ permitted s r write g = true := by
  have a : off % 8 = 0 := by
    refine Decidable.byContradiction fun odd => ?_
    simp [ctlCheck, odd] at h
  refine ⟨a, ?_⟩
  cases reg : regAt off with
  | none => simp [ctlCheck_of_none s r write off a reg] at h
  | some g' =>
    rw [ctlCheck_of_some s r write off g' a reg] at h
    split at h
    · cases h
    · split at h <;> cases h
      assumption

/-! ## Writes -/

theorem exec_controlWrite (s : State) (r : Req) (off : BitVec 40) (w : Width) (v : Word) :
    exec (.controlWrite r off w v) s = act s (access s r true off.toNat (widthBytes w) v) := rfl

theorem writeDone_of_ne_jtag (s : State) {r : Req} (h : r ≠ .jtag) : writeDone s r = s := by
  cases r with
  | ctx c => rfl
  | mgmt => rfl
  | jtag => exact absurd rfl h

/-- A card of an access leaves the waiting accesses. -/
@[simp] theorem accessCard_waitCtl (s : State) (r : Req) (k off : Nat) :
    (accessCard s r k off).bus.waitCtl = s.bus.waitCtl := by
  unfold accessCard card sendCard
  split <;> rfl

/-- A write of a context or the management link that fails a check changes nothing and is reported (R26). -/
theorem controlWrite_fails {s : State} {r : Req} {off : BitVec 40} {w : Width} {k : Nat} (v : Word) (live : s.live = true)
    (i : Issues s r off.toNat) (j : r ≠ .jtag) (fails : ctlCheck s r true off.toNat (widthBytes w) = .error k) :
    exec (.controlWrite r off w v) s = .next (settle (card s 480 k (reqInst s r) 0 off.toNat)) := by
  have dropped : ctlWrite s r off.toNat (widthBytes w) v = accessCard s r k off.toNat := by simp [ctlWrite, fails]
  rw [exec_controlWrite, access_write s r _ _ v i, dropped, writeDone_of_ne_jtag _ j,
    flushCtl_none _ ((accessCard_waitCtl s r k _).trans i.noneWait)]
  exact act_live s _ live

/-- A write of CACHE_L2MASK changes the mask of its class and leaves nothing to do. -/
theorem ctlCmd_cacheL2mask {s : State} {r : Req} {off k : Nat} (v : Word) (h : Reaches s r off (.cacheL2mask k)) :
    ctlCmd s r off v = .next (setCaches s { s.caches with l2mask := s.caches.l2mask.set k (v.extractLsb' 0 16) }) := by
  rw [ctlCmd_quiet s r off v _ h h.issues.noneWait (quiet_of s _ h.calm.quiet rfl rfl), writeDone_of h rfl rfl]
  rfl

/-! ## Reads -/

/-- A read issued with a credit and none before it is performed. -/
theorem access_read (s : State) (r : Req) (off w : Nat) (h : Issues s r off) :
    access s r false off w 0 = flushCtl (readNow s r off w) := by
  have now (f : State → State) : asIssued s (newAcc s r none false off w 0) f = f s :=
    asIssued_now s _ f (by cases r <;> rfl)
  have fresh : (newAcc s r none false off w 0).stale s = false := by simp [CtlAcc.stale, newAcc]
  have sent : accWaits s (newAcc s r none false off w 0).req (newAcc s r none false off w 0).off = false := by
    simp [accWaits, newAcc, h.credit, h.noneWait]
  unfold access sendAcc
  simp only [sent, performAcc, fresh, now]
  rfl

theorem bytesOfReg_whole (v : Word) : bytesOfReg v 0 8 = v := by
  have ones : w64 (2 ^ (8 * 8) - 1) = BitVec.allOnes 64 := by decide
  rw [bytesOfReg, ones, BitVec.and_allOnes, BitVec.ushiftRight_zero]

/-- The value of a read reaches a context or the management link. -/
theorem readDone_of_ne_jtag (s : State) {r : Req} (v : Word) (h : r ≠ .jtag) : readDone s r v = complete s (.data v) := by
  cases r with
  | ctx c => rfl
  | mgmt => rfl
  | jtag => exact absurd rfl h

/-- A read of MEMC_CFG that passes returns the register. -/
theorem readNow_memcCfg {s : State} {r : Req} {off : Nat} (h : ctlCheck s r false off 8 = .ok .memcCfg) :
    readNow s r off 8 = complete s (.data s.memc.cfg) := by
  obtain ⟨aligned, allowed⟩ := ctlCheck_passes h
  have notJtag : r ≠ .jtag := by
    rintro rfl
    simp [permitted, Reg.isAud, Reg.isDbg] at allowed
  have waits : readWaits s r .memcCfg = false := rfl
  have effect : regReadEffect s r 0 8 .memcCfg = s := rfl
  have content : regVal s r .memcCfg = s.memc.cfg := rfl
  have value : ctlRead s r off 8 = some (s, s.memc.cfg) := by
    simp [ctlRead, h, waits, aligned, effect, content, bytesOfReg_whole]
  rw [readNow, value]
  exact readDone_of_ne_jtag s _ notJtag

theorem exec_controlRead (s : State) (r : Req) (off : BitVec 40) (w : Width) :
    exec (.controlRead r off w) s = act s (access s r false off.toNat (widthBytes w) 0) := rfl

/-! ## Management requests (R23) -/

theorem exec_mgmtBar0Request (s : State) (write : Bool) (off : BitVec 40) (len : Nat) (v : Word) (h : s.chan.mgmtUp = true) :
    exec (.mgmtBar0Request write off len v) s = act s (if 8 < len then complete s .unsupported
      else access s .mgmt write off.toNat len (if write then v else 0)) := by
  change execMgmtBar0Request write off len v s = _
  rw [execMgmtBar0Request, h]
  rfl

end Sys2Proof.Machine

namespace Sys2Proof.Proofs
open Sys2Proof.Machine

/-- Settles O35: the checks of R26 are laws of ctlCheck, one for each place in their order, and a write that fails one is
its card. -/
theorem controlSpace : Obligations.ControlSpace := by
  unfold Obligations.ControlSpace
  refine ⟨?reaches, ?mask, ?width, ?alignment, ?mapping, ?permission, ?read, ?long, ?mgmt⟩
  case reaches => exact fun s r off v g h none => ctlCmd_reaches s r off.toNat v g h none
  case mask => exact fun s r off v k h => ctlCmd_cacheL2mask v h
  case width => exact fun s r off w v live i j narrow => controlWrite_fails v live i j (ctlCheck_narrow s r _ _ narrow)
  case alignment =>
    exact fun s r off v live i j odd => controlWrite_fails v live i j (ctlCheck_misaligned s r _ odd)
  case mapping =>
    exact fun s r off v live i j aligned unmapped =>
      controlWrite_fails v live i j (ctlCheck_unmapped s r true _ aligned unmapped)
  case permission =>
    exact fun s r off v g live i j aligned reg mapped forbidden =>
      controlWrite_fails v live i j (ctlCheck_forbidden s r true _ g aligned reg mapped forbidden)
  case read =>
    intro s r off calm i passes
    rw [exec_controlRead, access_read s r _ _ i, widthBytes, readNow_memcCfg passes,
      flushCtl_none (complete s (.data s.memc.cfg)) i.noneWait]
    exact act_quiet s _ calm.live (quiet_of s _ calm.quiet rfl rfl)
  case long =>
    intro s off len v w calm up long
    rw [exec_mgmtBar0Request s w off len v up, if_pos long]
    exact act_quiet s _ calm.live (quiet_of s _ calm.quiet rfl rfl)
  case mgmt =>
    intro s off v k h up
    rw [exec_mgmtBar0Request s true off 8 v up, if_neg (by decide)]
    exact ctlCmd_cacheL2mask v h

end Sys2Proof.Proofs
end

section
/-! PROOFS. The encoding (04): the halfwords that the tables write for a unit and what the decoder reads from them. -/
namespace Sys2Proof.Machine

/-! ## The opcode maps name one operation each -/

theorem mem_allOps (op : QOp) : op ∈ allOps := by cases op <;> decide

/-- In a map where every operation that has a number is the first with that number, the search for a number answers the
operation that has it. -/
theorem find_allOps_iff {key : QOp → Option Nat}
    (first : ∀ op ∈ allOps, ∀ n ∈ key op, allOps.find? (fun q => decide (key q = some n)) = some op) {op : QOp} {n : Nat} :
    allOps.find? (fun q => decide (key q = some n)) = some op ↔ key op = some n :=
  ⟨fun h => by simpa using List.find?_some h, fun h => first op (mem_allOps op) n h⟩

theorem find_longOp_iff {op : QOp} {n : Nat} :
    allOps.find? (fun q => decide (longOp q = some n)) = some op ↔ longOp op = some n := find_allOps_iff (by decide)

theorem find_shortOp_iff {op : QOp} {n : Nat} :
    allOps.find? (fun q => decide (shortOp q = some n)) = some op ↔ shortOp op = some n := find_allOps_iff (by decide)

theorem find_funcOf_iff {op : QOp} {n : Nat} :
    allOps.find? (fun q => decide (funcOf q = some n)) = some op ↔ funcOf op = some n := find_allOps_iff (by decide)

/-- FUNC of the short operation group, which has no TRAP (R99). -/
def shortFuncOf (op : QOp) : Option Nat := if op = .trap then none else funcOf op

theorem shortFuncOf_eq_some {op : QOp} {n : Nat} : shortFuncOf op = some n ↔ funcOf op = some n ∧ op ≠ .trap := by
  unfold shortFuncOf; split <;> simp [*]

theorem find_shortFunc_iff {op : QOp} {n : Nat} :
    allOps.find? (fun q => decide (funcOf q = some n) && decide (q ≠ .trap)) = some op ↔ funcOf op = some n ∧ op ≠ .trap := by
  rw [← shortFuncOf_eq_some, ← find_allOps_iff (key := shortFuncOf) (by decide)]
  simp only [shortFuncOf_eq_some, Bool.decide_and]

theorem longOp_lt {op : QOp} {o : Nat} (h : longOp op = some o) : o < 63 :=
  (by decide : ∀ op ∈ allOps, ∀ o ∈ longOp op, o < 63) op (mem_allOps op) o h

theorem shortOp_lt {op : QOp} {o : Nat} (h : shortOp op = some o) : o < 22 :=
  (by decide : ∀ op ∈ allOps, ∀ o ∈ shortOp op, o < 22) op (mem_allOps op) o h

/-- CT.ON and CT.OFF are the instructions of the group of R101. -/
theorem grpOf_eq_some {op : QOp} {g : Nat} : grpOf op = some g ↔ g = 3 ∧ op = .ctOn ∨ g = 4 ∧ op = .ctOff := by
  constructor
  · exact (by decide : ∀ op ∈ allOps, ∀ g ∈ grpOf op, g = 3 ∧ op = .ctOn ∨ g = 4 ∧ op = .ctOff) op (mem_allOps op) g
  · rintro (⟨rfl, rfl⟩ | ⟨rfl, rfl⟩) <;> rfl

theorem grpOf_lt {op : QOp} {g : Nat} (h : grpOf op = some g) : g < 8 := by
  have := grpOf_eq_some.mp h
  omega

theorem grpOf_of_longOp {op : QOp} {o : Nat} (h : longOp op = some o) : grpOf op = none :=
  (by decide : ∀ op ∈ allOps, ∀ o ∈ longOp op, grpOf op = none) op (mem_allOps op) o h

theorem grpOf_of_shortOp {op : QOp} {o : Nat} (h : shortOp op = some o) : grpOf op = none :=
  (by decide : ∀ op ∈ allOps, ∀ o ∈ shortOp op, grpOf op = none) op (mem_allOps op) o h

/-- A function of the operation group has no opcode of its own and is not of the group of R101. -/
theorem maps_of_funcOf {op : QOp} {n : Nat} (h : funcOf op = some n) :
    longOp op = none ∧ shortOp op = none ∧ grpOf op = none :=
  (by decide : ∀ op ∈ allOps, ∀ n ∈ funcOf op, longOp op = none ∧ shortOp op = none ∧ grpOf op = none)
    op (mem_allOps op) n h

/-! ## Halfwords and their fields -/

/-- The two halfwords of a long form (R88). -/
def longWords (o : Nat) (pred : BitVec 3) (size : BitVec 2) (am : BitVec 4) (operand : BitVec 15) : List HWord :=
  [BitVec.ofNat 16 (0xC000 + o * 256 + pred.toNat * 32 + size.toNat * 8 + am.toNat / 2),
   BitVec.ofNat 16 (am.toNat % 2 * 0x8000 + operand.toNat)]

/-- The halfword of a short form (R93). -/
def shortWord (o : Nat) (size : BitVec 2) (sam : BitVec 3) (soperand : BitVec 6) : HWord :=
  BitVec.ofNat 16 (o * 0x800 + size.toNat * 0x200 + sam.toNat * 0x40 + soperand.toNat)

/-- A halfword of the group of R101. -/
def grpWord (g : Nat) (low : BitVec 8) : HWord := BitVec.ofNat 16 (0xB800 + g * 256 + low.toNat)

theorem longHead_eq_iff {o : Nat} (ho : o < 64) {p : BitVec 3} {s : BitVec 2} {a : BitVec 4} {h : HWord} :
    BitVec.ofNat 16 (0xC000 + o * 256 + p.toNat * 32 + s.toNat * 8 + a.toNat / 2) = h ↔
      fld h 15 14 = 3 ∧ fld h 13 8 = o ∧ h.extractLsb' 5 3 = p ∧ h.extractLsb' 3 2 = s ∧ fld h 2 0 = a.toNat / 2 := by
  simp only [fld, ← BitVec.toNat_inj, BitVec.toNat_ofNat, BitVec.extractLsb'_toNat, Nat.shiftRight_eq_div_pow]
  omega

theorem longTail_eq_iff {a : BitVec 4} {d : BitVec 15} {h : HWord} :
    BitVec.ofNat 16 (a.toNat % 2 * 0x8000 + d.toNat) = h ↔ fld h 15 15 = a.toNat % 2 ∧ h.extractLsb' 0 15 = d := by
  simp only [fld, ← BitVec.toNat_inj, BitVec.toNat_ofNat, BitVec.extractLsb'_toNat, Nat.shiftRight_eq_div_pow]
  omega

/-- AM is split over the two halfwords of a long form (R88). -/
theorem am_eq_iff {h0 h1 : HWord} {a : BitVec 4} :
    BitVec.ofNat 4 (fld h0 2 0 * 2 + fld h1 15 15) = a ↔ fld h0 2 0 = a.toNat / 2 ∧ fld h1 15 15 = a.toNat % 2 := by
  simp only [fld, ← BitVec.toNat_inj, BitVec.toNat_ofNat, Nat.shiftRight_eq_div_pow]
  omega

theorem longWords_prefix_iff {o : Nat} (ho : o < 64) {p : BitVec 3} {s : BitVec 2} {a : BitVec 4} {d : BitVec 15}
    {h0 h1 : HWord} {r : List HWord} :
    longWords o p s a d <+: h0 :: h1 :: r ↔ fld h0 15 14 = 3 ∧ fld h0 13 8 = o ∧ longForm h0 h1 = .long p s a d := by
  rw [longWords, List.cons_prefix_cons, List.cons_prefix_cons, longHead_eq_iff ho, longTail_eq_iff, longForm,
    Form.long.injEq, am_eq_iff]
  simp [and_assoc]

theorem shortWord_eq_iff {o : Nat} (ho : o < 32) {s : BitVec 2} {m : BitVec 3} {d : BitVec 6} {h : HWord} :
    shortWord o s m d = h ↔ fld h 15 11 = o ∧ shortForm h = .short s m d := by
  simp only [shortWord, shortForm, fld, Form.short.injEq, ← BitVec.toNat_inj, BitVec.toNat_ofNat,
    BitVec.extractLsb'_toNat, Nat.shiftRight_eq_div_pow]
  omega

theorem grpWord_eq_iff {g : Nat} (hg : g < 8) {l : BitVec 8} {h : HWord} :
    grpWord g l = h ↔ inGroup h = true ∧ fld h 10 8 = g ∧ h.extractLsb' 0 8 = l := by
  simp only [grpWord, inGroup, fld, decide_eq_true_eq, ← BitVec.toNat_inj, BitVec.toNat_ofNat, BitVec.extractLsb'_toNat,
    Nat.shiftRight_eq_div_pow]
  omega

/-- Bits [15:14] = 11b mark a long form; they are the top of the short opcode field (R84). -/
theorem longMark_iff (h : HWord) : fld h 15 14 = 3 ↔ 24 ≤ fld h 15 11 := by
  simp only [fld, Nat.shiftRight_eq_div_pow]
  omega

/-- FUNC of a long form is the top of its OPERAND (R99). -/
theorem longForm_func {h0 h1 : HWord} {p s a} {d : BitVec 15} (e : longForm h0 h1 = .long p s a d) :
    fld h1 14 8 = d.toNat / 256 := by
  injection e with _ _ _ operand
  rw [← operand, BitVec.extractLsb'_toNat, fld, Nat.shiftRight_eq_div_pow]
  omega

/-- FUNC of a short form is its SOPERAND (R99). -/
theorem shortForm_func {h : HWord} {s m} {d : BitVec 6} (e : shortForm h = .short s m d) : fld h 5 0 = d.toNat := by
  injection e with _ _ soperand
  rw [← soperand, BitVec.extractLsb'_toNat, fld]

/-! ## The operation of an opcode and FUNC -/

theorem longInst_eq_some {h0 h1 : HWord} {op : QOp} :
    longInst h0 h1 = some op ↔
      longOp op = some (fld h0 13 8) ∨ fld h0 13 8 = 0x3F ∧ funcOf op = some (fld h1 14 8) := by
  unfold longInst
  split
  next group =>
    have noOpcode : longOp op ≠ some 0x3F := fun e => absurd (longOp_lt e) (by decide)
    simp [find_funcOf_iff, group, noOpcode]
  next group => simp [find_longOp_iff, group]

theorem shortInst_eq_some {h : HWord} {op : QOp} :
    shortInst h = some op ↔
      shortOp op = some (fld h 15 11) ∨ fld h 15 11 = 22 ∧ funcOf op = some (fld h 5 0) ∧ op ≠ .trap := by
  unfold shortInst
  split
  next group =>
    have noOpcode : shortOp op ≠ some 22 := fun e => absurd (shortOp_lt e) (by decide)
    rw [find_shortFunc_iff]
    simp [group, noOpcode]
  next group => simp [find_shortOp_iff, group]

/-- A halfword with a short operation is no long form and not of the group of R101 (R84, R96). -/
theorem shortInst_le {h : HWord} {op : QOp} (e : shortInst h = some op) : fld h 15 11 ≤ 22 := by
  obtain short | ⟨group, -⟩ := shortInst_eq_some.mp e
  · have := shortOp_lt short; omega
  · omega

/-! ## The halfwords of an instruction -/

theorem instWords_long_of_longOp {op : QOp} {o : Nat} (opcode : longOp op = some o) (p s a d) :
    instWords op (.long p s a d) = some (longWords o p s a d) := by
  simp only [instWords, opcode]
  rfl

theorem instWords_long_of_funcOf {op : QOp} {n : Nat} (func : funcOf op = some n) (p s a) (d : BitVec 15) :
    instWords op (.long p s a d) = if d.toNat / 256 = n then some (longWords 0x3F p s a d) else none := by
  obtain ⟨noOpcode, -, -⟩ := maps_of_funcOf func
  simp only [instWords, noOpcode, func]
  rfl

theorem instWords_short_of_shortOp {op : QOp} {o : Nat} (opcode : shortOp op = some o) (s m d) :
    instWords op (.short s m d) = some [shortWord o s m d] := by
  simp only [instWords, opcode]
  rfl

theorem instWords_short_of_funcOf {op : QOp} {n : Nat} (func : funcOf op = some n) (s m) (d : BitVec 6) :
    instWords op (.short s m d) = if d.toNat = n ∧ op ≠ .trap then some [shortWord 22 s m d] else none := by
  obtain ⟨-, noOpcode, -⟩ := maps_of_funcOf func
  simp only [instWords, noOpcode, func]
  split
  next own =>
    obtain ⟨rfl, -⟩ := own
    rfl
  next => rfl

theorem instWords_long_eq_some {op : QOp} {p s a} {d : BitVec 15} {w : List HWord} :
    instWords op (.long p s a d) = some w ↔
      ∃ o, (longOp op = some o ∨ o = 0x3F ∧ funcOf op = some (d.toNat / 256)) ∧ longWords o p s a d = w := by
  constructor
  · intro words
    cases opcode : longOp op with
    | some o =>
      rw [instWords_long_of_longOp opcode] at words
      exact ⟨o, .inl rfl, Option.some.inj words⟩
    | none =>
      cases func : funcOf op with
      | none => simp [instWords, opcode, func] at words
      | some n =>
        rw [instWords_long_of_funcOf func] at words
        obtain ⟨own, words⟩ := Option.ite_none_right_eq_some.mp words
        exact ⟨0x3F, .inr ⟨rfl, congrArg some own.symm⟩, Option.some.inj words⟩
  · rintro ⟨o, opcode | ⟨rfl, func⟩, rfl⟩
    · exact instWords_long_of_longOp opcode p s a d
    · rw [instWords_long_of_funcOf func, if_pos rfl]

theorem instWords_short_eq_some {op : QOp} {s m} {d : BitVec 6} {w : List HWord} :
    instWords op (.short s m d) = some w ↔
      ∃ o, (shortOp op = some o ∨ o = 22 ∧ funcOf op = some d.toNat ∧ op ≠ .trap) ∧ [shortWord o s m d] = w := by
  constructor
  · intro words
    cases opcode : shortOp op with
    | some o =>
      rw [instWords_short_of_shortOp opcode] at words
      exact ⟨o, .inl rfl, Option.some.inj words⟩
    | none =>
      cases func : funcOf op with
      | none => simp [instWords, opcode, func] at words
      | some n =>
        rw [instWords_short_of_funcOf func] at words
        obtain ⟨⟨own, noTrap⟩, words⟩ := Option.ite_none_right_eq_some.mp words
        exact ⟨22, .inr ⟨rfl, congrArg some own.symm, noTrap⟩, Option.some.inj words⟩
  · rintro ⟨o, opcode | ⟨rfl, func, noTrap⟩, rfl⟩
    · exact instWords_short_of_shortOp opcode s m d
    · rw [instWords_short_of_funcOf func, if_pos ⟨rfl, noTrap⟩]

theorem instWords_grp_eq_some {op : QOp} {l : BitVec 8} {w : List HWord} :
    instWords op (.grp l) = some w ↔ ∃ g, grpOf op = some g ∧ [grpWord g l] = w := by
  simp [instWords, grpWord]

/-- A stream of halfwords begins with an instruction. -/
def BeginsWith (hs : List HWord) (op : QOp) (f : Form) : Prop := ∃ w, instWords op f = some w ∧ w <+: hs

theorem beginsWith_long_iff {h0 h1 : HWord} {r : List HWord} {op : QOp} {p s a d} :
    BeginsWith (h0 :: h1 :: r) op (.long p s a d) ↔
      fld h0 15 14 = 3 ∧ longInst h0 h1 = some op ∧ longForm h0 h1 = .long p s a d := by
  rw [longInst_eq_some]
  constructor
  · rintro ⟨w, words, begins⟩
    obtain ⟨o, opcode, rfl⟩ := instWords_long_eq_some.mp words
    have small : o < 64 := by
      obtain long | ⟨rfl, -⟩ := opcode
      · have := longOp_lt long; omega
      · decide
    obtain ⟨mark, rfl, fields⟩ := (longWords_prefix_iff small).mp begins
    rw [longForm_func fields]
    exact ⟨mark, opcode, fields⟩
  · rintro ⟨mark, opcode, fields⟩
    rw [longForm_func fields] at opcode
    refine ⟨_, instWords_long_eq_some.mpr ⟨_, opcode, rfl⟩, (longWords_prefix_iff ?_).mpr ⟨mark, rfl, fields⟩⟩
    exact Nat.mod_lt _ (by decide)

theorem beginsWith_short_iff {h : HWord} {r : List HWord} {op : QOp} {s m d} :
    BeginsWith (h :: r) op (.short s m d) ↔ shortInst h = some op ∧ shortForm h = .short s m d := by
  rw [shortInst_eq_some]
  constructor
  · rintro ⟨w, words, begins⟩
    obtain ⟨o, opcode, rfl⟩ := instWords_short_eq_some.mp words
    have small : o < 32 := by
      obtain short | ⟨rfl, -⟩ := opcode
      · have := shortOp_lt short; omega
      · decide
    obtain ⟨rfl, fields⟩ := (shortWord_eq_iff small).mp (List.cons_prefix_cons.mp begins).1
    rw [shortForm_func fields]
    exact ⟨opcode, fields⟩
  · rintro ⟨opcode, fields⟩
    rw [shortForm_func fields] at opcode
    refine ⟨_, instWords_short_eq_some.mpr ⟨_, opcode, rfl⟩, List.cons_prefix_cons.mpr ⟨?_, List.nil_prefix⟩⟩
    exact (shortWord_eq_iff (Nat.mod_lt _ (by decide))).mpr ⟨rfl, fields⟩

theorem beginsWith_grp_iff {h : HWord} {r : List HWord} {op : QOp} {l : BitVec 8} :
    BeginsWith (h :: r) op (.grp l) ↔ inGroup h = true ∧ grpOf op = some (fld h 10 8) ∧ h.extractLsb' 0 8 = l := by
  constructor
  · rintro ⟨w, words, begins⟩
    obtain ⟨g, group, rfl⟩ := instWords_grp_eq_some.mp words
    obtain ⟨mark, rfl, low⟩ := (grpWord_eq_iff (grpOf_lt group)).mp (List.cons_prefix_cons.mp begins).1
    exact ⟨mark, group, low⟩
  · rintro ⟨mark, group, low⟩
    refine ⟨_, instWords_grp_eq_some.mpr ⟨_, group, rfl⟩, List.cons_prefix_cons.mpr ⟨?_, List.nil_prefix⟩⟩
    exact (grpWord_eq_iff (grpOf_lt group)).mpr ⟨mark, rfl, low⟩

/-! ## The decoder -/

theorem decodeInst_eq_unit {pre pre' : Pre} {h0 h1 : HWord} {op : QOp} {f : Form} :
    decodeInst pre h0 h1 = .unit pre' op f ↔ pre = pre' ∧
      (fld h0 15 14 = 3 ∧ longInst h0 h1 = some op ∧ longForm h0 h1 = f ∨ shortInst h0 = some op ∧ shortForm h0 = f) := by
  unfold decodeInst
  split
  next mark =>
    have noShort : shortInst h0 ≠ some op := fun e => by
      have := shortInst_le e
      have := (longMark_iff h0).mp mark
      omega
    cases longInst h0 h1 <;> simp [mark, noShort]
  next mark => cases shortInst h0 <;> simp [mark]

theorem grpOf_of_longInst {h0 h1 : HWord} {op : QOp} (e : longInst h0 h1 = some op) : grpOf op = none := by
  obtain long | ⟨-, func⟩ := longInst_eq_some.mp e
  · exact grpOf_of_longOp long
  · obtain ⟨-, -, group⟩ := maps_of_funcOf func
    exact group

theorem grpOf_of_shortInst {h : HWord} {op : QOp} (e : shortInst h = some op) : grpOf op = none := by
  obtain short | ⟨-, func, -⟩ := shortInst_eq_some.mp e
  · exact grpOf_of_shortOp short
  · obtain ⟨-, -, group⟩ := maps_of_funcOf func
    exact group

/-- The decoder reads an instruction where the halfwords begin with one outside the group of R101 (R84). -/
theorem decodeInst_iff_beginsWith {pre pre' : Pre} {h0 h1 : HWord} {r : List HWord} {op : QOp} {f : Form} :
    decodeInst pre h0 h1 = .unit pre' op f ↔ pre = pre' ∧ grpOf op = none ∧ BeginsWith (h0 :: h1 :: r) op f := by
  rw [decodeInst_eq_unit]
  refine and_congr_right fun _ => ?_
  cases f with
  | long p s a d =>
    rw [beginsWith_long_iff]
    constructor
    · rintro (⟨mark, inst, fields⟩ | ⟨-, fields⟩)
      · exact ⟨grpOf_of_longInst inst, mark, inst, fields⟩
      · cases fields
    · exact fun ⟨_, begins⟩ => .inl begins
  | short s m d =>
    rw [beginsWith_short_iff]
    constructor
    · rintro (⟨-, -, fields⟩ | ⟨inst, fields⟩)
      · cases fields
      · exact ⟨grpOf_of_shortInst inst, inst, fields⟩
    · exact fun ⟨_, begins⟩ => .inr begins
  | grp l =>
    rw [beginsWith_grp_iff]
    constructor
    · rintro (⟨-, -, fields⟩ | ⟨-, fields⟩) <;> cases fields
    · rintro ⟨noGroup, -, group, -⟩
      rw [noGroup] at group
      cases group

/-- No instruction outside the group of R101 begins with a halfword of it (R96). -/
theorem inGroup_of_decodeInst {pre pre' : Pre} {h0 h1 : HWord} {op : QOp} {f : Form}
    (e : decodeInst pre h0 h1 = .unit pre' op f) : inGroup h0 = false := by
  rw [inGroup, decide_eq_false_iff_not]
  obtain ⟨-, ⟨mark, -⟩ | ⟨inst, -⟩⟩ := decodeInst_eq_unit.mp e
  · have := (longMark_iff h0).mp mark
    omega
  · have := shortInst_le inst
    omega

/-! ## Prefixes -/

/-- A base with bits [7:0] clear and a low byte put together are a halfword of the group of R101. -/
theorem or_eq_grpWord (g : Nat) (l : BitVec 8) : BitVec.ofNat 16 (2 ^ 8 * (0xB8 + g)) ||| l.setWidth 16 = grpWord g l := by
  rw [grpWord, ← BitVec.ofNat_toNat, ← BitVec.ofNat_or, ← Nat.two_pow_add_eq_or_of_lt l.isLt]
  congr 1
  omega

theorem preWords_pfx (l : BitVec 8) : preWords (.pfx l) = [grpWord 0 l] := congrArg ([·]) (or_eq_grpWord 0 l)
theorem preWords_rep (l : BitVec 8) : preWords (.rep l) = [grpWord 1 l] := congrArg ([·]) (or_eq_grpWord 1 l)
theorem preWords_lock (l : BitVec 8) : preWords (.lock l) = [grpWord 2 l] := congrArg ([·]) (or_eq_grpWord 2 l)

theorem preOf_eq_some {h : HWord} {pre : Pre} :
    preOf h = some pre ↔
      fld h 10 8 = 0 ∧ .pfx (h.extractLsb' 0 8) = pre ∨ fld h 10 8 = 1 ∧ .rep (h.extractLsb' 0 8) = pre ∨
        fld h 10 8 = 2 ∧ .lock (h.extractLsb' 0 8) = pre := by
  by_cases pfx : fld h 10 8 = 0
  · simp [preOf, pfx]
  by_cases rep : fld h 10 8 = 1
  · simp [preOf, rep]
  by_cases lock : fld h 10 8 = 2
  · simp [preOf, lock]
  · simp [preOf, pfx, rep, lock]

theorem preOf_ne_some_none {h : HWord} : preOf h ≠ some .none := by simp [preOf_eq_some]

/-- PFX.P, REP or LOCK is read from exactly the halfword that is written for it (R101). -/
theorem preWords_eq_singleton_iff {pre : Pre} {h : HWord} :
    preWords pre = [h] ↔ inGroup h = true ∧ preOf h = some pre := by
  cases pre with
  | none => simp [preWords, preOf_eq_some]
  | pfx l => simp [preWords_pfx, grpWord_eq_iff, preOf_eq_some]
  | rep l => simp [preWords_rep, grpWord_eq_iff, preOf_eq_some]
  | lock l => simp [preWords_lock, grpWord_eq_iff, preOf_eq_some]

theorem exists_preWords_eq_singleton {pre : Pre} (h : pre ≠ .none) : ∃ p, preWords pre = [p] := by
  cases pre with
  | none => exact absurd rfl h
  | _ => exact ⟨_, rfl⟩

/-! ## Units -/

theorem decodeTwice_ne_unit {pre pre' : Pre} {h : HWord} {op : QOp} {f : Form} : decodeTwice pre h ≠ .unit pre' op f := by
  simp only [decodeTwice]
  repeat' split
  all_goals exact Decoded.noConfusion

theorem decodeUnit_of_not_inGroup {h0 : HWord} (group : inGroup h0 = false) (h1 h2 : HWord) :
    decodeUnit h0 h1 h2 = decodeInst .none h0 h1 := by
  simp [decodeUnit, group]

/-- After PFX.P, REP or LOCK the decoder reads the instruction that follows it (R101). -/
theorem decodeUnit_of_preOf_some {h0 h1 h2 : HWord} {p pre : Pre} {op : QOp} {f : Form} (group : inGroup h0 = true)
    (isPre : preOf h0 = some p) : decodeUnit h0 h1 h2 = .unit pre op f ↔ decodeInst p h1 h2 = .unit pre op f := by
  simp only [decodeUnit, group, isPre, Bool.not_true, Bool.false_eq_true, if_false]
  cases second : inGroup h1 with
  | false => simp
  | true =>
    have noInst : decodeInst p h1 h2 ≠ .unit pre op f := fun e => by simp [inGroup_of_decodeInst e] at second
    simp [noInst, decodeTwice_ne_unit]

/-- What remains of the group of R101 is CT.ON, CT.OFF and undefined halfwords (R101). -/
theorem decodeUnit_of_preOf_none {h0 h1 h2 : HWord} {pre : Pre} {op : QOp} {f : Form} (group : inGroup h0 = true)
    (noPre : preOf h0 = none) :
    decodeUnit h0 h1 h2 = .unit pre op f ↔
      pre = .none ∧ grpOf op = some (fld h0 10 8) ∧ .grp (h0.extractLsb' 0 8) = f := by
  simp only [decodeUnit, group, noPre, Bool.not_true, Bool.false_eq_true, if_false, grpOf_eq_some]
  by_cases on : fld h0 10 8 = 3
  · simp [on, eq_comm]
  by_cases off : fld h0 10 8 = 4
  · simp [off, eq_comm]
  · simp [on, off]

/-- CT.ON and CT.OFF have the form of the group alone (R101). -/
theorem beginsWith_of_grpOf {h0 h1 : HWord} {r : List HWord} {op : QOp} {f : Form} (ct : grpOf op ≠ none) :
    BeginsWith (h0 :: h1 :: r) op f ↔
      inGroup h0 = true ∧ grpOf op = some (fld h0 10 8) ∧ .grp (h0.extractLsb' 0 8) = f := by
  cases f with
  | long p s a d =>
    rw [beginsWith_long_iff]
    exact iff_of_false (fun ⟨_, inst, _⟩ => ct (grpOf_of_longInst inst)) (by simp)
  | short s m d =>
    rw [beginsWith_short_iff]
    exact iff_of_false (fun ⟨inst, _⟩ => ct (grpOf_of_shortInst inst)) (by simp)
  | grp l => rw [beginsWith_grp_iff, Form.grp.injEq]

/-- With no PFX.P, REP or LOCK, an instruction outside the group of R101 is read by decodeInst alone. -/
theorem decodeUnit_none_iff_decodeInst {h0 h1 h2 : HWord} {op : QOp} {f : Form} (noCt : grpOf op = none) :
    decodeUnit h0 h1 h2 = .unit .none op f ↔ decodeInst .none h0 h1 = .unit .none op f := by
  cases group : inGroup h0 with
  | false => rw [decodeUnit_of_not_inGroup group]
  | true =>
    refine iff_of_false ?_ fun e => by simp [inGroup_of_decodeInst e] at group
    cases isPre : preOf h0 with
    | none => simp [decodeUnit_of_preOf_none group isPre, noCt]
    | some p =>
      rw [decodeUnit_of_preOf_some group isPre]
      intro e
      obtain ⟨rfl, -⟩ := decodeInst_eq_unit.mp e
      exact preOf_ne_some_none isPre

/-- CT.ON and CT.OFF are read from their own halfword (R101). -/
theorem decodeUnit_none_iff_of_grpOf {h0 h1 h2 : HWord} {op : QOp} {f : Form} (ct : grpOf op ≠ none) :
    decodeUnit h0 h1 h2 = .unit .none op f ↔
      inGroup h0 = true ∧ grpOf op = some (fld h0 10 8) ∧ .grp (h0.extractLsb' 0 8) = f := by
  have noInst {pre h h'} : decodeInst pre h h' ≠ .unit .none op f := fun e =>
    ct ((decodeInst_iff_beginsWith (r := [])).mp e).2.1
  cases group : inGroup h0 with
  | false => simp [decodeUnit_of_not_inGroup group, noInst]
  | true =>
    cases isPre : preOf h0 with
    | none => simp [decodeUnit_of_preOf_none group isPre]
    | some p =>
      have otherGroup : grpOf op ≠ some (fld h0 10 8) := fun e => by
        have := grpOf_eq_some.mp e
        have := preOf_eq_some.mp isPre
        omega
      simp [decodeUnit_of_preOf_some group isPre, noInst, otherGroup]

/-- The decoder reads an unprefixed unit where the halfwords begin with its instruction. -/
theorem decodeUnit_bare_iff {h0 h1 h2 : HWord} {op : QOp} {f : Form} :
    decodeUnit h0 h1 h2 = .unit .none op f ↔ BeginsWith [h0, h1, h2] op f := by
  by_cases ct : grpOf op = none
  · rw [decodeUnit_none_iff_decodeInst ct, decodeInst_iff_beginsWith (r := [h2])]
    simp [ct]
  · rw [decodeUnit_none_iff_of_grpOf ct, beginsWith_of_grpOf ct]

/-- The decoder reads a prefixed unit where the halfwords begin with its PFX.P, REP or LOCK and then with an instruction
other than CT.ON and CT.OFF. -/
theorem decodeUnit_prefixed_iff {h0 h1 h2 : HWord} {pre : Pre} {op : QOp} {f : Form} (prefixed : pre ≠ .none) :
    decodeUnit h0 h1 h2 = .unit pre op f ↔ preWords pre = [h0] ∧ grpOf op = none ∧ BeginsWith [h1, h2] op f := by
  rw [preWords_eq_singleton_iff]
  cases group : inGroup h0 with
  | false => simp [decodeUnit_of_not_inGroup group, decodeInst_eq_unit, prefixed.symm]
  | true =>
    cases isPre : preOf h0 with
    | none => simp [decodeUnit_of_preOf_none group isPre, prefixed]
    | some p => simp [decodeUnit_of_preOf_some group isPre, decodeInst_iff_beginsWith (r := [])]

/-- The decoder and the encoder answer each other: the decoder reads a unit where the halfwords begin with those that the
encoding tables write for it, and CT.ON and CT.OFF stand unprefixed (R71, R84 to R101). -/
theorem decodeUnit_eq_unit_iff {h0 h1 h2 : HWord} {pre : Pre} {op : QOp} {f : Form} :
    decodeUnit h0 h1 h2 = .unit pre op f ↔
      (pre = .none ∨ grpOf op = none) ∧ ∃ w, unitWords pre op f = some w ∧ w <+: [h0, h1, h2] := by
  have words : (∃ w, unitWords pre op f = some w ∧ w <+: [h0, h1, h2]) ↔
      ∃ w, instWords op f = some w ∧ preWords pre ++ w <+: [h0, h1, h2] := by
    constructor
    · rintro ⟨_, words, begins⟩
      obtain ⟨w, inst, rfl⟩ := Option.map_eq_some_iff.mp words
      exact ⟨w, inst, begins⟩
    · rintro ⟨w, inst, begins⟩
      exact ⟨_, Option.map_eq_some_iff.mpr ⟨w, inst, rfl⟩, begins⟩
  rw [words]
  by_cases bare : pre = .none
  · subst bare
    rw [decodeUnit_bare_iff]
    simp [BeginsWith, preWords]
  · obtain ⟨p, word⟩ := exists_preWords_eq_singleton bare
    rw [decodeUnit_prefixed_iff bare, word]
    simp only [BeginsWith, bare, false_or, List.singleton_append, List.cons_prefix_cons, List.cons.injEq, and_true]
    constructor
    · rintro ⟨first, noCt, w, inst, begins⟩
      exact ⟨noCt, w, inst, first, begins⟩
    · rintro ⟨noCt, w, inst, first, begins⟩
      exact ⟨first, noCt, w, inst, begins⟩

end Sys2Proof.Machine

namespace Sys2Proof.Proofs
open Sys2Proof.Machine

/-- Settles O2: the decoder answers a unit on every stream that begins with its halfwords. -/
theorem decodeOfEncode : Obligations.DecodeOfEncode := by
  unfold Obligations.DecodeOfEncode
  intro pre op f w h0 h1 h2 prefixed words begins
  exact decodeUnit_eq_unit_iff.mpr ⟨prefixed, w, words, List.prefix_iff_eq_take.mpr begins⟩

/-- Settles O3: the same equivalence read from the decoder's side; each written unit is decoded by evaluation. -/
theorem encodeOfDecode : Obligations.EncodeOfDecode := by
  unfold Obligations.EncodeOfDecode
  refine ⟨?encodes, ?add, ?ld, ?trap, ?mvax, ?repSt, ?ctOn⟩
  case encodes =>
    intro pre op f h0 h1 h2 decoded
    obtain ⟨-, w, words, begins⟩ := decodeUnit_eq_unit_iff.mp decoded
    exact ⟨w, words, List.prefix_iff_eq_take.mp begins⟩
  all_goals decide

end Sys2Proof.Proofs
end

section
/-! PROOFS. The compares (R90, R105). -/
namespace Sys2Proof.Machine

/-- SUB without a borrow, as R105 writes it. -/
theorem subFlags_zero {w a m : Nat} (hm : m < 2 ^ w) :
    (subFlags w a m 0).2 =
      { n := ((a + 2 ^ w - m) % 2 ^ w).testBit (w - 1), z := decide ((a + 2 ^ w - m) % 2 ^ w = 0), c := decide (a < m)
        v := !fits w (signedOf w a - signedOf w m) } := by
  have result : (a + 2 * 2 ^ w - m - 0) % 2 ^ w = (a + 2 ^ w - m) % 2 ^ w := by
    rw [show a + 2 * 2 ^ w - m - 0 = a + 2 ^ w - m + 2 ^ w by omega, Nat.add_mod_right]
  unfold subFlags
  rw [result]
  simp [nz]

/-- A compare sets the flags of SUB, and PT to COND over the extended operands (R90, R105). -/
theorem readUnit_compare {mk : Fin 32 → QUnit → Instr} {op : QOp} (ext : Nat → Nat → Int)
    (runs : ∀ c u s, exec (mk c u) s = plain c u op (.val .read (compare ext)) s) :
    ReadUnit mk op always fun f w m x =>
      let a := x.a.toNat % 2 ^ w
      let r := (a + 2 ^ w - m) % 2 ^ w
      (x.setFlags { n := r.testBit (w - 1), z := decide (r = 0), c := decide (a < m)
                    v := !fits w (signedOf w a - signedOf w m) }).setPred
        (layoutOf f / 2 ^ 12 % 8) (condInt (layoutOf f / 2 ^ 9 % 8) (ext w a) (ext w m)) :=
  readUnit_of (compare ext) _ runs fun u g x bytes layout _ => by
    simp only [compare, pureEff, Args.w, Args.pt, Args.cond, low, bytes, layout,
      subFlags_zero (Nat.mod_lt _ (Nat.two_pow_pos _))]

end Sys2Proof.Machine

namespace Sys2Proof.Proofs
open Sys2Proof.Machine

/-- Settles O7: CMP and CMPU are one compare with two extensions of the operands. -/
theorem compares : Obligations.Compares := by
  unfold Obligations.Compares
  exact ⟨readUnit_compare signedOf fun _ _ _ => rfl, readUnit_compare zeroExt fun _ _ _ => rfl⟩

end Sys2Proof.Proofs
end

section
/-! PROOFS. The integer units (R103 to R106): one rule per kind of meaning, the arithmetic of signed values, and the
statements about loads, stores, moves, the ALU and the divides. -/
namespace Sys2Proof.Machine

/-! ## Units over the width, the operand and the context -/

/-- The operand of every operation has a width (R97). -/
theorem operandBits_pos (op : QOp) (f : Form) : 0 < 8 * operandBytes op f := by
  unfold operandBytes
  split
  · decide
  · exact Nat.mul_pos (by decide) (Nat.two_pow_pos _)

section
variable {mk : Fin 32 → QUnit → Instr} {op : QOp}

/-- An instruction without a condition that reads its operand. -/
theorem readUnit_pure {f : Nat → Nat → Ctx → Ctx}
    (runs : ∀ c u s, exec (mk c u) s = plain c u op (.val .read (pureEff fun g x => f g.w (g.m % 2 ^ g.w) x)) s) :
    ReadUnit mk op always fun _ w m x => f w m x :=
  readUnit_of _ _ runs fun u g x bytes _ _ => by simp only [pureEff, Args.w, bytes]

/-- An integer operation of the ALU: its result in A and its flags (R103, R105). -/
theorem readUnit_alu {r : Nat → Nat → Nat → Bool → Nat × Flags} {f : Nat → Nat → Ctx → Ctx}
    (runs : ∀ c u s, exec (mk c u) s = plain c u op (.val .read (alu r)) s)
    (result : ∀ w m x, m < 2 ^ w →
      x.result (r w (low w x.a) m (bitOf x.ps 1)).1 (r w (low w x.a) m (bitOf x.ps 1)).2 = f w m x) :
    ReadUnit mk op always fun _ w m x => f w m x :=
  readUnit_of _ _ runs fun u g x bytes _ _ => by
    simp only [alu, pureEff, Args.w, bytes, result _ _ _ (Nat.mod_lt _ (Nat.two_pow_pos _))]

/-- An instruction on registers alone that works at the width of SIZE. -/
theorem regUnit_pure {f : Nat → Ctx → Ctx}
    (runs : ∀ c u s, exec (mk c u) s = plain c u op (.val .none (pureEff fun g x => f g.w x)) s) :
    RegUnit mk op fun _ w x => f w x :=
  regUnit_of _ _ runs fun u g x bytes _ => by simp only [pureEff, Args.w, bytes]

/-- A store of a value that depends on the width and the registers. -/
theorem storeUnit_pure {use : Use} {val : Nat → Ctx → Nat} {f : Nat → Nat → Ctx → Ctx} (stores : use ≠ .none)
    (runs : ∀ c u s, exec (mk c u) s =
      plain c u op (.val use fun g x => .ok (f g.w (g.m % 2 ^ g.w) x, some (val g.w x))) s) :
    StoreUnit mk op use always (fun _ w x => val w x) fun _ w m x => f w m x :=
  storeUnit_of _ _ runs stores fun u g x bytes _ _ => by simp only [Args.w, bytes]

/-- A division by a divisor other than 0 (R106). -/
theorem readUnit_divide {r : Nat → Nat → Nat → Nat × Bool} {f : Nat → Nat → Ctx → Ctx}
    (runs : ∀ c u s, exec (mk c u) s = plain c u op (.val .read (divide r)) s)
    (result : ∀ w m x, 0 < w → m < 2 ^ w → m ≠ 0 →
      x.result (r w (low w x.a) m).1 (nz w (r w (low w x.a) m).1 false (r w (low w x.a) m).2) = f w m x) :
    ReadUnit mk op (fun _ _ m _ => m ≠ 0) fun _ w m x => f w m x :=
  readUnit_of _ _ runs fun u g x bytes _ nonzero => by
    simp only [divide, Args.w, bytes, if_neg nonzero,
      result _ _ _ (operandBits_pos op u) (Nat.mod_lt _ (Nat.two_pow_pos _)) nonzero]

/-- A division by 0 traps DIVZERO (R106). -/
theorem readTraps_divide {r : Nat → Nat → Nat → Nat × Bool}
    (runs : ∀ c u s, exec (mk c u) s = plain c u op (.val .read (divide r)) s) :
    ReadTraps mk op .read 8 fun _ _ m _ => m = 0 :=
  readTraps_of _ runs fun u g x bytes zero => by simp only [divide, Args.w, bytes, if_pos zero]

end

/-! ## ADD and SUB without a carry -/

/-- ADD without a carry, as R105 writes it. -/
theorem addFlags_zero (w a m : Nat) :
    addFlags w a m 0 = ((a + m) % 2 ^ w,
      { n := ((a + m) % 2 ^ w).testBit (w - 1), z := decide ((a + m) % 2 ^ w = 0), c := decide (2 ^ w ≤ a + m)
        v := !fits w (signedOf w a + signedOf w m) }) := by
  have signed : signedOf w a + signedOf w m + ((0 : Nat) : Int) = signedOf w a + signedOf w m := Int.add_zero _
  unfold addFlags
  rw [signed]
  rfl

/-- The result of SUB, as R105 writes it; its flags are those of subFlags_zero. -/
theorem subFlags_zero_result {w a m : Nat} (hm : m < 2 ^ w) : (subFlags w a m 0).1 = (a + 2 ^ w - m) % 2 ^ w :=
  calc (a + 2 * 2 ^ w - m - 0) % 2 ^ w
    _ = (a + 2 ^ w - m + 2 ^ w) % 2 ^ w := by congr 1; omega
    _ = (a + 2 ^ w - m) % 2 ^ w := Nat.add_mod_right ..

/-! ## Signed values of W bits -/

theorem signedOf_emod (w v : Nat) : signedOf w v % (2 ^ w : Nat) = (v % 2 ^ w : Nat) := by
  unfold signedOf
  split <;> simp

/-- The low half of a product does not depend on how its factors are extended (R105). -/
theorem lowBits_mul_signedOf (w a m : Nat) : lowBits w (signedOf w a * signedOf w m) = a * m % 2 ^ w := by
  unfold lowBits
  rw [Int.mul_emod, signedOf_emod, signedOf_emod, ← Int.natCast_mul, ← Int.natCast_emod, Int.toNat_natCast,
    ← Nat.mul_mod]

theorem signedOf_bounds {w : Nat} (hw : 0 < w) (v : Nat) :
    -((2 ^ (w - 1) : Nat) : Int) ≤ signedOf w v ∧ signedOf w v < (2 ^ (w - 1) : Nat) := by
  have below := Nat.mod_lt v (Nat.two_pow_pos w)
  have halves := Nat.two_pow_pred_add_two_pow_pred hw
  unfold signedOf
  split <;> omega

theorem signedOf_ne_zero {w m : Nat} (hm : m < 2 ^ w) (nonzero : m ≠ 0) : signedOf w m ≠ 0 := by
  unfold signedOf
  rw [Nat.mod_eq_of_lt hm]
  split <;> omega

theorem fits_iff {w : Nat} {i : Int} :
    fits w i = true ↔ -((2 ^ (w - 1) : Nat) : Int) ≤ i ∧ i < (2 ^ (w - 1) : Nat) := by
  simp [fits]

/-- A divisor other than 1 and -1 halves the magnitude at least, so only the negation of the most negative value leaves
the range (R106). -/
theorem fits_tdiv_iff {w : Nat} {a b : Int} (lower : -((2 ^ (w - 1) : Nat) : Int) ≤ a) (upper : a < (2 ^ (w - 1) : Nat))
    (nonzero : b ≠ 0) : fits w (a.tdiv b) = true ↔ ¬ (a = -((2 ^ (w - 1) : Nat) : Int) ∧ b = -1) := by
  have pos := Nat.two_pow_pos (w - 1)
  rw [fits_iff]
  generalize 2 ^ (w - 1) = half at *
  by_cases one : b = 1
  · subst one
    rw [Int.tdiv_one]
    omega
  by_cases minus : b = -1
  · subst minus
    rw [Int.tdiv_neg, Int.tdiv_one]
    omega
  · have magnitude : (a.tdiv b).natAbs = a.natAbs / b.natAbs := Int.natAbs_tdiv a b
    have halved : a.natAbs / b.natAbs ≤ a.natAbs / 2 := Nat.div_le_div_left (by omega) (by omega)
    omega

/-- V of DIV and REM (R106). -/
theorem not_fits_tdiv {w m : Nat} (a : Nat) (hw : 0 < w) (hm : m < 2 ^ w) (nonzero : m ≠ 0) :
    (!fits w ((signedOf w a).tdiv (signedOf w m))) =
      decide (signedOf w a = -((2 ^ (w - 1) : Nat) : Int) ∧ signedOf w m = -1) := by
  obtain ⟨lower, upper⟩ := signedOf_bounds hw a
  rw [Bool.eq_iff_iff, Bool.not_eq_true', ← Bool.not_eq_true, fits_tdiv_iff lower upper (signedOf_ne_zero hm nonzero),
    Decidable.not_not, decide_eq_true_iff]

end Sys2Proof.Machine

namespace Sys2Proof.Proofs
open Sys2Proof.Machine

/-- Settles O4: each load, move and store is one effect on registers at the width of its operand. -/
theorem loadsStoresMoves : Obligations.LoadsStoresMoves := by
  unfold Obligations.LoadsStoresMoves
  refine ⟨?ld, ?ldx, ?ldy, ?leax, ?leay, ?mvax, ?mvxa, ?mvay, ?mvya, ?xchgX, ?xchgY, ?st, ?stx, ?sty, ?xchg⟩
  case ld | ldx | ldy => exact readUnit_pure fun _ _ _ => rfl
  case leax => exact addrUnit_of leaxEff _ (fun _ _ _ => rfl) fun _ _ => rfl
  case leay => exact addrUnit_of leayEff _ (fun _ _ _ => rfl) fun _ _ => rfl
  case mvax | mvxa | mvay | mvya | xchgX | xchgY => exact regUnit_pure fun _ _ _ => rfl
  case st | stx | sty | xchg => exact storeUnit_pure (by decide) fun _ _ _ => rfl

/-- Settles O5: addition and subtraction are those of the flags' own sums, whose carry in is 0 for ADD and SUB; the low
half of the signed product that MUL takes is that of the unsigned one. -/
theorem addSubtractMultiply : Obligations.AddSubtractMultiply := by
  unfold Obligations.AddSubtractMultiply
  refine ⟨?add, ?adc, ?sub, ?sbb, ?neg, ?mul, ?mulh, ?mulhu⟩
  case add =>
    exact readUnit_alu (fun _ _ _ => rfl) fun w m x _ => by simp only [addR, addFlags_zero, low]
  case sub =>
    exact readUnit_alu (fun _ _ _ => rfl) fun w m x hm => by
      simp only [subR, subFlags_zero hm, subFlags_zero_result hm, low]
  case adc | sbb | mulh | mulhu => exact readUnit_alu (fun _ _ _ => rfl) fun _ _ _ _ => rfl
  case neg => exact regUnit_pure fun _ _ _ => rfl
  case mul =>
    exact readUnit_alu (fun _ _ _ => rfl) fun w m x _ => by
      simp only [mulR, lowBits_mul_signedOf, low]

/-- Settles O6: each result and its flags are the ALU's own expression. -/
theorem logicAndShifts : Obligations.LogicAndShifts := by
  unfold Obligations.LogicAndShifts
  refine ⟨?and, ?or, ?xor, ?tst, ?not, ?shl, ?shr, ?sar, ?rol, ?ror⟩
  case and | or | xor | shl | shr | sar | rol | ror => exact readUnit_alu (fun _ _ _ => rfl) fun _ _ _ _ => rfl
  case tst => exact readUnit_pure fun _ _ _ => rfl
  case not => exact regUnit_pure fun _ _ _ => rfl

/-- Settles O8: the quotient of two values of W bits leaves the range only for the most negative value over -1. -/
theorem divide : Obligations.Divide := by
  unfold Obligations.Divide
  refine ⟨?div, ?rem, ?divu, ?remu, ?div0, ?rem0, ?divu0, ?remu0⟩
  case div =>
    exact readUnit_divide (fun _ _ _ => rfl) fun w m x hw hm nonzero => by
      simp only [divR, low, not_fits_tdiv _ hw hm nonzero]
  case rem =>
    exact readUnit_divide (fun _ _ _ => rfl) fun w m x hw hm nonzero => by
      simp only [remR, low, not_fits_tdiv _ hw hm nonzero]
  case divu | remu => exact readUnit_divide (fun _ _ _ => rfl) fun _ _ _ _ _ _ => rfl
  case div0 | rem0 | divu0 | remu0 => exact readTraps_divide fun _ _ _ => rfl

end Sys2Proof.Proofs
end

section
/-! PROOFS. The packed-decimal units (R107 to R117): one rule per kind of meaning, narrow and extended at once. -/
namespace Sys2Proof.Machine

/-! ## The accumulator and the digits at an operand of W bits -/

/-- The accumulator that a decimal unit of W bits reads: X:A extended, else the low W bits of A (R107, R108). -/
def decAcc (w : Nat) (x : Ctx) : Bool → Nat
  | true => x.x.toNat * 2 ^ 64 + x.a.toNat
  | false => x.a.toNat % 2 ^ w

/-- The digits of a decimal operand of W bits (R107, R108). -/
def decDigits (w : Nat) : Bool → Nat
  | true => 31
  | false => 2 * (w / 8) - 1

/-- The value of the accumulator of a decimal unit of W bits. -/
def decAccVal (ext : Bool) (w : Nat) (x : Ctx) : Int := decVal (decAcc w x ext) (decDigits w ext)

/-- The accumulator of a decimal unit is valid (R110). -/
def AccValid (ext : Bool) (_ : Form) (w _ : Nat) (x : Ctx) : Prop := decOk (decAcc w x ext) (decDigits w ext) = true

/-- The accumulator and the operand of a decimal unit are valid (R110). -/
def BothValid (ext : Bool) (f : Form) (w m : Nat) (x : Ctx) : Prop :=
  AccValid ext f w m x ∧ decOk m (decDigits w ext) = true

theorem acc_eq_decAcc (x : Ctx) (ext : Bool) (n : Nat) : x.acc ext n = decAcc (8 * n) x ext := by
  cases ext <;> rfl

theorem decN_eq_decDigits (ext : Bool) (n : Nat) : decN ext n = decDigits (8 * n) ext := by
  cases ext
  · simp [decN, decDigits]
  · rfl

/-- BothValid as the one check that the arithmetic and the compares make. -/
theorem bothValid_iff {ext : Bool} {f : Form} {w m : Nat} {x : Ctx} :
    BothValid ext f w m x ↔ (decOk (decAcc w x ext) (decDigits w ext) && decOk m (decDigits w ext)) = true := by
  rw [Bool.and_eq_true]
  rfl

/-! ## Decimal units by kind -/

section
variable {mk : Fin 32 → QUnit → Instr} {op : QOp} (ext : Bool)

/-- DAD, DSB and DMUL of two valid operands (R110, R112 to R114). -/
theorem readUnit_decArith {f : Int → Int → Int}
    (runs : ∀ c u s, exec (mk c u) s = plain c u op (.val .read (decArith ext f)) s) :
    ReadUnit mk op (BothValid ext) fun _ w m x =>
      x.decResult ext (decDigits w ext) (f (decAccVal ext w x) (decVal m (decDigits w ext))) :=
  readUnit_of _ _ runs fun u g x bytes _ valid => by
    rw [← bytes, bothValid_iff] at valid
    simp only [decArith, Args.w, ← bytes, acc_eq_decAcc, decN_eq_decDigits]
    exact if_pos valid

/-- An invalid operand of DAD, DSB and DMUL traps DDATA (R110). -/
theorem readTraps_decArith {f : Int → Int → Int}
    (runs : ∀ c u s, exec (mk c u) s = plain c u op (.val .read (decArith ext f)) s) :
    ReadTraps mk op .read 9 fun f w m x => ¬ BothValid ext f w m x :=
  readTraps_of _ runs fun u g x bytes invalid => by
    rw [← bytes, bothValid_iff] at invalid
    simp only [decArith, Args.w, acc_eq_decAcc, decN_eq_decDigits]
    exact if_neg invalid

/-- DCMP of two valid operands orders their values (R114). -/
theorem readUnit_dcmp (runs : ∀ c u s, exec (mk c u) s = plain c u op (.val .read (dcmpEff ext)) s) :
    ReadUnit mk op (BothValid ext) fun _ w m x =>
      let i := decAccVal ext w x
      let j := decVal m (decDigits w ext)
      x.setFlags { n := decide (i < j), z := decide (i = j), c := decide (j < i), v := false } :=
  readUnit_of _ _ runs fun u g x bytes _ valid => by
    rw [← bytes, bothValid_iff] at valid
    simp only [dcmpEff, Args.w, ← bytes, acc_eq_decAcc, decN_eq_decDigits]
    exact if_pos valid

/-- An invalid operand of DCMP traps DDATA (R110). -/
theorem readTraps_dcmp (runs : ∀ c u s, exec (mk c u) s = plain c u op (.val .read (dcmpEff ext)) s) :
    ReadTraps mk op .read 9 fun f w m x => ¬ BothValid ext f w m x :=
  readTraps_of _ runs fun u g x bytes invalid => by
    rw [← bytes, bothValid_iff] at invalid
    simp only [dcmpEff, Args.w, acc_eq_decAcc, decN_eq_decDigits]
    exact if_neg invalid

/-- DVAL reports the parts of R110 that its operand meets (R114). -/
theorem readUnit_dval (runs : ∀ c u s, exec (mk c u) s = plain c u op (.val .read (dvalEff ext)) s) :
    ReadUnit mk op always fun _ w m x =>
      let k := decDigits w ext
      x.setFlags { n := decOk m k && decNeg m && decide (decMag m k ≠ 0), z := decOk m k, c := !digitsOk m k
                   v := !signOk m } :=
  readUnit_of _ _ runs fun u g x bytes _ _ => by
    simp only [dvalEff, pureEff, Args.w, ← bytes, decN_eq_decDigits]

/-- The amount that DRND leaves of v, of k digits (R115). -/
def roundedAmount (f : Form) (k : Nat) (v : Int) : Int :=
  if layoutOf f % 32 = 0 then v
  else if k ≤ layoutOf f % 32 then 0
  else roundTo (layoutOf f / 2 ^ 12 % 8) v (10 ^ (layoutOf f % 32))

/-- DRND of a valid accumulator: the rounded amount there and the breakage to the operand (R115, R116). -/
theorem storeUnit_drnd (runs : ∀ c u s, exec (mk c u) s = plain c u op (.val .write (drndEff ext)) s) :
    StoreUnit mk op .write (AccValid ext)
      (fun f w x =>
        packDec (decAccVal ext w x - roundedAmount f (decDigits w ext) (decAccVal ext w x)) (decDigits w ext))
      (fun f w _ x =>
        x.decResult ext (decDigits w ext) (roundedAmount f (decDigits w ext) (decAccVal ext w x))) :=
  storeUnit_of _ _ runs (by decide) fun u g x bytes layout valid => by
    rw [AccValid, ← bytes] at valid
    simp only [drndEff, acc_eq_decAcc, decN_eq_decDigits, ← bytes, layout, if_pos valid]
    rfl

/-- An invalid accumulator of DRND traps DDATA (R110). -/
theorem readTraps_drnd (runs : ∀ c u s, exec (mk c u) s = plain c u op (.val .write (drndEff ext)) s) :
    ReadTraps mk op .write 9 fun f w m x => ¬ AccValid ext f w m x :=
  readTraps_of _ runs fun u g x bytes invalid => by
    rw [AccValid, ← bytes] at invalid
    simp only [drndEff, acc_eq_decAcc, decN_eq_decDigits, if_neg invalid]

end

/-! ## Conversions of the accumulator -/

/-- An operand that is not used costs no access. -/
theorem operand_none (k : Call) (lock : Bool) (s : State) : ∃ m, operand k .none lock s = .ok (s, [], m) := by
  unfold operand
  split
  · exact ⟨_, rfl⟩
  · exact ⟨_, rfl⟩

/-- A unit on registers alone completes where its effect gives a context, whatever its arguments. -/
theorem plain_registers {c : Fin 32} {u : QUnit} {op : QOp} {s t : State} {eff : Eff} {x : Ctx}
    (starts : UnitStarts c u op s t) (effect : ∀ g, eff g (t.ctx c) = .ok (x, none)) :
    plain c u op (.val .none eff) s = .next (unitEnd (unitCall c u op s) (t.setCtx c x)) := by
  refine unit_ok _ starts ?_
  obtain ⟨m, noOperand⟩ := operand_none (unitCall c u op s) false t
  have context : (unitCall c u op s).c = c := rfl
  simp [Sem.body, valueBody, noOperand, context, effect]

end Sys2Proof.Machine

namespace Sys2Proof.Proofs
open Sys2Proof.Machine

/-- Settles O9: each operation is one exact function of two checked operands, narrow or extended. -/
theorem decimalArithmetic : Obligations.DecimalArithmetic := by
  unfold Obligations.DecimalArithmetic
  refine ⟨?dad, ?dsb, ?dmul, ?dadExt, ?dsbExt, ?dmulExt, ?dad9, ?dsb9, ?dmul9, ?dadExt9, ?dsbExt9, ?dmulExt9⟩
  case dad | dsb | dmul => exact readUnit_decArith false fun _ _ _ => rfl
  case dadExt | dsbExt | dmulExt => exact readUnit_decArith true fun _ _ _ => rfl
  case dad9 | dsb9 | dmul9 => exact readTraps_decArith false fun _ _ _ => rfl
  case dadExt9 | dsbExt9 | dmulExt9 => exact readTraps_decArith true fun _ _ _ => rfl

/-- Settles O10: DCMP and DVAL are the narrow and extended forms of one effect each; a conversion that passes its check is
one effect on the accumulator. -/
theorem decimalCompareAndConvert : Obligations.DecimalCompareAndConvert := by
  unfold Obligations.DecimalCompareAndConvert
  refine ⟨?dcmp, ?dcmpExt, ?dcmp9, ?dcmpExt9, ?dval, ?dvalExt, ?bcvd, ?dcvb, ?dcvbExt⟩
  case dcmp => exact readUnit_dcmp false fun _ _ _ => rfl
  case dcmpExt => exact readUnit_dcmp true fun _ _ _ => rfl
  case dcmp9 => exact readTraps_dcmp false fun _ _ _ => rfl
  case dcmpExt9 => exact readTraps_dcmp true fun _ _ _ => rfl
  case dval => exact readUnit_dval false fun _ _ _ => rfl
  case dvalExt => exact readUnit_dval true fun _ _ _ => rfl
  case bcvd => exact regUnit_pure fun _ _ _ => rfl
  case dcvb => exact fun c u s t starts valid => plain_registers starts fun _ => if_pos valid
  case dcvbExt => exact fun c u s t starts valid => plain_registers starts fun _ => if_pos valid

/-- Settles O11: the narrow and the extended DRND are one effect. -/
theorem decimalRound : Obligations.DecimalRound := by
  unfold Obligations.DecimalRound
  exact ⟨storeUnit_drnd false fun _ _ _ => rfl, storeUnit_drnd true fun _ _ _ => rfl,
    readTraps_drnd false fun _ _ _ => rfl, readTraps_drnd true fun _ _ _ => rfl⟩

end Sys2Proof.Proofs
end

section
/-! PROOFS. The floating-point units (R122 to R130): the format at an operand of W bits, one rule for every result
delivered in A, and the statements about results and flags. -/
namespace Sys2Proof.Machine

/-! ## The format at an operand of W bits -/

/-- The format of an operand of W bits (R122). -/
def bitsFmt (w : Nat) : Fmt := if w = 32 then binary32 else binary64

/-- SIZE names binary32 by 4 bytes, which are 32 bits. -/
theorem four_bytes_iff (n : Nat) : n = 4 ↔ 8 * n = 32 := by omega

theorem fmtOf_eq_bitsFmt (n : Nat) : fmtOf n = bitsFmt (8 * n) := by
  simp only [fmtOf, bitsFmt, four_bytes_iff]

theorem regF_eq_decode (n : Nat) (v : Word) : regF n v = (bitsFmt (8 * n)).decode (v.toNat % 2 ^ (8 * n)) := by
  rw [regF, fmtOf_eq_bitsFmt, low]

theorem argsF_eq_decode (g : Args) : g.f = (bitsFmt (8 * g.n)).decode (g.m % 2 ^ (8 * g.n)) := by
  rw [Args.f, fmtOf_eq_bitsFmt, Args.w]

/-! ## Units that deliver a result in A -/

/-- The effect of an instruction that delivers a floating-point result in A, its exceptions in FPSR (R122, R127). -/
def deliver (r : Args → Ctx → FRes) : Eff := pureEff fun g x => x.fresult (r g x)

section
variable {mk : Fin 32 → QUnit → Instr} {op : QOp}

/-- A result that depends on the format, the width, the operand and the registers. -/
theorem readUnit_deliver (r : Fmt → Nat → Nat → Ctx → FRes)
    (runs : ∀ c u s, exec (mk c u) s =
      plain c u op (.val .read (deliver fun g x => r (fmtOf g.n) g.w (g.m % 2 ^ g.w) x)) s) :
    ReadUnit mk op always fun _ w m x => x.fresult (r (bitsFmt w) w m x) :=
  readUnit_of _ _ runs fun u g x bytes _ _ => by
    simp only [deliver, pureEff, Args.w, fmtOf_eq_bitsFmt, bytes]

/-- An operation on A and m (R124). -/
theorem readUnit_floatOp (h : Fmt → Nat → FVal → FVal → FRes)
    (runs : ∀ c u s, exec (mk c u) s = plain c u op (.val .read (floatOp h)) s) :
    ReadUnit mk op always fun _ w m x =>
      x.fresult (h (bitsFmt w) x.rm ((bitsFmt w).decode (x.a.toNat % 2 ^ w)) ((bitsFmt w).decode m)) :=
  readUnit_deliver (fun f w m x => h f x.rm (f.decode (low w x.a)) (f.decode m)) runs

/-- A result from the registers alone, in the format of SIZE. -/
theorem regUnit_deliver (r : Fmt → Nat → Ctx → FRes)
    (runs : ∀ c u s, exec (mk c u) s = plain c u op (.val .none (deliver fun g x => r (fmtOf g.n) g.w x)) s) :
    RegUnit mk op fun _ w x => x.fresult (r (bitsFmt w) w x) :=
  regUnit_of _ _ runs fun u g x bytes _ => by
    simp only [deliver, pureEff, Args.w, fmtOf_eq_bitsFmt, bytes]

end

/-- FCMP orders the values of A and m (R90, R126). -/
theorem readUnit_fcmp : ReadUnit .fcmp .fcmp always fun u w m x =>
    let a := (bitsFmt w).decode (x.a.toNat % 2 ^ w)
    let v := (bitsFmt w).decode m
    let k := compareV a v
    ((x.setFlags (cmpFlags k)).setPred (layoutOf u / 2 ^ 12 % 8) (condFloat (layoutOf u / 2 ^ 9 % 8) k)).raiseExc
      { Exc.none with iv := a.snan || v.snan } :=
  readUnit_of fcmpEff _ (fun _ _ _ => rfl) fun u g x bytes layout _ => by
    simp only [fcmpEff, pureEff, regF_eq_decode, argsF_eq_decode, Args.pt, Args.cond, bytes, layout]

/-- FCVT delivers in the format that SIZE does not name (R128). -/
theorem regUnit_fcvt : RegUnit .fcvt .fcvt fun _ w x =>
    x.fresult (convertV (if w = 32 then binary64 else binary32) x.rm ((bitsFmt w).decode (x.a.toNat % 2 ^ w))) :=
  regUnit_of fcvtEff _ (fun _ _ _ => rfl) fun u g x bytes _ => by
    simp only [fcvtEff, pureEff, regF_eq_decode, four_bytes_iff, bytes]

/-! ## What a delivered result leaves (R127) -/

/-- The instruction is a plain unit whose effect changes A and sets bits of FPSR, and nothing else of its context. -/
def DeliversOnly (op : QOp) : Prop :=
  ∃ use eff, (∀ c u s, exec (unitInstr op c u) s = plain c u op (.val use eff) s) ∧
    ∀ (g : Args) (x : Ctx), ∃ r e, eff g x = .ok ({ x with a := r, fpsr := x.fpsr ||| e }, none)

theorem deliversOnly_of {op : QOp} {use : Use} {r : Args → Ctx → FRes}
    (runs : ∀ c u s, exec (unitInstr op c u) s = plain c u op (.val use (deliver r)) s) : DeliversOnly op :=
  ⟨use, deliver r, runs, fun g x => ⟨w64 (r g x).1, _, rfl⟩⟩

end Sys2Proof.Machine

namespace Sys2Proof.Proofs
open Sys2Proof.Machine

/-- Settles O12: each unit but FCMP delivers one result in the format of SIZE; FCMP writes the flags of one comparison. -/
theorem floatOperations : Obligations.FloatOperations := by
  unfold Obligations.FloatOperations
  refine ⟨?fadd, ?fsub, ?fmul, ?fdiv, ?fsqrt, ?fma, ?fmin, ?fmax, ?fcmp, ?fcvt, ?fcvti, ?icvtf⟩
  case fadd => exact readUnit_floatOp faddV fun _ _ _ => rfl
  case fsub => exact readUnit_floatOp fsubV fun _ _ _ => rfl
  case fmul => exact readUnit_floatOp fmulV fun _ _ _ => rfl
  case fdiv => exact readUnit_floatOp fdivV fun _ _ _ => rfl
  case fsqrt => exact readUnit_deliver (fun f _ m x => fsqrtV f x.rm (f.decode m)) fun _ _ _ => rfl
  case fma =>
    exact readUnit_deliver (fun f w m x => fmaV f x.rm (f.decode (low w x.a)) (f.decode (low w x.x)) (f.decode m))
      fun _ _ _ => rfl
  case fmin => exact readUnit_deliver (fun f w m x => fminmax f true (low w x.a) m) fun _ _ _ => rfl
  case fmax => exact readUnit_deliver (fun f w m x => fminmax f false (low w x.a) m) fun _ _ _ => rfl
  case fcmp => exact readUnit_fcmp
  case fcvt => exact regUnit_fcvt
  case fcvti => exact regUnit_deliver (fun f w x => toInt x.rm (f.decode (low w x.a))) fun _ _ _ => rfl
  case icvtf =>
    exact regUnit_deliver
      (fun f _ x => roundF f x.rm (decide (signedOf 64 x.a.toNat < 0)) (signedOf 64 x.a.toNat).natAbs 0) fun _ _ _ => rfl

/-- Settles O27: each of the eleven delivers a result and its exceptions, and a delivery writes A and FPSR alone. -/
theorem floatFlagsUnchanged : Obligations.FloatFlagsUnchanged := by
  unfold Obligations.FloatFlagsUnchanged
  intro op listed
  simp only [List.mem_cons, List.not_mem_nil, or_false] at listed
  obtain rfl | rfl | rfl | rfl | rfl | rfl | rfl | rfl | rfl | rfl | rfl := listed
  all_goals exact deliversOnly_of fun _ _ _ => rfl

end Sys2Proof.Proofs
end

section
/-! PROOFS. The memory controller (R180 to R182): where a line lies, and what a request with a credit does. -/
namespace Sys2Proof.Machine

/-! ## The channel array -/

/-- The data channels of a stripe follow its parity channel; a line's channel holds that line (R180). -/
theorem lineAt_channelOf (line : Nat) : lineAt (stripeOf line) (channelOf line) = some line := by
  have place : (channelOf line + 23 - stripeOf line % 12) % 12 = line % 11 := by
    simp only [channelOf]
    omega
  have data : line % 11 ≠ 11 := by omega
  simp only [lineAt, place]
  rw [if_neg data, stripeOf, Nat.div_add_mod']

theorem channelOf_lt (line : Nat) : channelOf line < 12 := Nat.mod_lt _ (by decide)

/-! ## Requests -/

/-- A request to lines that exist, with a credit of its channel, is performed after the error that its read meets. -/
theorem exec_memoryRequest (s : State) (op : MemOp) (line : Line) (e : MemErr) (m : Bool)
    (reach : memReach s op line = true) (credit : noCredit s .memRequest 0 (channelOf line) = false) :
    exec (.memoryRequest op line e m) s = act s (memOp (if m then s else memError s line e) op line) := by
  change execMemoryRequest op line e s m = _
  simp only [execMemoryRequest, reach, credit, Bool.not_false, Bool.and_self, if_true]

section
variable {s : State} {line : Line} (serving : serves s (channelOf line) (stripeOf line) = true)
include serving

/-- A read without an error leaves the module as it is. -/
theorem memError_none : memError s line .none = s := by
  simp [memError, serving]

/-- A line that can neither be read nor rebuilt is poisoned and reported (R182). -/
theorem memError_uncorrectable : memError s line (.uncorrectable true) = poisonLine s line := by
  simp [memError, serving]

/-- A request whose access meets no error, or lies on a mispredicted path, does what it asks alone (R157). -/
theorem memoryRequest_unharmed (op : MemOp) (e : MemErr) (m : Bool) (reach : memReach s op line = true)
    (credit : noCredit s .memRequest 0 (channelOf line) = false) (h : e = .none ∨ m = true) :
    exec (.memoryRequest op line e m) s = act s (memOp s op line) := by
  rw [exec_memoryRequest s op line e m reach credit]
  obtain rfl | rfl := h
  · rw [memError_none serving, ite_self]
  · rfl

end

/-! ## Stores -/

/-- Mirror records leave everything but port M and the count of what is sent. -/
@[simp] theorem sendRecords_ctxs (s : State) (l : List MirRec) : (sendRecords s l).ctxs = s.ctxs := by
  unfold sendRecords; split <;> rfl
@[simp] theorem sendRecords_caches (s : State) (l : List MirRec) : (sendRecords s l).caches = s.caches := by
  unfold sendRecords; split <;> rfl
@[simp] theorem sendRecords_fcr (s : State) (l : List MirRec) : (sendRecords s l).fcr = s.fcr := by
  unfold sendRecords; split <;> rfl
@[simp] theorem sendRecords_chan (s : State) (l : List MirRec) : (sendRecords s l).chan = s.chan := by
  unfold sendRecords; split <;> rfl
@[simp] theorem sendRecords_pairs (s : State) (l : List MirRec) : (sendRecords s l).pairs = s.pairs := by
  unfold sendRecords; split <;> rfl

@[simp] theorem State.store_ctxs (s : State) (a : Nat) (l : List Byte) : (s.store a l).ctxs = s.ctxs :=
  sendRecords_ctxs _ _
@[simp] theorem State.store_caches (s : State) (a : Nat) (l : List Byte) : (s.store a l).caches = s.caches :=
  sendRecords_caches _ _
@[simp] theorem State.store_fcr (s : State) (a : Nat) (l : List Byte) : (s.store a l).fcr = s.fcr :=
  sendRecords_fcr _ _
@[simp] theorem State.store_chan (s : State) (a : Nat) (l : List Byte) : (s.store a l).chan = s.chan :=
  sendRecords_chan _ _
@[simp] theorem State.store_pairs (s : State) (a : Nat) (l : List Byte) : (s.store a l).pairs = s.pairs :=
  sendRecords_pairs _ _

/-- A store leaves nothing more to do. -/
theorem State.store_quiet {s : State} (h : quiet s = true) (a : Nat) (l : List Byte) : quiet (s.store a l) = true :=
  quiet_of s _ h (s.store_fcr a l) (s.store_chan a l)

/-- A line that a write covers whole is free of poison (R402). -/
theorem not_mem_poison_unpoison (s : State) {a n ln : Nat} (first : a ≤ ln * 128) (last : ln * 128 + 128 ≤ a + n) :
    ln ∉ (unpoison s a n).caches.poison := by
  simp [unpoison, first, last]

end Sys2Proof.Machine

namespace Sys2Proof.Proofs
open Sys2Proof.Machine

/-- Settles O33: a served request without an error is its operation alone, and the channel of a line is found by counting
from the parity channel of its stripe. -/
theorem memoryRequests : Obligations.MemoryRequests := by
  unfold Obligations.MemoryRequests
  refine ⟨?stripes, ?read, ?write, ?fullStripe, ?uncorrectable, ?scrub⟩
  case stripes => exact fun line => ⟨lineAt_channelOf line, channelOf_lt line⟩
  case read =>
    intro s line e m calm reach credit serving unharmed
    rw [memoryRequest_unharmed serving .read e m reach credit unharmed]
    exact act_quiet s _ calm.live (quiet_of s _ calm.quiet rfl rfl)
  case write =>
    intro s line data m calm reach credit serving length
    have whole : data.take 128 = data := List.take_of_length_le (Nat.le_of_eq length)
    refine ⟨s.store (line * 128) data, ?_, s.store_mem _ _, s.store_ctxs _ _⟩
    rw [memoryRequest_unharmed serving (.write data) .none m reach credit (.inl rfl), memOp, whole]
    exact act_quiet s _ calm.live (State.store_quiet calm.quiet _ _)
  case fullStripe =>
    intro s line data m calm canonical reach credit serving length
    have whole : data.take 1408 = data := List.take_of_length_le (Nat.le_of_eq length)
    refine ⟨unpoison (s.store (line / 11 * 11 * 128) data) (line / 11 * 11 * 128) 1408, ?_, ?_, fun k small => ?_⟩
    · rw [memoryRequest_unharmed serving (.fullStripe data) .none m reach credit (.inl rfl), memOp, whole]
      exact act_quiet s _ calm.live (quiet_of _ _ (State.store_quiet calm.quiet _ _) rfl rfl)
    · have stored := Memory.bytes_writes data s.mem (line / 11 * 11 * 128) canonical
      rw [length] at stored
      rw [unpoison, State.store_mem, stored]
    · exact not_mem_poison_unpoison _ (by omega) (by omega)
  case uncorrectable =>
    intro s line calm reach serving credit
    rw [exec_memoryRequest s .read line _ false reach credit, if_neg Bool.false_ne_true, memError_uncorrectable serving]
    exact act_live s _ calm.live
  case scrub =>
    intro s errs live scrubs
    change execPatrolScrub errs s = _
    rw [execPatrolScrub, if_neg scrubs]
    exact act_live s _ live

end Sys2Proof.Proofs
end

section
/-! PROOFS. CFLUSH and CINVR (R173, R174): the lines that leave a cache, and what the units do with them. -/
namespace Sys2Proof.Machine

@[simp] theorem setCaches_caches (s : State) (c : Caches) : (setCaches s c).caches = c := rfl

/-- A unit whose meaning works on the whole state and succeeds answers the state that it leaves. -/
theorem plain_system {c : Fin 32} {u : QUnit} {op : QOp} {s t z : State} {body : Call → State → Except Stop State}
    (starts : UnitStarts c u op s t) (runs : body (unitCall c u op s) t = .ok z) :
    plain c u op (.sys false body) s = .next (unitEnd (unitCall c u op s) z) :=
  unit_ok (.sys false body) starts runs

/-! ## Lines that leave an L2 -/

@[simp] theorem dropL2_mem (s : State) (o line : Nat) : (dropL2 s o line).mem = s.mem := rfl

theorem mem_l2_dropL2 {s : State} {o line : Nat} {q : CLine} :
    q ∈ (dropL2 s o line).caches.l2 ↔ q ∈ s.caches.l2 ∧ ¬ (q.owner = o ∧ q.line = line) := by
  simp [dropL2, dropL1, -not_and, Decidable.not_and_iff_or_not]

/-- The L3 takes a line without a change of any L2. -/
@[simp] theorem l3Insert_l2 (s : State) (line : Nat) (inst : BitVec 8) (dirty : Bool) :
    (l3Insert s line inst dirty).caches.l2 = s.caches.l2 := by
  unfold l3Insert; dsimp only; (repeat' split) <;> rfl

@[simp] theorem l3Insert_mem (s : State) (line : Nat) (inst : BitVec 8) (dirty : Bool) :
    (l3Insert s line inst dirty).mem = s.mem := by
  unfold l3Insert; dsimp only; (repeat' split) <;> rfl

@[simp] theorem writeBack_l2 (s : State) (l : CLine) : (writeBack s l).caches.l2 = s.caches.l2 := by
  unfold writeBack; split <;> simp

@[simp] theorem writeBack_mem (s : State) (l : CLine) : (writeBack s l).mem = s.mem := by
  unfold writeBack; split <;> simp

/-- A line leaves an L2, written back where it is dirty (R161, R173). -/
def takeOut (o : Nat) (s : State) (l : CLine) : State := writeBack (dropL2 s o l.line) l

/-- Of the lines of the L2s those stay that no line taken out names. -/
theorem mem_l2_foldl_takeOut {o : Nat} {out : List CLine} {s : State} {q : CLine} :
    q ∈ (out.foldl (takeOut o) s).caches.l2 ↔ q ∈ s.caches.l2 ∧ ∀ l ∈ out, ¬ (q.owner = o ∧ q.line = l.line) := by
  induction out generalizing s with
  | nil => simp
  | cons l out ih =>
    rw [List.foldl_cons, ih, takeOut, writeBack_l2, mem_l2_dropL2, List.forall_mem_cons, and_assoc]

theorem foldl_takeOut_mem (o : Nat) (out : List CLine) (s : State) : (out.foldl (takeOut o) s).mem = s.mem := by
  induction out generalizing s with
  | nil => rfl
  | cons l out ih => rw [List.foldl_cons, ih, takeOut, writeBack_mem, dropL2_mem]

/-! ## CINVR -/

theorem cinvrL2_eq (s : State) (o : Nat) (locked : Bool) (hit : Nat → Bool) :
    (cinvrL2 s o locked hit).1 =
      ((s.caches.l2.filter fun l => decide (l.owner = o) && hit l.line).filter fun l =>
        !(!locked && bitOf s.caches.l2lock l.way)).foldl (takeOut o) s := rfl

theorem cinvrL2_mem (s : State) (o : Nat) (locked : Bool) (hit : Nat → Bool) : (cinvrL2 s o locked hit).1.mem = s.mem := by
  rw [cinvrL2_eq, foldl_takeOut_mem]

/-- With INCLUDE_LOCKED no line that is hit stays in the L2 (R173). -/
theorem owner_ne_of_mem_cinvrL2 {s : State} {o : Nat} {hit : Nat → Bool} {q : CLine}
    (stays : q ∈ (cinvrL2 s o true hit).1.caches.l2) (h : hit q.line = true) : q.owner ≠ o := by
  intro mine
  rw [cinvrL2_eq, mem_l2_foldl_takeOut] at stays
  obtain ⟨held, kept⟩ := stays
  exact kept q (by simp [held, mine, h]) ⟨mine, rfl⟩

@[simp] theorem setInv_mem (s : State) (c p cache skipped : Nat) : (setInv s c p cache skipped).mem = s.mem := by
  unfold setInv; dsimp only; (repeat' split) <;> rfl

/-- An INV bit is no line. -/
@[simp] theorem setInv_l2 (s : State) (c p cache skipped : Nat) :
    (setInv s c p cache skipped).caches.l2 = s.caches.l2 := by
  unfold setInv; dsimp only; (repeat' split) <;> rfl

/-- CINVR of the whole of one L1, which skips no line (R173). -/
theorem cinvrLines_whole_l1 (k : Call) (s : State) (l1 : layoutOf k.f / 2 ^ 12 % 8 < 2) :
    cinvrLines k true (fun _ => true) s =
      let code := decide (layoutOf k.f / 2 ^ 12 % 8 = 0)
      let w := setInv (cinvrL1 s (cacheOf s k.c) code fun _ => true).1 k.c (pairOf s k.c) (layoutOf k.f / 2 ^ 12 % 8) 0
      w.setCtx k.c (k.stepped { (w.ctx k.c).dropOpLines (fun _ => true) with x := 0 }) := by
  obtain codeL1 | dataL1 : layoutOf k.f / 2 ^ 12 % 8 = 0 ∨ layoutOf k.f / 2 ^ 12 % 8 = 1 := by omega
  · simp only [cinvrLines, codeL1]; rfl
  · simp only [cinvrLines, dataL1]; rfl

/-- CINVR of the whole L2. -/
theorem cinvrLines_whole_l2 (k : Call) (s : State) (l2 : layoutOf k.f / 2 ^ 12 % 8 = 2) :
    cinvrLines k true (fun _ => true) s =
      let q := cinvrL2 s (cacheOf s k.c) ((layoutOf k.f).testBit 10) fun _ => true
      let w := setInv q.1 k.c (pairOf s k.c) 2 q.2
      w.setCtx k.c (k.stepped { (w.ctx k.c).dropOpLines (fun _ => true) with x := w64 q.2 }) := by
  simp only [cinvrLines, l2]; rfl

theorem cinvrBody_whole {k : Call} (s : State) (whole : (layoutOf k.f).testBit 11 = true) :
    cinvrBody k s = .ok (cinvrLines k true (fun _ => true) s) := by
  simp only [cinvrBody, whole, if_true]

/-- CINVR of a checked range none of whose lines is waited for (R163, R173). -/
theorem cinvrBody_range {k : Call} {s v : State} {l : List Span} (range : (layoutOf k.f).testBit 11 = false)
    (checked : cinvrSpans k.c (cinvrRange (k.ea (s.ctx k.c)).toNat (s.ctx k.c).a.toNat) s = .ok (v, l))
    (idle : ∀ q ∈ v.caches.l2, inSpans l q.line = true → lineBusy v k.c true (q.line * 128) 128 q.line = false) :
    cinvrBody k s = .ok (cinvrLines k false (inSpans l) v) := by
  have noWait : (v.caches.l2.any fun q => inSpans l q.line && lineBusy v k.c true (q.line * 128) 128 q.line) = false := by
    simpa using idle
  simp only [cinvrBody, range, checked, noWait, Bool.false_eq_true, if_false]

/-! ## CFLUSH -/

/-- CFLUSH of a checked address whose line is not waited for (R163, R174). -/
theorem cflushBody_idle {k : Call} {s v : State} {l : List Span}
    (checked : checkSpans k.c .read (k.ea (s.ctx k.c)).toNat 1 s = .ok (v, l))
    (idle : ((l.filter fun sp => decide (sp.region = .memory)).map fun sp => sp.pa / 128).any (opBusy v k.c) = false) :
    let lines := (l.filter fun sp => decide (sp.region = .memory)).map fun sp => sp.pa / 128
    let w := lines.foldl dropAll v
    cflushBody k s = .ok (w.setCtx k.c (k.stepped ((w.ctx k.c).dropOpLines fun ln => lines.contains ln))) := by
  simp only [cflushBody, checked, idle, Bool.false_eq_true, if_false]
  rfl

end Sys2Proof.Machine

namespace Sys2Proof.Proofs
open Sys2Proof.Machine

/-- Settles O19: CFLUSH and CINVR are whole-state units, so each clause is what its body leaves; a CINVR of the whole L2
takes out every line of that L2. -/
theorem cacheUnits : Obligations.CacheUnits := by
  unfold Obligations.CacheUnits
  refine ⟨?flush, ?wholeL1, ?wholeL2, ?range⟩
  case flush => exact fun c u s t v l starts checked idle => plain_system starts (cflushBody_idle checked idle)
  case wholeL1 =>
    intro c u s t starts whole l1
    have lines := cinvrLines_whole_l1 (unitCall c u .cinvr s) t l1
    exact plain_system starts (lines ▸ cinvrBody_whole t whole)
  case wholeL2 =>
    intro c u s t starts whole locked l2
    have lines := cinvrLines_whole_l2 (unitCall c u .cinvr s) t l2
    refine ⟨_, plain_system starts (cinvrBody_whole t whole), ?_, fun q held => ?_⟩
    · rw [lines, State.setCtx_mem, setInv_mem, cinvrL2_mem]
    · rw [lines, State.setCtx_caches, setInv_l2, show (layoutOf (unitCall c u .cinvr s).f).testBit 10 = true from locked] at held
      exact owner_ne_of_mem_cinvrL2 held rfl
  case range => exact fun c u s t v l starts range checked idle => plain_system starts (cinvrBody_range range checked idle)

end Sys2Proof.Proofs
end

section
/-! PROOFS. A context that reaches memory directly (R55, R146, R170): its accesses pass, bring no line into a cache, and
change memory alone. -/
namespace Sys2Proof.Machine

/-! ## Bytes written one after the other -/

theorem Memory.writes_append (m : List Host.Cell) (a : Nat) (b d : List Byte) :
    Memory.writes m a (b ++ d) = Memory.writes (Memory.writes m a b) (a + b.length) d := by
  induction b generalizing m a with
  | nil => rfl
  | cons x b ih =>
    rw [List.cons_append, Memory.writes, Memory.writes, ih, List.length_cons]
    congr 1
    omega

/-! ## The address space -/

/-- A part of an operand where an address is a physical address of cacheable memory. -/
def directSpan (q : Nat × Nat) : Span := { va := q.1, pa := q.1, len := q.2, nc := false, region := .memory }

/-- A check that every such part passes. -/
theorem findSome?_directSpan {f : Span → Option Stop} (passes : ∀ q, f (directSpan q) = none) (l : List (Nat × Nat)) :
    (l.map directSpan).findSome? f = none := by
  rw [List.findSome?_eq_none_iff]
  intro sp part
  obtain ⟨q, -, rfl⟩ := List.mem_map.mp part
  exact passes q

/-- Usable memory lies below the end of the physical address space (R179). -/
theorem State.usable_lt (s : State) : s.usable < 2 ^ 52 := by
  have := s.memc.sizeGiB.isLt
  simp only [State.usable]
  omega

/-- An operand that wraps past no address lies in one page, or in two with the second after the first (R66). -/
theorem pieces_cases {va n : Nat} (h : va + n < 2 ^ 64) :
    pieces va n = [(va, n)] ∨ ∃ k, k < n ∧ pieces va n = [(va, k), (va + k, n - k)] := by
  simp only [pieces]
  split
  · exact .inl rfl
  · rename_i crosses
    have noWrap : wrap64 (va + (4096 - va % 4096)) = va + (4096 - va % 4096) := Nat.mod_eq_of_lt (by omega)
    exact .inr ⟨4096 - va % 4096, by omega, by rw [noWrap]⟩

/-! ## Empty caches -/

theorem setCaches_same {s : State} {k : Caches} (h : k = s.caches) : setCaches s k = s := by
  rw [h]; rfl

/-- A snoop invalidation finds nothing in empty L1s and L2s. -/
theorem dropOthers_of_empty {s : State} (l1 : s.caches.l1 = []) (l2 : s.caches.l2 = []) (o ln : Nat) :
    dropOthers s o ln = s := by
  refine setCaches_same ?_
  generalize s.caches = k at l1 l2 ⊢
  obtain ⟨⟩ := k
  subst l1 l2
  simp

theorem dropL3_of_empty {s : State} (l3 : s.caches.l3 = []) (ln : Nat) : dropL3 s ln = s := by
  refine setCaches_same ?_
  generalize s.caches = k at l3 ⊢
  obtain ⟨⟩ := k
  subst l3
  rfl

/-! ## Checks and caches of a bare context -/

section
variable {s : State} {c : Nat} (bare : Bare s c)
include bare

/-- With translation off, bytes of memory are found at their own address (R55, R58). -/
theorem spanOf_bare {k : Acc} {q : Nat × Nat} (inside : q.1 + q.2 ≤ s.usable) :
    spanOf c k q s = .ok (s, directSpan q) := by
  have small : q.1 < 2 ^ 52 := Nat.lt_of_le_of_lt (Nat.le_of_add_right_le inside) s.usable_lt
  have flat : translate c k q.1 s = .ok (s, { pa := q.1, nc := false }) := by
    simp only [translate, bare.flat, Bool.not_false, if_true, if_pos small]
  simp [spanOf, flat, regionOf, inside, directSpan]

theorem spansOf_bare {k : Acc} {l : List (Nat × Nat)} (inside : ∀ q ∈ l, q.1 + q.2 ≤ s.usable) :
    spansOf c k l s = .ok (s, l.map directSpan) := by
  induction l with
  | nil => rfl
  | cons q l ih =>
    obtain ⟨first, rest⟩ := List.forall_mem_cons.mp inside
    simp [spansOf, spanOf_bare bare first, ih rest]

/-- A store inside memory passes every check (R55). -/
theorem checkSpans_store_bare {va n : Nat} (inside : va + n ≤ s.usable) :
    checkSpans c .store va n s = .ok (s, (pieces va n).map directSpan) := by
  have noWrap : va + n < 2 ^ 64 := Nat.lt_of_le_of_lt inside (Nat.lt_trans s.usable_lt (by decide))
  have parts : ∀ q ∈ pieces va n, q.1 + q.2 ≤ s.usable := by
    obtain one | ⟨k, part, two⟩ := pieces_cases noWrap
    · simpa [one] using inside
    · have first : va + k ≤ s.usable := by omega
      have last : va + k + (n - k) ≤ s.usable := by omega
      simp [two, first, last]
  have noPriv : ((pieces va n).map directSpan).findSome? (privTrap (s.ctx c).mode .store) = none :=
    findSome?_directSpan (fun _ => rfl) _
  have noPlace : ((pieces va n).map directSpan).findSome? (placeTrap .store) = none :=
    findSome?_directSpan (fun _ => rfl) _
  have store : Acc.store.fetch = false := rfl
  simp [checkSpans, store, spansOf_bare bare parts, noPriv, noPlace]

/-- No line is waited for and none is poisoned. -/
theorem meetLines_bare (cached : Bool) (a n : Nat) (l : List Nat) : meetLines c cached a n l s = .ok s := by
  have idle (ln : Nat) : lineBusy s c cached a n ln = false := by
    simp [lineBusy, fillBusy, l2Find, draining, bare.noL2, bare.l3off]
  induction l with
  | nil => rfl
  | cons ln l ih => simp [meetLines, idle, bare.noPoison, ih]

/-- An access brings no line into a cache, and empty caches lose none (R170). -/
theorem touchLine_bare (code store : Bool) (a n ln : Nat) : touchLine s c code store a n ln = s := by
  simp [touchLine, dropOthers_of_empty bare.noL1 bare.noL2, dropL3_of_empty bare.noL3, bare.l2off]

theorem touch_bare (code store : Bool) (a n : Nat) : touch s c code store a n = s :=
  List.foldlRecOn (linesOf a n) _ (motive := (· = s)) rfl fun t same ln _ => by
    subst same
    exact touchLine_bare bare code store a n ln

end

/-! ## What a store changes -/

/-- From s to z context c writes b at a: memory changes by these bytes and the contexts by c's operand file alone, and c
still reaches memory directly. -/
structure WritesOnly (c a : Nat) (b : List Byte) (s z : State) : Prop where
  bare : Bare z c
  file : ∃ f, z.ctx c = { s.ctx c with opfile := f }
  others : ∀ d, d ≠ c → z.ctx d = s.ctx d
  mem : z.mem = Memory.writes s.mem a b

/-- Nothing written. -/
theorem WritesOnly.refl {s : State} {c : Nat} (bare : Bare s c) (a : Nat) : WritesOnly c a [] s s :=
  ⟨bare, ⟨_, rfl⟩, fun _ _ => rfl, rfl⟩

theorem WritesOnly.trans {c a : Nat} {b d : List Byte} {s t z : State} (first : WritesOnly c a b s t)
    (second : WritesOnly c (a + b.length) d t z) : WritesOnly c a (b ++ d) s z where
  bare := second.bare
  file := by
    obtain ⟨f, one⟩ := first.file
    obtain ⟨g, two⟩ := second.file
    exact ⟨g, by rw [two, one]⟩
  others m other := (second.others m other).trans (first.others m other)
  mem := by rw [second.mem, first.mem, Memory.writes_append]

/-- The operand file of a context is its own (R143). -/
theorem writesOnly_setFile {s : State} {c : Nat} (bare : Bare s c) (a : Nat) (f : List OpEntry) :
    WritesOnly c a [] s (s.setCtx c { s.ctx c with opfile := f }) where
  bare := { bare with flat := by simpa using bare.flat }
  file := ⟨f, s.ctx_setCtx c _⟩
  others d other := s.ctx_setCtx_other c d _ other
  mem := rfl

/-- A slot enters the operand file. -/
theorem writesOnly_fillSlot {s : State} {c : Nat} (bare : Bare s c) (a : Nat) (q : Nat × Nat) :
    WritesOnly c a [] s (fillSlot c s q) := by
  unfold fillSlot
  split
  · exact .refl bare a
  · simp only [touch_bare bare]
    exact writesOnly_setFile bare a _

theorem writesOnly_fillSlots {s : State} {c : Nat} (bare : Bare s c) (a : Nat) (l : List (Nat × Nat)) :
    WritesOnly c a [] s (fillSlots c l s) :=
  List.foldlRecOn l (fillSlot c) (motive := WritesOnly c a [] s) (.refl bare a)
    fun _ before q _ => before.trans (writesOnly_fillSlot before.bare a q)

/-! ## Stores of a bare context -/

@[simp] theorem State.ctx_store (s : State) (a : Nat) (b : List Byte) (d : Nat) : (s.store a b).ctx d = s.ctx d := by
  simp [State.ctx]

/-- The L2 of a context rests on the pairs alone. -/
theorem cacheOf_congr {s t : State} (same : t.pairs = s.pairs) (c : Nat) : cacheOf t c = cacheOf s c := by
  unfold cacheOf placeOf State.pair
  rw [same]

/-- A store goes to memory, whatever records it queues for the partner (R326). -/
theorem writesOnly_store {s : State} {c : Nat} (bare : Bare s c) (a : Nat) (b : List Byte) :
    WritesOnly c a b s (s.store a b) where
  bare := {
    canonical := s.store_wf a b bare.canonical
    flat := by simpa [State.ctx] using bare.flat
    l2off := by rw [cacheOf_congr (s.store_pairs a b), State.pctl, State.store_caches]; exact bare.l2off
    l3off := by simpa using bare.l3off
    noL1 := by simpa using bare.noL1
    noL2 := by simpa using bare.noL2
    noL3 := by simpa using bare.noL3
    noPoison := by simpa using bare.noPoison }
  file := ⟨(s.ctx c).opfile, by rw [State.ctx_store]⟩
  others d _ := s.ctx_store a b d
  mem := s.store_mem a b

/-- One part of a store in memory (R146). -/
theorem storeSpan_bare {s : State} {c : Nat} (bare : Bare s c) (n : Nat) (q : Nat × Nat) (b : List Byte) :
    ∃ z, storeSpan c n (directSpan q) b s = .ok z ∧ WritesOnly c q.1 b s z := by
  have written := writesOnly_store bare q.1 b
  have patched := written.trans
    (writesOnly_setFile written.bare (q.1 + b.length) (((s.store q.1 b).ctx c).patch q.1 b).opfile)
  rw [List.append_nil] at patched
  refine ⟨_, ?_, patched⟩
  simp only [storeSpan, directSpan, touch_bare bare]
  rfl

/-- The lines of a store are met (R238). -/
theorem meetSpans_bare {s : State} {c : Nat} (bare : Bare s c) (l : List (Nat × Nat)) :
    meetSpans c (l.map directSpan) s = .ok s := by
  induction l with
  | nil => rfl
  | cons q l ih => simp [meetSpans, meetLines_bare bare, ih]

/-- The parts of a store inside memory write its bytes in order. -/
theorem storeSpans_bare {s : State} {c va n : Nat} (bare : Bare s c) (inside : va + n ≤ s.usable) {b : List Byte}
    (length : b.length = n) :
    ∃ z, storeSpans c n ((pieces va n).map directSpan) b s = .ok z ∧ WritesOnly c va b s z := by
  have noWrap : va + n < 2 ^ 64 := Nat.lt_of_le_of_lt inside (Nat.lt_trans s.usable_lt (by decide))
  obtain one | ⟨k, part, two⟩ := pieces_cases noWrap
  · obtain ⟨z, stored, writes⟩ := storeSpan_bare bare n (va, n) b
    have whole : b.take n = b := List.take_of_length_le (Nat.le_of_eq length)
    refine ⟨z, ?_, writes⟩
    simp only [one, List.map_cons, List.map_nil, storeSpans, directSpan] at stored ⊢
    rw [whole, stored]
  · obtain ⟨t, stored, writes⟩ := storeSpan_bare bare n (va, k) (b.take k)
    obtain ⟨z, stored', writes'⟩ := storeSpan_bare writes.bare n (va + k, n - k) (b.drop k)
    have first : (b.take k).length = k := by rw [List.length_take]; omega
    have rest : (b.drop k).take (n - k) = b.drop k := List.take_of_length_le (by rw [List.length_drop]; omega)
    refine ⟨z, ?_, ?_⟩
    · simp only [two, List.map_cons, List.map_nil, storeSpans, directSpan] at stored stored' ⊢
      rw [stored]
      simp only [rest, stored']
    · have both := writes.trans (by rw [first]; exact writes')
      rwa [List.take_append_drop] at both

/-- A store inside memory, whichever side the operand file takes (R143, R146). -/
theorem putSpans_bare {s : State} {c va n : Nat} (bare : Bare s c) (stack met : Bool) (k : Acc)
    (inside : va + n ≤ s.usable) {b : List Byte} (length : b.length = n) :
    ∃ z, putSpans c stack met k va n ((pieces va n).map directSpan) b s = .ok z ∧ WritesOnly c va b s z := by
  obtain ⟨t, stored, writes⟩ := storeSpans_bare bare inside length
  have lines : (if met then .ok s else meetSpans c ((pieces va n).map directSpan) s) = .ok s := by
    rw [meetSpans_bare bare, ite_self]
  simp only [putSpans, lines, stored]
  split
  · have filled := writes.trans (writesOnly_fillSlots writes.bare _ (((pieces va n).map directSpan).flatMap slotsOf))
    rw [List.append_nil] at filled
    exact ⟨_, rfl, filled⟩
  · exact ⟨t, rfl, writes⟩

end Sys2Proof.Machine

namespace Sys2Proof.Proofs
open Sys2Proof.Machine

/-- Settles O15: a store is the writes of its one or two parts, each of which changes memory and the operand file alone. -/
theorem bareStoreFrame : Obligations.BareStoreFrame := by
  unfold Obligations.BareStoreFrame
  intro s c n stack met ea v bare _ _ inside
  have length := leBytes_length n v
  obtain ⟨z, stored, writes⟩ := putSpans_bare bare stack met .store inside length
  obtain ⟨f, file⟩ := writes.file
  refine ⟨_, z, f, checkSpans_store_bare bare inside, stored, file, writes.others, ?_, fun a outside => ?_⟩
  · have read := Memory.bytes_writes (leBytes n v) s.mem ea.toNat bare.canonical
    rwa [length, ← writes.mem] at read
  · rw [writes.mem]
    exact Memory.read_writes_other _ _ _ _ (by rwa [length])

end Sys2Proof.Proofs
end

section
/-! PROOFS. Cache control (R171, R172, R178): what stays within the caches, and how they come ON, drain and go OFF. -/
namespace Sys2Proof.Machine

/-! ## What stays within the caches -/

/-- From s to t nothing changes but the caches and the number of the next free value. -/
def CachesOnly (s t : State) : Prop := ∃ k n, t = { s with caches := k, free := n }

namespace CachesOnly

theorem refl (s : State) : CachesOnly s s := ⟨s.caches, s.free, rfl⟩

theorem trans {s t u : State} (first : CachesOnly s t) (second : CachesOnly t u) : CachesOnly s u := by
  obtain ⟨_, _, rfl⟩ := first
  obtain ⟨k, n, rfl⟩ := second
  exact ⟨k, n, rfl⟩

theorem foldl {α : Type} {f : State → α → State} (step : ∀ t a, CachesOnly t (f t a)) (l : List α) (s : State) :
    CachesOnly s (l.foldl f s) :=
  List.foldlRecOn l f (motive := CachesOnly s) (refl s) fun _ before a _ => before.trans (step _ a)

theorem ite {s t u : State} {p : Prop} [Decidable p] (yes : CachesOnly s t) (no : CachesOnly s u) :
    CachesOnly s (if p then t else u) := by
  split
  · exact yes
  · exact no

theorem mem {s t : State} (h : CachesOnly s t) : t.mem = s.mem := by
  obtain ⟨_, _, rfl⟩ := h
  rfl

theorem bus {s t : State} (h : CachesOnly s t) : t.bus = s.bus := by
  obtain ⟨_, _, rfl⟩ := h
  rfl

/-- Such a change leaves nothing more to do. -/
theorem quiet {s t : State} (h : CachesOnly s t) (q : Machine.quiet s = true) : Machine.quiet t = true := by
  obtain ⟨_, _, rfl⟩ := h
  exact q

/-- A command that changes nothing else answers exactly the state that it leaves. -/
theorem act {s t : State} (h : CachesOnly s t) (calm : Calm s) : Machine.act s t = .next t :=
  act_quiet s t calm.live (h.quiet calm.quiet)

end CachesOnly

theorem cachesOnly_setCaches (s : State) (k : Caches) : CachesOnly s (setCaches s k) := ⟨k, s.free, rfl⟩

theorem cachesOnly_drawn (s : State) : CachesOnly s s.drawn := ⟨s.caches, s.free + 1, rfl⟩

theorem cachesOnly_setPctl (s : State) (p : Nat) (x : Pctl) : CachesOnly s (s.setPctl p x) := ⟨_, s.free, rfl⟩

theorem cachesOnly_mapL2 (s : State) (o line : Nat) (f : CLine → CLine) : CachesOnly s (mapL2 s o line f) :=
  cachesOnly_setCaches s _

theorem cachesOnly_emptyL2 (s : State) (p : Nat) : CachesOnly s (emptyL2 s p) := cachesOnly_setCaches s _

theorem cachesOnly_dropL2 (s : State) (o line : Nat) : CachesOnly s (dropL2 s o line) := ⟨_, s.free, rfl⟩

theorem cachesOnly_l3Insert (s : State) (line : Nat) (inst : BitVec 8) (dirty : Bool) :
    CachesOnly s (l3Insert s line inst dirty) := by
  unfold l3Insert
  split
  · exact .refl s
  split
  · exact cachesOnly_setCaches s _
  exact .ite (.refl s) ((cachesOnly_drawn s).trans (cachesOnly_setCaches _ _))

theorem cachesOnly_writeBack (s : State) (l : CLine) : CachesOnly s (writeBack s l) :=
  .ite (cachesOnly_l3Insert s ..) (.refl s)

theorem cachesOnly_drainL2 (s : State) (p : Nat) : CachesOnly s (drainL2 s p) := by
  have written : CachesOnly s (s.caches.l2.foldl (fun t l => if l.owner % 18 = p then writeBack t l else t) s) :=
    .foldl (fun t l => .ite (cachesOnly_writeBack t l) (.refl t)) _ s
  have cleaned : CachesOnly s (cleanL2 s p) := written.trans (cachesOnly_setCaches _ _)
  exact cleaned.trans (cachesOnly_emptyL2 _ p)

theorem cachesOnly_allocL2 (s : State) (o w line : Nat) (inst filling : BitVec 8) (crit : Option (Nat × Nat)) :
    CachesOnly s (allocL2 s o w line inst filling crit) := by
  have evicted : CachesOnly s (evictL2 s o w line) :=
    .foldl (fun t (k : CLine) => (cachesOnly_dropL2 t o k.line).trans (cachesOnly_l3Insert _ k.line k.inst k.dirty)) _ s
  exact evicted.trans (cachesOnly_setCaches _ _)

theorem cachesOnly_serveSnoop (s : State) (o line : Nat) (invalidate : Bool) :
    CachesOnly s (serveSnoop s o line invalidate) :=
  .ite (cachesOnly_dropL2 s o line) (.refl s)

theorem cachesOnly_fillDone (s : State) (o line : Nat) : CachesOnly s (fillDone s o line) :=
  (cachesOnly_setCaches s _).trans (.foldl (fun t (h : HeldSnoop) => cachesOnly_serveSnoop t o line h.invalidate) _ _)

/-! ## Cache control (R171, R172, R178) -/

/-- Of two values set at one place the second stays. -/
theorem Tab.set_set {α : Type} (t : Tab α) (k : Nat) (v w : α) : (t.set k v).set k w = t.set k w := by
  induction t with
  | nil => simp [Tab.set]
  | cons h r ih =>
    obtain ⟨j, u⟩ := h
    by_cases e : j = k
    · simp [Tab.set, e]
    · by_cases g : k < j <;> simp [Tab.set, e, g, ih]

theorem State.setPctl_setPctl (s : State) (p : Nat) (x y : Pctl) : (s.setPctl p x).setPctl p y = s.setPctl p y := by
  simp [State.setPctl, Tab.set_set]

theorem cachesOnly_l2Enable (s : State) (p : Nat) (en : Bool) : CachesOnly s (l2Enable s p en) :=
  .ite (.ite (cachesOnly_setPctl s ..) (.refl s))
    (.ite (.ite (cachesOnly_setPctl s ..) ((cachesOnly_setPctl s ..).trans (cachesOnly_emptyL2 _ p))) (.refl s))

theorem cachesOnly_l1dEnable (s : State) (p : Nat) (en : Bool) : CachesOnly s (l1dEnable s p en) :=
  .ite (.ite (cachesOnly_setPctl s ..) (.refl s))
    (.ite ((cachesOnly_setPctl s ..).trans (cachesOnly_setCaches _ _)) (.refl s))

theorem cachesOnly_l1iEnable (s : State) (p : Nat) (en : Bool) : CachesOnly s (l1iEnable s p en) :=
  .ite (.ite (cachesOnly_setPctl s ..) (.refl s))
    (.ite ((cachesOnly_setPctl s ..).trans (cachesOnly_setCaches _ _)) (.refl s))

theorem cachesOnly_pctlWrite (s : State) (p : Nat) (v : Word) : CachesOnly s (pctlWrite s p v) :=
  ((cachesOnly_l2Enable s ..).trans (cachesOnly_l1dEnable _ ..)).trans (cachesOnly_l1iEnable _ ..)

theorem cachesOnly_l3ctlWrite (s : State) (v : Word) : CachesOnly s (l3ctlWrite s v) :=
  .ite (.ite (cachesOnly_setCaches s _) (.refl s))
    (.ite (.ite (cachesOnly_setCaches s _) ((cachesOnly_setCaches s _).trans (cachesOnly_setCaches _ _))) (.refl s))

/-- A write of a register that changes the caches alone answers the state that it leaves. -/
theorem ctlCmd_cachesOnly {s t : State} {r : Req} {off : Nat} {v : Word} {g : Reg} (h : Reaches s r off g)
    (write : regWrite s r off v g = t) (only : CachesOnly s t) (a : g.isAud = false) (d : g.isDbg = false) :
    ctlCmd s r off v = .next t := by
  subst write
  rw [ctlCmd_quiet s r off v g h (only.bus ▸ h.issues.noneWait) (only.quiet h.calm.quiet), writeDone_of h a d]

theorem exec_cachePctlWrite {s : State} {r : Req} {p : Fin 18} (v : Word)
    (h : Reaches s r (0x2000200 + 8 * p.val) (.cachePctl p)) :
    exec (.cachePctlWrite r p v) s = .next (pctlWrite s p v) :=
  ctlCmd_cachesOnly h rfl (cachesOnly_pctlWrite s p v) rfl rfl

theorem exec_cacheL3ctlWrite {s : State} {r : Req} (v : Word) (h : Reaches s r 0x2000000 .cacheL3ctl) :
    exec (.cacheL3ctlWrite r v) s = .next (l3ctlWrite s v) :=
  ctlCmd_cachesOnly h rfl (cachesOnly_l3ctlWrite s v) rfl rfl

/-- L1s that are OFF stay OFF while their EN bits are 0: such a write is one to the L2. -/
theorem pctlWrite_l2_alone {s t : State} {p : Nat} {v : Word} (data : bitOf v 9 = false) (code : bitOf v 8 = false)
    (l2 : l2Enable s p (bitOf v 10) = t) (dataOff : (t.pctl p).l1d = .off) (codeOff : (t.pctl p).l1i = .off) :
    pctlWrite s p v = t := by
  have data' : l1dEnable t p false = t := by simp [l1dEnable, dataOff]
  have code' : l1iEnable t p false = t := by simp [l1iEnable, codeOff]
  rw [pctlWrite, l2, data, data', code, code']

theorem l2Enable_on {s : State} {p : Nat} (off : (s.pctl p).l2 = .off) (inv : (s.pctl p).l2Inv = true) :
    l2Enable s p true = s.setPctl p { s.pctl p with l2 := .on, l2Inv := false } := by
  simp [l2Enable, off, inv]

theorem l2Enable_off_dirty {s : State} {p : Nat} (on : (s.pctl p).l2 = .on) (dirty : l2Dirty s p = true) :
    l2Enable s p false = s.setPctl p { s.pctl p with l2 := .disablePending, l1i := .off, l1d := .off } := by
  simp [l2Enable, on, dirty]

theorem l2Enable_off_clean {s : State} {p : Nat} (on : (s.pctl p).l2 = .on) (clean : l2Dirty s p = false) :
    l2Enable s p false = emptyL2 (s.setPctl p { s.pctl p with l2 := .off, l1i := .off, l1d := .off }) p := by
  simp [l2Enable, on, clean]

/-- Under an L2 that is ON both L1s come ON from OFF with INV = 1. -/
theorem pctlWrite_l1s_on {s : State} {p : Nat} {v : Word} (l2 : bitOf v 10 = true) (data : bitOf v 9 = true)
    (code : bitOf v 8 = true) (codeOff : (s.pctl p).l1i = .off) (dataOff : (s.pctl p).l1d = .off)
    (on : (s.pctl p).l2 = .on) (codeInv : (s.pctl p).l1iInv = true) (dataInv : (s.pctl p).l1dInv = true) :
    pctlWrite s p v = s.setPctl p { s.pctl p with l1i := .on, l1iInv := false, l1d := .on, l1dInv := false } := by
  have l2' : l2Enable s p true = s := by simp [l2Enable, on]
  have data' : l1dEnable s p true = s.setPctl p { s.pctl p with l1d := .on, l1dInv := false } := by
    simp [l1dEnable, on, dataOff, dataInv]
  have code' (x : Pctl) (l2 : x.l2 = .on) (off : x.l1i = .off) (inv : x.l1iInv = true) :
      l1iEnable (s.setPctl p x) p true = s.setPctl p { x with l1i := .on, l1iInv := false } := by
    simp [l1iEnable, l2, off, inv, State.setPctl_setPctl]
  rw [pctlWrite, l2, l2', data, data', code, code' { s.pctl p with l1d := .on, l1dInv := false } on codeOff codeInv]

/-- No line is left of a pair whose L2s are emptied. -/
theorem owner_ne_of_mem_emptyL2 {s : State} {p : Nat} {l : CLine} (h : l ∈ (emptyL2 s p).caches.l2) :
    l.owner % 18 ≠ p := by
  simp only [emptyL2, setCaches_caches, List.mem_filter, decide_eq_true_eq] at h
  exact h.2

theorem l3ctlWrite_on {s : State} {v : Word} (en : bitOf v 8 = true) (off : s.caches.l3st = .off)
    (inv : s.caches.l3inv = true) : l3ctlWrite s v = setCaches s { s.caches with l3st := .on, l3inv := false } := by
  simp [l3ctlWrite, en, off, inv]

theorem l3ctlWrite_off {s : State} {v : Word} (en : bitOf v 8 = false) (on : s.caches.l3st = .on) :
    l3ctlWrite s v = setCaches s (if s.caches.l3.any (·.dirty) then { s.caches with l3st := .disablePending }
      else { s.caches with l3st := .off, l3 := [] }) := by
  have write : l3ctlWrite s v = if l3Dirty s then setCaches s { s.caches with l3st := .disablePending }
      else emptyL3 (setCaches s { s.caches with l3st := .off }) := by simp [l3ctlWrite, en, on]
  rw [write]
  exact (apply_ite (setCaches s) (l3Dirty s = true) _ _).symm

theorem exec_cacheDrainComplete_l3 {s : State} (calm : Calm s) (pending : s.caches.l3st = .disablePending) :
    exec (.cacheDrainComplete .l3) s = .next (setCaches s { s.caches with l3st := .off, l3 := [] }) := by
  change execCacheDrainComplete .l3 s = _
  simp only [execCacheDrainComplete, if_pos pending]
  exact (cachesOnly_setCaches s _).act calm

/-- What the end of a drain leaves of a pair's L2. -/
def drainedL2 (s : State) (p : Nat) : State := (drainL2 s p).setPctl p { s.pctl p with l2 := .off }

theorem cachesOnly_drainedL2 (s : State) (p : Nat) : CachesOnly s (drainedL2 s p) :=
  (cachesOnly_drainL2 s p).trans (cachesOnly_setPctl _ p _)

theorem exec_cacheDrainComplete_l2 {s : State} {p : Fin 18} (calm : Calm s) (pending : (s.pctl p).l2 = .disablePending) :
    exec (.cacheDrainComplete (.l2 p)) s = .next (drainedL2 s p) := by
  change execCacheDrainComplete (.l2 p) s = _
  simp only [execCacheDrainComplete, if_pos pending]
  exact (cachesOnly_drainedL2 s p).act calm

end Sys2Proof.Machine

namespace Sys2Proof.Proofs
open Sys2Proof.Machine

/-- Settles O31: a write to CACHE_PCTLp or CACHE_L3CTL changes the caches alone, so it answers the state that its register
leaves; the L2's part comes first, and where it has turned the L1s OFF the rest of the write finds nothing to do. -/
theorem cacheControl : Obligations.CacheControl := by
  unfold Obligations.CacheControl
  refine ⟨?l2On, ?l1sOn, ?l2Dirty, ?l2Clean, ?l3On, ?l3Off, ?l3Drained, ?l2Drained⟩
  case l2On =>
    intro s r p v h en data code codeOff dataOff off inv
    have l2 : l2Enable s p (bitOf v 10) = _ := en ▸ l2Enable_on off inv
    rw [exec_cachePctlWrite v h, pctlWrite_l2_alone data code l2 (by simpa) (by simpa)]
  case l1sOn =>
    intro s r p v h l2 data code codeOff dataOff on codeInv dataInv
    rw [exec_cachePctlWrite v h, pctlWrite_l1s_on l2 data code codeOff dataOff on codeInv dataInv]
  case l2Dirty =>
    intro s r p v h en data code on dirty
    have l2 : l2Enable s p (bitOf v 10) = _ := en ▸ l2Enable_off_dirty on dirty
    refine ⟨_, exec_cachePctlWrite v h, ?_⟩
    rw [pctlWrite_l2_alone data code l2 (by simp) (by simp)]
    exact ⟨State.pctl_setPctl .., rfl⟩
  case l2Clean =>
    intro s r p v h en data code on clean
    have l2 : l2Enable s p (bitOf v 10) = _ := en ▸ l2Enable_off_clean on clean
    have pctl : (emptyL2 (s.setPctl p { s.pctl p with l2 := .off, l1i := .off, l1d := .off }) p).pctl p =
        { s.pctl p with l2 := .off, l1i := .off, l1d := .off } := State.pctl_setPctl ..
    refine ⟨_, exec_cachePctlWrite v h, ?_⟩
    rw [pctlWrite_l2_alone data code l2 (by rw [pctl]) (by rw [pctl])]
    exact ⟨pctl, fun l => owner_ne_of_mem_emptyL2⟩
  case l3On =>
    intro s r v h en off inv
    rw [exec_cacheL3ctlWrite v h, l3ctlWrite_on en off inv]
  case l3Off =>
    intro s r v h en on
    rw [exec_cacheL3ctlWrite v h, l3ctlWrite_off en on]
  case l3Drained => exact fun s => exec_cacheDrainComplete_l3
  case l2Drained =>
    intro s p calm pending
    have empty : ∀ l ∈ (drainedL2 s p).caches.l2, l.owner % 18 ≠ p.val := fun l => owner_ne_of_mem_emptyL2
    refine ⟨drainedL2 s p, exec_cacheDrainComplete_l2 calm pending, ?_, empty, (cachesOnly_drainedL2 s p).mem⟩
    rw [drainedL2, State.pctl_setPctl]

end Sys2Proof.Proofs
end

section
/-! PROOFS. Line fills, snoops and the errors that the caches meet (R160, R163, R164, R176). -/
namespace Sys2Proof.Machine

/-! ## Line fills (R163, R164, R166) -/

section
variable {s : State} {c : Fin 32} {line : Line} {p : Nat} {slot : Bool} (placed : placeOf s c = some (p, slot))
  (on : (s.pctl p).l2 = .on) (inside : s.inMemory (line * 128) 128 = true)
  (credit : noCredit s .lineFill p (cacheOf s c) = false)
include placed on inside credit

/-- A good sector of a line that the L2 does not hold starts its fill. -/
theorem exec_lineFill_absent (way : Fin 16) (k : Fin 8) (code : Bool) (absent : l2Find s (cacheOf s c) line = none) :
    exec (.lineFill c line way k .good code) s = act s (fillStart s c (cacheOf s c) code line way k) := by
  change execLineFill c line way k .good s code = _
  simp [execLineFill, placed, on, inside, credit, absent]

/-- A sector that a line in FILLING still waits for, good or uncorrectable. -/
theorem exec_lineFill_filling {l : CLine} (way : Fin 16) {k : Fin 8} (code : Bool) {e : Ecc} (uncorrected : e ≠ .corrected)
    (held : l2Find s (cacheOf s c) line = some l) (waits : bitOf l.filling k = true) :
    exec (.lineFill c line way k e code) s = act s (if e = .uncorrectable
      then letUnnamed (fillDone (dropL2 s (cacheOf s c) line) (cacheOf s c) line) p slot
      else fillSector s (cacheOf s c) line k l) := by
  change execLineFill c line way k e s code = _
  simp [execLineFill, placed, on, inside, credit, held, waits, uncorrected]

end

/-- Where the L1 takes no line, a first sector allocates the line in a way that the context may use. -/
theorem fillStart_allocates {s : State} {c o line way : Nat} {code : Bool} (sector : Nat) (noL1 : l1Wants s o code = false)
    (allowed : way ∈ l2Ways s (o % 18) c) :
    fillStart s c o code line way sector =
      allocL2 s o way line (BitVec.ofNat 8 (s.owner c)) (setBit 0xFF#8 sector false) (some (c, sector)) := by
  simp [fillStart, noL1, allowed]

theorem fillSector_more {s : State} {o line sector : Nat} {l : CLine} (more : setBit l.filling sector false ≠ 0) :
    fillSector s o line sector l = mapL2 s o line fun k => { k with filling := setBit l.filling sector false } :=
  if_neg more

theorem fillSector_last {s : State} {o line sector : Nat} {l : CLine} (last : setBit l.filling sector false = 0) :
    fillSector s o line sector l =
      fillDone (mapL2 s o line fun k => { k with filling := setBit l.filling sector false }) o line :=
  if_pos last

/-! ## Snoops (R160, R164) -/

theorem snoopOne_absent {s : State} {o line : Nat} (invalidate : Bool) (absent : l2Find s o line = none) :
    snoopOne line invalidate s o = s := by
  simp [snoopOne, absent]

theorem snoopOne_valid {s : State} {o line : Nat} {l : CLine} (held : l2Find s o line = some l) (valid : l.filling = 0) :
    snoopOne line true s o = dropL2 s o line := by
  simp [snoopOne, held, valid, serveSnoop]

theorem snoopOne_filling {s : State} {o line : Nat} {l : CLine} (invalidate : Bool) (held : l2Find s o line = some l)
    (filling : l.filling ≠ 0) :
    snoopOne line invalidate s o =
      setCaches s { s.caches with snoops := s.caches.snoops ++ [{ pair := o, line := line, invalidate := invalidate }] } := by
  simp only [snoopOne, held, if_neg filling]

/-- A snoop where copy T holds nothing is that of the pair's first L2. -/
theorem exec_snoop_one {s t : State} {p : Fin 18} {line : Line} {invalidate : Bool}
    (first : snoopOne line invalidate s p = t) (absent : l2Find t (p + 18) line = none) :
    exec (.snoop p line invalidate) s = act s t := by
  change act s (snoopOne line invalidate (snoopOne line invalidate s p) (p + 18)) = _
  rw [first, snoopOne_absent invalidate absent]

/-- A line that an L2 does not hold is not there after another has left. -/
theorem l2Find_dropL2_none {s : State} {o line : Nat} (q out : Nat) (absent : l2Find s o line = none) :
    l2Find (dropL2 s q out) o line = none := by
  rw [l2Find, List.find?_eq_none] at absent ⊢
  exact fun l held => absent l (mem_l2_dropL2.mp held).1

/-! ## Errors in the caches (R176) -/

theorem cacheError_l3Clean {s : State} (v : Fin 16) {line : Line} {l : CLine} (held : l3Find s line = some l)
    (clean : l.dirty = false) :
    cacheError s (.l3Clean v line) = card (dropL3 s line) (96 + v) 3 l.inst.toNat 0 (line * 128) := by
  simp [cacheError, held, clean, lineInst]

theorem exec_cacheScrub {s : State} (errs : List CacheErr) (live : s.live = true) :
    exec (.cacheScrub errs) s = .next (settle (errs.foldl cacheError s)) :=
  act_live s _ live

end Sys2Proof.Machine

namespace Sys2Proof.Proofs
open Sys2Proof.Machine

/-- Settles O32: a fill, a snoop and the snoops that a fill has held change the caches alone and answer the state they
leave; the let of an uncorrectable sector and the cards of a scrub are settled. -/
theorem cacheTraffic : Obligations.CacheTraffic := by
  unfold Obligations.CacheTraffic
  refine ⟨?first, ?further, ?valid, ?held, ?clean, ?scrub⟩
  case first =>
    intro s c code line way k p slot calm placed on noL1 inside credit absent allowed
    rw [exec_lineFill_absent placed on inside credit way k code absent, fillStart_allocates k noL1 allowed]
    exact (cachesOnly_allocL2 s ..).act calm
  case further =>
    intro s c code line way k p slot l calm placed on inside credit held waits
    have good := exec_lineFill_filling placed on inside credit way code (e := .good) (by decide) held waits
    have bad := exec_lineFill_filling placed on inside credit way code (e := .uncorrectable) (by decide) held waits
    refine ⟨fun more => ?_, fun last => ?_, ?_⟩
    · rw [good, if_neg (by decide), fillSector_more more]
      exact (cachesOnly_mapL2 s ..).act calm
    · rw [good, if_neg (by decide), fillSector_last last]
      exact ((cachesOnly_mapL2 s ..).trans (cachesOnly_fillDone _ _ line)).act calm
    · rw [bad, if_pos rfl]
      exact act_live s _ calm.live
  case valid =>
    intro s p line l calm held absent valid
    rw [exec_snoop_one (snoopOne_valid held valid) (l2Find_dropL2_none _ _ absent)]
    exact (cachesOnly_dropL2 s p line).act calm
  case held =>
    intro s p line l i calm held absent filling
    rw [exec_snoop_one (snoopOne_filling i held filling) absent]
    exact (cachesOnly_setCaches s _).act calm
  case clean =>
    intro s v line l calm held clean
    rw [exec_cacheScrub _ calm.live, List.foldl_cons, List.foldl_nil, cacheError_l3Clean v held clean]
  case scrub => exact fun s errs => exec_cacheScrub errs

end Sys2Proof.Proofs
end

section
/-! PROOFS. Lets of a core pair (R190, R191, R195, R196, R207): what they count, and the line that differs between the copies. -/
namespace Sys2Proof.Machine

/-! ## Contexts changed together -/

/-- The contexts of a list, each changed by f. -/
def onCtxs (f : Ctx → Ctx) (s : State) (l : List Nat) : State := l.foldl (fun t c => t.setCtx c (f (t.ctx c))) s

theorem onCtxs_eq (f : Ctx → Ctx) (s : State) (l : List Nat) :
    onCtxs f s l = { s with ctxs := (onCtxs f s l).ctxs } := by
  refine List.foldlRecOn l _ (motive := fun t : State => t = { s with ctxs := t.ctxs }) rfl fun t before c _ => ?_
  rw [before]
  rfl

/-- What f keeps of every context, changing contexts by f keeps. -/
theorem onCtxs_keeps {α : Type} {f : Ctx → Ctx} (g : Ctx → α) (keeps : ∀ x, g (f x) = g x) (s : State) (l : List Nat)
    (m : Nat) : g ((onCtxs f s l).ctx m) = g (s.ctx m) := by
  refine List.foldlRecOn l _ (motive := fun t : State => g (t.ctx m) = g (s.ctx m)) rfl fun t before c _ => ?_
  by_cases e : m = c
  · rw [e, State.ctx_setCtx, keeps, ← e, before]
  · rw [State.ctx_setCtx_other _ _ _ _ e, before]

@[simp] theorem onCtxs_pair (f : Ctx → Ctx) (s : State) (l : List Nat) (p : Nat) : (onCtxs f s l).pair p = s.pair p := by
  rw [onCtxs_eq]; rfl
@[simp] theorem onCtxs_mem (f : Ctx → Ctx) (s : State) (l : List Nat) : (onCtxs f s l).mem = s.mem := by rw [onCtxs_eq]
@[simp] theorem onCtxs_insts (f : Ctx → Ctx) (s : State) (l : List Nat) : (onCtxs f s l).insts = s.insts := by
  rw [onCtxs_eq]
@[simp] theorem onCtxs_fcr (f : Ctx → Ctx) (s : State) (l : List Nat) : (onCtxs f s l).fcr = s.fcr := by rw [onCtxs_eq]
@[simp] theorem onCtxs_chan (f : Ctx → Ctx) (s : State) (l : List Nat) : (onCtxs f s l).chan = s.chan := by rw [onCtxs_eq]

/-! ## The count of a group (R191) -/

@[simp] theorem Pair.groupOf_setGroup (q : Pair) (k : Bool) (n : Nat) : (q.setGroup k n).groupOf k = n := by
  cases k <;> rfl
@[simp] theorem Pair.groupOf_not_setGroup (q : Pair) (k : Bool) (n : Nat) :
    (q.setGroup k n).groupOf (!k) = q.groupOf (!k) := by
  cases k <;> rfl
@[simp] theorem Pair.letcnt_setGroup (q : Pair) (k : Bool) (n : Nat) : (q.setGroup k n).letcnt = q.letcnt := by
  cases k <;> rfl
@[simp] theorem Pair.divcnt_setGroup (q : Pair) (k : Bool) (n : Nat) : (q.setGroup k n).divcnt = q.divcnt := by
  cases k <;> rfl

/-- A pair after a let on the group of slot k that PAIRn_LASTLET records as l (R190, R191, R194, R210). -/
def Pair.countLet (q : Pair) (k async : Bool) (l : LastLet) : Pair :=
  { q with letcnt := if async then q.letcnt else satInc q.letcnt
           divcnt := if async then satInc q.divcnt else q.divcnt
           lastlet := l }.setGroup k (q.groupOf k + 1)

@[simp] theorem Pair.groupOf_not_countLet (q : Pair) (k async : Bool) (l : LastLet) :
    (q.countLet k async l).groupOf (!k) = q.groupOf (!k) := by
  cases k <;> rfl

/-! ## Lets (R190, R196, R207) -/

theorem exec_letRollback (s : State) (p : Fin 18) (cause : LetCause) (copy slot async : Bool) :
    exec (.letRollback p cause copy slot async) s = act s (letPair s p cause copy slot async) := rfl

theorem letPair_idle {s : State} {p : Nat} (cause : LetCause) (copy slot async : Bool) (idle : pairWorks s p = false) :
    letPair s p cause copy slot async = s := by
  simp [letPair, idle]

/-- A cause other than a line that differs is a let on one group: on a split pair, that of the copy. -/
theorem letPair_run {s : State} {p : Nat} {cause : LetCause} {copy slot : Bool} (async : Bool) (works : pairWorks s p = true)
    (noLine : ∀ l b, cause ≠ .miscompareLine l b) (lets : (s.pair p).st = .split → letsSplit cause = true) :
    letPair s p cause copy slot async =
      letRun s p cause copy (if (s.pair p).st = .split then copy else slot) async := by
  have acts : (decide ((s.pair p).st = .split) && !letsSplit cause) = false := by
    by_cases split : (s.pair p).st = .split
    · simp [lets split]
    · simp [split]
  cases cause
  case miscompareLine l b => exact absurd rfl (noLine l b)
  all_goals simp [letPair, works, acts]

theorem letPair_line {s : State} {p : Nat} {line : Line} {both copy slot async : Bool} (works : pairWorks s p = true)
    (active : (s.pair p).st = .active) :
    letPair s p (.miscompareLine line both) copy slot async = lineDiffers s p line both copy slot := by
  simp [letPair, works, active]

/-- What a let on the group of slot k that PAIRn_LASTLET records as l leaves before its card is sent (R190). -/
def afterLet (s : State) (p : Nat) (k async : Bool) (l : LastLet) : State :=
  (onCtxs Ctx.unspeculate s (letCtxs s p k)).setPair p ((s.pair p).countLet k async l)

@[simp] theorem afterLet_pair (s : State) (p : Nat) (k async : Bool) (l : LastLet) :
    (afterLet s p k async l).pair p = (s.pair p).countLet k async l :=
  State.pair_setPair ..

@[simp] theorem afterLet_mem (s : State) (p : Nat) (k async : Bool) (l : LastLet) : (afterLet s p k async l).mem = s.mem :=
  onCtxs_mem ..

@[simp] theorem afterLet_owner (s : State) (p : Nat) (k async : Bool) (l : LastLet) (c : Nat) :
    (afterLet s p k async l).owner c = s.owner c := by
  simp [State.owner, afterLet]

/-- A let on a group of fewer than three counts on it, rolls back its contexts, and is reported by the card of its
cause. -/
theorem letRun_few {s : State} {p : Nat} {cause : LetCause} {copy k async : Bool} (few : (s.pair p).groupOf k < 3) :
    ∃ l, letRun s p cause copy k async = (if async then none else letKind cause).elim (afterLet s p k async l) fun m =>
      card (afterLet s p k async l) p m ((afterLet s p k async l).owner ((slotCtx s p k).getD 0))
        (if m = 2 then b2n copy else 0) 0 := by
  rw [letRun, if_neg (Nat.not_le.mpr few)]
  cases (if async then none else letKind cause) <;> exact ⟨_, rfl⟩

/-- The fourth let on the group of a copy of a split pair stops the copy's context and counts nowhere (log entry 28). -/
theorem letRun_stops {s : State} {p c : Nat} {k : Bool} (cause : LetCause) (copy async : Bool)
    (split : (s.pair p).st = .split) (spent : 3 ≤ (s.pair p).groupOf k) (placed : slotCtx s p k = some c) :
    letRun s p cause copy k async =
      card ((s.setCtx c { s.ctx c with run := .stopped }).setPair p ((s.pair p).setGroup k 0)) p 6 (s.owner c)
        (b2n copy) 0 := by
  simp only [letRun, if_pos spent, split, decide_true, if_true, placed, Option.getD_some]
  rfl

/-! ## A line that differs (R176, R195) -/

theorem lineDiffers_clean {s : State} {p line : Nat} {l : CLine} (both copy slot : Bool) (held : l2Find s p line = some l)
    (clean : l.dirty = false) :
    lineDiffers s p line both copy slot = card (dropL2 s p line) p 7 l.inst.toNat 0 (line * 128) := by
  simp [lineDiffers, held, clean]

theorem lineDiffers_bothPass {s : State} {p line : Nat} {l : CLine} (copy slot : Bool) (held : l2Find s p line = some l)
    (dirty : l.dirty = true) :
    lineDiffers s p line true copy slot =
      card (addPoison (l3Insert (dropL2 s p line) line l.inst true) line) p 8 l.inst.toNat 0 (line * 128) := by
  simp [lineDiffers, held, dirty]

end Sys2Proof.Machine

namespace Sys2Proof.Proofs
open Sys2Proof.Machine

/-- Settles O36: a cause other than a line that differs is one run of a let, which counts on its slot's group while that
has fewer than three and stops the context of a split copy after them. -/
theorem lets : Obligations.Lets := by
  unfold Obligations.Lets
  refine ⟨?counts, ?stops, ?line, ?idle⟩
  case counts =>
    intro s p cause copy slot async k calm works noLine group lets few
    obtain ⟨l, run⟩ := letRun_few (cause := cause) (copy := copy) (async := async) few
    refine ⟨afterLet s p k async l, ?_, ?group, ?otherGroup, ?letcnt, ?divcnt, ?mem, ?registers⟩
    · rw [exec_letRollback, letPair_run async works noLine lets, ← group, act_live s _ calm.live, run, afterLet_owner]
      cases (if async then none else letKind cause) <;> rfl
    case group => simp [Pair.countLet]
    case otherGroup => simp
    case letcnt => simp [Pair.countLet]
    case divcnt => simp [Pair.countLet]
    case mem => simp
    case registers =>
      intro c
      have kept {α : Type} (g : Ctx → α) (keeps : ∀ x, g x.unspeculate = g x) := onCtxs_keeps g keeps s (letCtxs s p k) c
      exact ⟨kept Ctx.a fun _ => rfl, kept Ctx.x fun _ => rfl, kept Ctx.y fun _ => rfl, kept Ctx.ps fun _ => rfl,
        kept Ctx.pc fun _ => rfl⟩
  case stops =>
    intro s p cause copy slot async c calm works split lets spent placed
    have noLine : ∀ l b, cause ≠ .miscompareLine l b := by
      rintro l b rfl
      simp [letsSplit] at lets
    refine ⟨(s.setCtx c { s.ctx c with run := .stopped }).setPair p ((s.pair p).setGroup copy 0), ?_, ?stopped, ?pc, ?group,
      ?letcnt, ?others, ?mem⟩
    · rw [exec_letRollback, letPair_run async works noLine fun _ => lets, if_pos split,
        letRun_stops cause copy async split spent placed, act_live s _ calm.live]
    case stopped => simp
    case pc => simp
    case group => simp
    case letcnt => simp
    case others => exact fun d other => State.ctx_setCtx_other s c d _ other
    case mem => rfl
  case line =>
    intro s p line both copy slot async l calm works active held
    rw [exec_letRollback, letPair_line works active]
    refine ⟨fun clean => ?_, fun dirty pass => ?_⟩
    · rw [lineDiffers_clean both copy slot held clean, act_live s _ calm.live]
    · rw [pass, lineDiffers_bothPass copy slot held dirty, act_live s _ calm.live]
  case idle =>
    intro s p cause copy slot async calm idle
    rw [exec_letRollback, letPair_idle cause copy slot async idle, act_quiet s s calm.live calm.quiet]

end Sys2Proof.Proofs
end

section
/-! PROOFS. Substitution, hand-over and slot windows of core pairs (R198, R200 to R202, R205, R206, R208, R210, R212). -/
namespace Sys2Proof.Machine

/-! ## What the moves of a pair keep -/

@[simp] theorem gateTo_ctxs (s : State) (p : Nat) (b : Bool) : (gateTo s p b).ctxs = s.ctxs := by
  unfold gateTo; dsimp only; (repeat' split) <;> simp
@[simp] theorem gateTo_mem (s : State) (p : Nat) (b : Bool) : (gateTo s p b).mem = s.mem := by
  unfold gateTo; dsimp only; (repeat' split) <;> simp
@[simp] theorem gateTo_fcr (s : State) (p : Nat) (b : Bool) : (gateTo s p b).fcr = s.fcr := by
  unfold gateTo; dsimp only; (repeat' split) <;> simp
@[simp] theorem gateTo_chan (s : State) (p : Nat) (b : Bool) : (gateTo s p b).chan = s.chan := by
  unfold gateTo; dsimp only; (repeat' split) <;> simp
@[simp] theorem gateTo_crp (s : State) (p : Nat) (b : Bool) : (gateTo s p b).crp = s.crp := by
  unfold gateTo; dsimp only; (repeat' split) <;> simp
@[simp] theorem gateTo_pair_self (s : State) (p : Nat) (b : Bool) :
    (gateTo s p b).pair p = { s.pair p with gated := b } := by
  unfold gateTo
  split
  · rename_i same
    rw [← same]
  · dsimp only
    split <;> simp
theorem gateTo_pair_other (s : State) (p m : Nat) (b : Bool) (h : m ≠ p) : (gateTo s p b).pair m = s.pair m := by
  unfold gateTo; dsimp only; (repeat' split) <;> simp [State.pair_setPair_other, h]

theorem recordFenced_eq (s : State) (p : Nat) : recordFenced s p = { s with crp := (recordFenced s p).crp } := by
  unfold recordFenced; split <;> rfl
@[simp] theorem recordFenced_pair (s : State) (p m : Nat) : (recordFenced s p).pair m = s.pair m := by
  rw [recordFenced_eq]; rfl
@[simp] theorem recordFenced_ctx (s : State) (p m : Nat) : (recordFenced s p).ctx m = s.ctx m := by
  rw [recordFenced_eq]; rfl
@[simp] theorem recordFenced_mem (s : State) (p : Nat) : (recordFenced s p).mem = s.mem := by rw [recordFenced_eq]
@[simp] theorem recordFenced_fcr (s : State) (p : Nat) : (recordFenced s p).fcr = s.fcr := by rw [recordFenced_eq]
@[simp] theorem recordFenced_chan (s : State) (p : Nat) : (recordFenced s p).chan = s.chan := by rw [recordFenced_eq]
theorem mem_recordFenced (s : State) (p : Nat) : p ∈ (recordFenced s p).crp.kept.fenced := by
  unfold recordFenced
  split
  · assumption
  · exact List.mem_cons_self

namespace CachesOnly

theorem pairs {s t : State} (h : CachesOnly s t) : t.pairs = s.pairs := by
  obtain ⟨_, _, rfl⟩ := h
  rfl
theorem ctxs {s t : State} (h : CachesOnly s t) : t.ctxs = s.ctxs := by
  obtain ⟨_, _, rfl⟩ := h
  rfl
theorem fcr {s t : State} (h : CachesOnly s t) : t.fcr = s.fcr := by
  obtain ⟨_, _, rfl⟩ := h
  rfl
theorem chan {s t : State} (h : CachesOnly s t) : t.chan = s.chan := by
  obtain ⟨_, _, rfl⟩ := h
  rfl
theorem pair {s t : State} (h : CachesOnly s t) (p : Nat) : t.pair p = s.pair p :=
  congrArg (Tab.get · p _) h.pairs
theorem ctx {s t : State} (h : CachesOnly s t) (c : Nat) : t.ctx c = s.ctx c :=
  congrArg (Tab.get · c _) h.ctxs

end CachesOnly

/-! ## The bench (R200) -/

/-- A pair is on the bench and not failed. -/
def onBench (s : State) (q : Nat) : Bool := decide ((s.pair q).st = .bench) && !(s.pair q).failed

/-- No substitution has a bench pair. -/
def NoneServed (s : State) : Prop := ∀ q, (s.pair q).subst.bind (·.bench) = none

theorem NoneServed.substServed {s : State} (h : NoneServed s) : substServed s = false := by
  simp [Machine.substServed, h _]

/-- Where no substitution has a bench pair, the lowest pair on the bench is free. -/
theorem NoneServed.benchPair {s : State} (h : NoneServed s) : benchPair s = pairNums.find? (onBench s) := by
  have free (b : Nat) : (pairNums.any fun p => decide ((s.pair p).subst.bind (·.bench) = some b)) = false :=
    List.any_eq_false.mpr fun p _ => by simp [h p]
  simp only [Machine.benchPair, free, Bool.not_false, Bool.and_true]
  rfl

theorem benchPair_st {s : State} {b : Nat} (h : benchPair s = some b) : (s.pair b).st = .bench := by
  have found := List.find?_some h
  simp only [Bool.and_eq_true, decide_eq_true_eq] at found
  obtain ⟨⟨bench, _⟩, _⟩ := found
  exact bench

/-- A substitution that has its bench pair is in service. -/
theorem substServed_iff {s : State} :
    substServed s = true ↔ ∃ q ∈ pairNums, ((s.pair q).subst.bind (·.bench)).isSome = true := by
  simp [substServed]

/-! ## The substitution that is served (R200, R205; one at a time, log entry 100) -/

/-- In s pair p waits for a bench pair, in substitution u, and no other pair is being substituted. -/
structure WaitsAlone (s : State) (p : Nat) (u : Subst) : Prop where
  listed : p ∈ pairNums
  subst : (s.pair p).subst = some u
  waits : u.bench = none
  alone : ∀ q, q ≠ p → (s.pair q).subst = none

namespace WaitsAlone
variable {s : State} {p : Nat} {u : Subst} (h : WaitsAlone s p u)
include h

theorem noneServed : NoneServed s := by
  intro q
  by_cases e : q = p
  · simp [e, h.subst, h.waits]
  · simp [h.alone q e]

theorem waitingSubst : waitingSubst s = some p := by
  have only (q : Nat) : decide ((s.pair q).subst.map (·.bench) = some none) = decide (q = p) := by
    by_cases e : q = p
    · simp [e, h.subst, h.waits]
    · simp [e, h.alone q e]
  have single : ∀ p ∈ pairNums, pairNums.filter (fun q => decide (q = p)) = [p] := by decide
  simp only [Machine.waitingSubst, only, single p h.listed, List.foldl_cons, List.foldl_nil]

/-- It takes the bench pair b: the rest of the pairs, memory and the repair list stay as they are. -/
theorem serveSubsts {b : Nat} (k : Nat) (bench : benchPair s = some b) (off : (s.pair p).st ≠ .bench) :
    (serveSubsts (k + 1) s).pair p = { s.pair p with subst := some { u with bench := some b, told := true } } ∧
      (∀ q, q ≠ p → q ≠ b → (serveSubsts (k + 1) s).pair q = s.pair q) ∧
      (serveSubsts (k + 1) s).crp = s.crp ∧ (serveSubsts (k + 1) s).mem = s.mem := by
  have other : p ≠ b := by
    rintro rfl
    exact off (benchPair_st bench)
  simp only [Machine.serveSubsts, h.noneServed.substServed, h.waitingSubst, bench, h.subst, Option.map_some,
    Option.getD_some, Bool.false_eq_true, if_false]
  refine ⟨?own, fun q notP notB => ?rest, ?crp, ?mem⟩
  case own => split <;> simp [gateTo_pair_other _ _ _ _ other]
  case rest => split <;> simp [gateTo_pair_other _ _ _ _ notB, State.pair_setPair_other _ _ _ _ notP]
  case crp => split <;> simp
  case mem => split <;> simp

end WaitsAlone

theorem serveSubsts_served {s : State} (k : Nat) (h : substServed s = true) : serveSubsts k s = s := by
  cases k with
  | zero => rfl
  | succ k => rw [serveSubsts, if_pos h]

theorem serveSubsts_none {s : State} (k : Nat) (h : ∀ q, (s.pair q).subst = none) : serveSubsts k s = s := by
  have noneWaits : pairNums.filter (fun p => decide ((s.pair p).subst.map (·.bench) = some none)) = [] :=
    List.filter_eq_nil_iff.mpr fun p _ => by simp [h p]
  have waiting : waitingSubst s = none := by rw [waitingSubst, noneWaits, List.foldl_nil]
  cases k with
  | zero => rfl
  | succ k =>
    rw [serveSubsts, waiting]
    exact ite_self s

/-! ## A substitution begins (R198, R200, R205) -/

/-- The substitution that begins last in s, before it has a bench pair. -/
def newSubst (s : State) (mb : Option Nat) : Subst :=
  { bench := none, told := false, passed := false, mb := mb
    turn := pairNums.foldl (fun m q => max m (((s.pair q).subst.map (·.turn)).getD 0)) 0 + 1 }

theorem newSubst_first {s : State} (h : ∀ q, (s.pair q).subst = none) :
    newSubst s none = { bench := none, told := false, passed := false, mb := none, turn := 1 } := by
  have first : pairNums.foldl (fun m _ => max m 0) 0 = 0 := by decide
  simp only [newSubst, h, Option.map_none, Option.getD_none, first]

/-- Pair p is held for a substitution that has no bench pair yet. -/
def holdPair (s : State) (p : Nat) (mb : Option Nat) : State :=
  (movePair s p .substituting).setPair p { s.pair p with
    st := .substituting, subst := some (newSubst s mb), group := 0, group1 := 0 }

@[simp] theorem holdPair_pair_self (s : State) (p : Nat) (mb : Option Nat) : (holdPair s p mb).pair p =
    { s.pair p with st := .substituting, subst := some (newSubst s mb), group := 0, group1 := 0 } :=
  State.pair_setPair ..

theorem holdPair_pair_other (s : State) (p q : Nat) (mb : Option Nat) (h : q ≠ p) :
    (holdPair s p mb).pair q = s.pair q := by
  rw [holdPair, State.pair_setPair_other _ _ _ _ h, movePair_pair_other _ _ _ _ h]

theorem beginSubst_holds {s : State} {p : Nat} (mb : Option Nat) (new : (s.pair p).st ≠ .substituting)
    (can : (benchPair s).isSome = true ∨ substServed s = true) :
    beginSubst s p mb = serveSubsts 18 (holdPair s p mb) := by
  have goes : ((benchPair s).isNone && !substServed s) = false := by
    obtain bench | served := can
    · obtain ⟨b, bench⟩ := Option.isSome_iff_exists.mp bench
      simp [bench]
    · simp [served]
  simp only [beginSubst, if_neg new, goes, Bool.false_eq_true, if_false, movePair_pair_self]
  rfl

/-- A pair held for a substitution while no other is in progress waits alone. -/
theorem holdPair_waitsAlone {s : State} {p : Nat} (listed : p ∈ pairNums) (idle : ∀ q, (s.pair q).subst = none) :
    WaitsAlone (holdPair s p none) p (newSubst s none) := by
  refine ⟨listed, by simp, rfl, fun q other => ?_⟩
  rw [holdPair_pair_other _ _ _ _ other, idle]

/-- A pair that leaves ACTIVE for a substitution leaves the bench as it is. -/
theorem benchPair_holdPair {s : State} {p : Nat} (idle : ∀ q, (s.pair q).subst = none) (off : (s.pair p).st ≠ .bench)
    (listed : p ∈ pairNums) : benchPair (holdPair s p none) = benchPair s := by
  have before : NoneServed s := fun q => by rw [idle q]; rfl
  have same : onBench (holdPair s p none) = onBench s := by
    funext q
    by_cases e : q = p
    · simp [onBench, e, off]
    · rw [onBench, holdPair_pair_other _ _ _ _ e, onBench]
  rw [(holdPair_waitsAlone listed idle).noneServed.benchPair, before.benchPair, same]

/-- A substitution in service stays so when another is held. -/
theorem substServed_holdPair {s : State} {p : Nat} (mb : Option Nat) (new : (s.pair p).subst = none)
    (served : substServed s = true) : substServed (holdPair s p mb) = true := by
  obtain ⟨q, listed, bench⟩ := substServed_iff.mp served
  have other : q ≠ p := by
    rintro rfl
    simp [new] at bench
  exact substServed_iff.mpr ⟨q, listed, by rwa [holdPair_pair_other _ _ _ _ other]⟩

/-! ## UMPIRE_CODE_ERROR (R198, R210) -/

/-- The umpire has reported pair p, whose contexts have rolled back; PAIRn_LASTLET is l. -/
def blamed (s : State) (p : Nat) (l : LastLet) : State :=
  let t := card s (40 + p) 1 0 0 0
  (onCtxs Ctx.unspeculate t (pairCtxs t p)).setPair p { s.pair p with lastlet := l }

@[simp] theorem blamed_pair_self (s : State) (p : Nat) (l : LastLet) :
    (blamed s p l).pair p = { s.pair p with lastlet := l } :=
  State.pair_setPair ..

/-- Of a pair, only PAIRn_LASTLET changes. -/
theorem blamed_keeps {α : Type} (g : Pair → α) (keeps : ∀ q l, g { q with lastlet := l } = g q) (s : State) (p : Nat)
    (l : LastLet) (q : Nat) : g ((blamed s p l).pair q) = g (s.pair q) := by
  by_cases e : q = p
  · rw [e, blamed_pair_self, keeps]
  · simp [blamed, State.pair_setPair_other _ _ _ _ e]

@[simp] theorem blamed_subst (s : State) (p : Nat) (l : LastLet) (q : Nat) :
    ((blamed s p l).pair q).subst = (s.pair q).subst :=
  blamed_keeps Pair.subst (fun _ _ => rfl) ..

@[simp] theorem benchPair_blamed (s : State) (p : Nat) (l : LastLet) : benchPair (blamed s p l) = benchPair s := by
  simp only [benchPair, blamed_subst, blamed_keeps Pair.st (fun _ _ => rfl), blamed_keeps Pair.failed (fun _ _ => rfl)]

@[simp] theorem substServed_blamed (s : State) (p : Nat) (l : LastLet) : substServed (blamed s p l) = substServed s := by
  simp only [substServed, blamed_subst]

theorem exec_umpireCodeError {s : State} {p : Fin 18} (slot : Bool) (works : pairWorks s p = true)
    (active : (s.pair p).st = .active) :
    ∃ l, l.reason = 6 ∧ l.slot = slot ∧
      exec (.umpireCodeError p slot) s = act s (beginSubst (blamed s p l) p none) := by
  have runs : (s.pair p).st ≠ .substituting := by simp [active]
  have acts : (pairWorks s p && decide ((s.pair p).st = .active)) = true := by simp [works, active]
  change ∃ l, _ ∧ _ ∧ execUmpireCodeError p s slot = _
  simp only [execUmpireCodeError, if_neg runs, acts, if_true]
  exact ⟨_, rfl, rfl, rfl⟩

/-! ## BENCH_SELF_TEST_DONE (R200, R204) -/

/-- The repair list names pair b as failed (R203). -/
def listFailed (s : State) (b : Nat) : State :=
  { s with crp := { s.crp with kept := { s.crp.kept with failedPairs := b :: s.crp.kept.failedPairs } } }

@[simp] theorem listFailed_pair (s : State) (b q : Nat) : (listFailed s b).pair q = s.pair q := rfl
@[simp] theorem listFailed_mem (s : State) (b : Nat) : (listFailed s b).mem = s.mem := rfl

/-- A bench pair that has failed its self-test is fenced, recorded and gated. -/
def fenceBench (s : State) (b : Nat) : State :=
  gateTo (listFailed (recordFenced (movePair (s.setPair b { s.pair b with failed := true }) b .fenced) b) b) b true

@[simp] theorem fenceBench_pair_self (s : State) (b : Nat) :
    (fenceBench s b).pair b = { s.pair b with failed := true, st := .fenced, gated := true } := by
  simp [fenceBench, movePair_pair_self]

theorem fenceBench_pair_other (s : State) (b q : Nat) (h : q ≠ b) : (fenceBench s b).pair q = s.pair q := by
  simp [fenceBench, gateTo_pair_other _ _ _ _ h, movePair_pair_other _ _ _ _ h, State.pair_setPair_other _ _ _ _ h]

@[simp] theorem fenceBench_mem (s : State) (b : Nat) : (fenceBench s b).mem = s.mem := by simp [fenceBench]

theorem mem_fenceBench (s : State) (b : Nat) : b ∈ (fenceBench s b).crp.kept.fenced := by
  rw [fenceBench, gateTo_crp]
  exact mem_recordFenced _ b

section
variable {s : State} {b : Fin 18} {p : Nat} {u : Subst}
  (tested : (pairNums.find? fun q => decide ((s.pair q).subst.bind (·.bench) = some b.val)) = some p)
  (subst : (s.pair p).subst = some u)
include tested subst

theorem exec_benchSelfTestDone_pass : exec (.benchSelfTestDone b true) s =
    act s (s.setPair p { s.pair p with subst := some { u with passed := true } }) := by
  change execBenchSelfTestDone b true s = _
  simp only [execBenchSelfTestDone, tested, if_true, subst, Option.map_some]

/-- The substitution of another pair that has tried b is without a bench pair again. -/
theorem exec_benchSelfTestDone_fail (other : p ≠ b) : exec (.benchSelfTestDone b false) s =
    act s (serveSubsts 18 ((fenceBench s b).setPair p { s.pair p with subst := some { u with bench := none } })) := by
  have same : (fenceBench s b).pair p = s.pair p := fenceBench_pair_other s b p other
  have retry : exec (.benchSelfTestDone b false) s = act s (serveSubsts 18
      ((fenceBench s b).setPair p { (fenceBench s b).pair p with
        subst := ((fenceBench s b).pair p).subst.map fun u => { u with bench := none } })) := by
    change execBenchSelfTestDone b false s = _
    simp only [execBenchSelfTestDone, tested]
    rfl
  rw [retry, same, subst]
  rfl

end

/-- With b fenced, the substitution that has tried it waits alone, and the lowest other pair on the bench is free. -/
theorem fenceBench_benchPair {s : State} {b p : Nat} {u : Subst} (listed : p ∈ pairNums) (off : (s.pair p).st ≠ .bench)
    (other : p ≠ b) (alone : ∀ q, q ≠ p → (s.pair q).subst = none) :
    let t := (fenceBench s b).setPair p { s.pair p with subst := some { u with bench := none } }
    WaitsAlone t p { u with bench := none } ∧
      benchPair t = pairNums.find? fun q => decide ((s.pair q).st = .bench) && !(s.pair q).failed && decide (q ≠ b) := by
  intro t
  have own : t.pair p = { s.pair p with subst := some { u with bench := none } } := State.pair_setPair ..
  have atB : t.pair b = { s.pair b with failed := true, st := .fenced, gated := true } :=
    (State.pair_setPair_other _ _ _ _ (Ne.symm other)).trans (fenceBench_pair_self s b)
  have rest (q : Nat) (notP : q ≠ p) (notB : q ≠ b) : t.pair q = s.pair q :=
    (State.pair_setPair_other _ _ _ _ notP).trans (fenceBench_pair_other s b q notB)
  have waits : WaitsAlone t p { u with bench := none } := by
    refine ⟨listed, by rw [own], rfl, fun q notP => ?_⟩
    by_cases e : q = b
    · rw [e, atB]
      exact alone b (Ne.symm other)
    · rw [rest q notP e, alone q notP]
  have same : onBench t = fun q => decide ((s.pair q).st = .bench) && !(s.pair q).failed && decide (q ≠ b) := by
    funext q
    by_cases isP : q = p
    · simp [onBench, isP, own, off]
    by_cases isB : q = b
    · simp [onBench, isB, atB]
    · simp [onBench, rest q isP isB, isB]
  exact ⟨waits, by rw [waits.noneServed.benchPair, same]⟩

/-! ## SUBSTITUTION_RESUME (R200, R201) -/

/-- The context keeps none of its translations. -/
def Ctx.coldTlb (x : Ctx) : Ctx := { x with tlb := [] }

/-- Pair p has written its L2s back and is in the repair list, and its contexts have no translations. -/
def leftPair (s : State) (p : Nat) : State :=
  let t := recordFenced (drainL2 s p) p
  onCtxs Ctx.coldTlb t (pairCtxs t p)

@[simp] theorem leftPair_pair (s : State) (p q : Nat) : (leftPair s p).pair q = s.pair q := by
  simp [leftPair, (cachesOnly_drainL2 s p).pair]
@[simp] theorem leftPair_mem (s : State) (p : Nat) : (leftPair s p).mem = s.mem := by
  simp [leftPair, (cachesOnly_drainL2 s p).mem]
@[simp] theorem leftPair_fcr (s : State) (p : Nat) : (leftPair s p).fcr = s.fcr := by
  simp [leftPair, (cachesOnly_drainL2 s p).fcr]
@[simp] theorem leftPair_chan (s : State) (p : Nat) : (leftPair s p).chan = s.chan := by
  simp [leftPair, (cachesOnly_drainL2 s p).chan]
theorem leftPair_keeps {α : Type} (g : Ctx → α) (keeps : ∀ x, g x.coldTlb = g x) (s : State) (p c : Nat) :
    g ((leftPair s p).ctx c) = g (s.ctx c) := by
  refine (onCtxs_keeps g keeps ..).trans (congrArg g ?_)
  rw [recordFenced_ctx, (cachesOnly_drainL2 s p).ctx]

/-- The contexts of pair p are in the slots of pair b, which is ACTIVE with p's cache enables and an empty predictor. -/
def movedTo (s : State) (p b : Nat) : State :=
  let q := (recordFenced (drainL2 s p) p).pair p
  let t := ((leftPair s p).setPctl b ((leftPair s p).pctl p)).setPctl p .reset
  movePair (t.setPair b { t.pair b with
    slot0 := q.slot0, slot1 := q.slot1, gated := false, pred := [], predT := [] }) b .active

theorem movedTo_pair_new (s : State) (p b : Nat) : (movedTo s p b).pair b = { s.pair b with
    st := .active, slot0 := (s.pair p).slot0, slot1 := (s.pair p).slot1, gated := false, pred := [], predT := [] } := by
  simp [movedTo, movePair_pair_self, (cachesOnly_drainL2 s p).pair]

theorem movedTo_pair_other (s : State) (p b q : Nat) (h : q ≠ b) : (movedTo s p b).pair q = s.pair q := by
  simp [movedTo, movePair_pair_other _ _ _ _ h, State.pair_setPair_other _ _ _ _ h]

/-- Pair p, whose contexts are on pair b, is fenced, empty and gated. -/
def resumed (s : State) (p b : Nat) : State :=
  gateTo (movePair ((movedTo s p b).setPair p { (movedTo s p b).pair p with
    subst := none, slot0 := none, slot1 := none, held := [], pred := [], predT := [] }) p .fenced) p true

theorem resumeOn_eq {s : State} {p b : Nat} (held : (s.pair p).held = []) : resumeOn s p b = resumed s p b := by
  have performed : resumeOn s p b = performHeld (resumed s p b) p b (s.pair p).held := rfl
  rw [performed, held, performHeld, List.foldl_nil]

section
variable {s : State} {p b : Nat} (other : b ≠ p)
include other

theorem resumed_pair_new : (resumed s p b).pair b = { s.pair b with
    st := .active, slot0 := (s.pair p).slot0, slot1 := (s.pair p).slot1, gated := false, pred := [], predT := [] } := by
  rw [resumed, gateTo_pair_other _ _ _ _ other, movePair_pair_other _ _ _ _ other,
    State.pair_setPair_other _ _ _ _ other, movedTo_pair_new]

theorem resumed_pair_old : (resumed s p b).pair p = { s.pair p with
    st := .fenced, subst := none, slot0 := none, slot1 := none, held := [], gated := true, pred := [], predT := [] } := by
  simp [resumed, movePair_pair_self, movedTo_pair_other _ _ _ _ (Ne.symm other)]

end

theorem resumed_pair_rest {s : State} {p b q : Nat} (notP : q ≠ p) (notB : q ≠ b) : (resumed s p b).pair q = s.pair q := by
  rw [resumed, gateTo_pair_other _ _ _ _ notP, movePair_pair_other _ _ _ _ notP, State.pair_setPair_other _ _ _ _ notP,
    movedTo_pair_other _ _ _ _ notB]

theorem resumed_mem (s : State) (p b : Nat) : (resumed s p b).mem = s.mem := by simp [resumed, movedTo]

theorem resumed_quiet {s : State} (p b : Nat) (h : quiet s = true) : quiet (resumed s p b) = true :=
  quiet_of s _ h (by simp [resumed, movedTo]) (by simp [resumed, movedTo])

/-- The contexts keep all that their translations do not enter. -/
theorem resumed_keeps {α : Type} (g : Ctx → α) (keeps : ∀ x, g x.coldTlb = g x) (s : State) (p b c : Nat) :
    g ((resumed s p b).ctx c) = g (s.ctx c) := by
  have same : (resumed s p b).ctx c = (leftPair s p).ctx c := by simp [State.ctx, resumed, movedTo]
  rw [same, leftPair_keeps g keeps]

/-- The resume ends the one substitution that is left. -/
theorem exec_substitutionResume {s : State} {p : Fin 18} {u : Subst} {b : Nat} (n : Nat) (subst : (s.pair p).subst = some u)
    (bench : u.bench = some b) (passed : u.passed = true) (noMb : u.mb = none) (other : b ≠ p)
    (alone : ∀ q, q ≠ p.val → (s.pair q).subst = none) (held : (s.pair p).held = []) :
    exec (.substitutionResume p n) s = act s (resumed s p b) := by
  have ended : ∀ q, ((resumed s p b).pair q).subst = none := by
    intro q
    by_cases isP : q = p
    · rw [isP, resumed_pair_old other]
    by_cases isB : q = b
    · rw [isB, resumed_pair_new other]
      exact alone b other
    · rw [resumed_pair_rest isP isB, alone q isP]
  change execSubstitutionResume p n s = _
  simp only [execSubstitutionResume, subst, bench, passed, noMb, resumeOn_eq held, Bool.not_true, Bool.false_eq_true,
    if_false, serveSubsts_none 18 ended]

/-! ## HANDOVER_COMPLETE (R206, R208) -/

/-- The caches of a pair that splits or joins. -/
def handoverCaches (s : State) (p : Nat) (toSplit : Bool) : State := if toSplit then splitL2 s p else drainL2 s p

theorem cachesOnly_handoverCaches (s : State) (p : Nat) (toSplit : Bool) : CachesOnly s (handoverCaches s p toSplit) :=
  .ite (cachesOnly_setCaches s _) (cachesOnly_drainL2 s p)

/-- Pair p has split or joined. -/
def handedOver (s : State) (p : Nat) (toSplit : Bool) : State :=
  let t := handoverCaches s p toSplit
  shareCredits (movePair (t.setPair p { t.pair p with
    handover := none, held := [], pred := if toSplit then (t.pair p).pred else []
    predT := if toSplit then (t.pair p).pred else [] }) p (if toSplit then .split else .active)) p

theorem handedOver_pair (s : State) (p : Nat) (toSplit : Bool) : (handedOver s p toSplit).pair p = { s.pair p with
    st := if toSplit then .split else .active, handover := none, held := []
    pred := if toSplit then (s.pair p).pred else [], predT := if toSplit then (s.pair p).pred else [] } := by
  refine (movePair_pair_self ..).trans ?_
  rw [State.pair_setPair, (cachesOnly_handoverCaches s p toSplit).pair]

theorem handedOver_mem (s : State) (p : Nat) (toSplit : Bool) : (handedOver s p toSplit).mem = s.mem :=
  (movePair_mem ..).trans (cachesOnly_handoverCaches s p toSplit).mem

theorem handedOver_ctxs (s : State) (p : Nat) (toSplit : Bool) : (handedOver s p toSplit).ctxs = s.ctxs :=
  (movePair_ctxs ..).trans (cachesOnly_handoverCaches s p toSplit).ctxs

theorem handedOver_fcr (s : State) (p : Nat) (toSplit : Bool) : (handedOver s p toSplit).fcr = s.fcr :=
  (movePair_fcr ..).trans (cachesOnly_handoverCaches s p toSplit).fcr

theorem handedOver_chan (s : State) (p : Nat) (toSplit : Bool) : (handedOver s p toSplit).chan = s.chan :=
  (movePair_chan ..).trans (cachesOnly_handoverCaches s p toSplit).chan

/-- A pair that has joined has empty L2s. -/
theorem handedOver_l2_empty {s : State} {p : Nat} : ∀ l ∈ (handedOver s p false).caches.l2, l.owner % 18 ≠ p := by
  have caches : (handedOver s p false).caches = (drainL2 s p).caches := movePair_caches ..
  rw [caches]
  exact fun l => owner_ne_of_mem_emptyL2

/-- The hand-over's command, if it has not been ended from outside, ends DONE. -/
def handoverDone (s : State) (p : Nat) (mb : Option Nat) : State :=
  mb.elim s fun n => mbDone (mbProgress s n (pairCtxs s p).length) n 0 (todWords s.tod)

theorem handoverDone_st {s : State} {p n : Nat} {mb : Option Nat} (h : mb = some n) :
    ((handoverDone s p mb).mb n).st = .done := by
  rw [h, handoverDone, Option.elim_some, mbDone_mb_self]

/-- What a command's end keeps, the end of a hand-over keeps. -/
theorem handoverDone_keeps {α : Type} (g : State → α) (done : ∀ s n k l, g (mbDone s n k l) = g s)
    (progress : ∀ s n v, g (mbProgress s n v) = g s) (s : State) (p : Nat) (mb : Option Nat) :
    g (handoverDone s p mb) = g s := by
  cases mb with
  | none => rfl
  | some n => rw [handoverDone, Option.elim_some, done, progress]

theorem exec_handoverComplete {s : State} {p : Fin 18} {h : Handover} (ends : (s.pair p).handover = some h)
    (held : (s.pair p).held = []) :
    exec (.handoverComplete p) s = act s (handoverDone (handedOver s p h.toSplit) p h.mb) := by
  obtain ⟨toSplit, mb⟩ := h
  change execHandoverComplete p s = _
  simp only [execHandoverComplete, ends, held]
  cases mb <;> rfl

/-! ## SLOT_WINDOW_WRITE (R202, R212) -/

theorem slotWriteReg_held {s : State} (r : Req) {p : Nat} (k : Bool) (off : Nat) (v : Word) (held : slotHeld s p = true) :
    slotWriteReg s r p k off v = s.setPair p { s.pair p with held := (s.pair p).held ++
      [{ req := r, inst := reqInst s r, write := true, off := (if k then 0xC000 else 0x8000) + off, w := 8, v := v }] } :=
  if_pos held

theorem slotWriteReg_writes {s : State} (r : Req) {p c : Nat} {k : Bool} (off : Nat) (v : Word)
    (free : slotHeld s p = false) (on : (s.pair p).gated = false) (placed : slotCtx s p k = some c) :
    slotWriteReg s r p k off v = s.setCtx c ((s.ctx c).slotWrite off v) := by
  simp [slotWriteReg, free, slotTouch, on, slotStore, placed]

/-- A slot window's write that sends nothing answers the state that its register leaves. -/
theorem exec_slotWindowWrite {s t : State} {r : Req} {p : Fin 18} {k : Bool} {off : BitVec 14} {v : Word}
    (h : Reaches s r (slotOff p k off.toNat) (.slot p k off.toNat)) (write : slotWriteReg s r p k off.toNat v = t)
    (bus : t.bus = s.bus) (fcr : t.fcr = s.fcr) (chan : t.chan = s.chan) :
    exec (.slotWindowWrite r p k off v) s = .next t := by
  subst write
  change ctlCmd s r _ v = _
  rw [ctlCmd_quiet s r _ v _ h (bus ▸ h.issues.noneWait) (quiet_of s _ h.calm.quiet fcr chan), writeDone_of h rfl rfl]
  rfl

end Sys2Proof.Machine

namespace Sys2Proof.Proofs
open Sys2Proof.Machine

/-- Settles O37: a substitution that is served takes its bench pair, or waits behind the one in service; the resume and the
hand-over leave nothing to do; and a slot window's write is one of its register. -/
theorem pairCommands : Obligations.PairCommands := by
  unfold Obligations.PairCommands
  refine ⟨?begins, ?waits, ?passes, ?fails, ?resumes, ?handsOver, ?slotWrites, ?slotHolds⟩
  case begins =>
    intro s p slot b calm works active idle bench
    obtain ⟨l, reason, group, run⟩ := exec_umpireCodeError slot works active
    have listed : p.val ∈ pairNums := List.mem_range.mpr p.isLt
    have idle' : ∀ q, ((blamed s p l).pair q).subst = none := fun q => by rw [blamed_subst, idle]
    have bench' : benchPair (holdPair (blamed s p l) p none) = some b := by
      rw [benchPair_holdPair idle' (by simp [active]) listed, benchPair_blamed, bench]
    obtain ⟨own, _⟩ := (holdPair_waitsAlone listed idle').serveSubsts 17 bench' (by simp)
    rw [newSubst_first idle'] at own
    refine ⟨serveSubsts 18 (holdPair (blamed s p l) p none), ?_, ?_⟩
    · rw [run, beginSubst_holds none (by simp [active]) (.inl (by simp [bench])), act_live s _ calm.live]
    · simp [own, reason, group]
  case waits =>
    intro s p slot calm works active new served
    obtain ⟨l, _, _, run⟩ := exec_umpireCodeError slot works active
    have served' : substServed (blamed s p l) = true := (substServed_blamed s p l).trans served
    have new' : ((blamed s p l).pair p).subst = none := (blamed_subst s p l p).trans new
    refine ⟨holdPair (blamed s p l) p none, newSubst (blamed s p l) none, ?_, ?_⟩
    · rw [run, beginSubst_holds none (by simp [active]) (.inr served'),
        serveSubsts_served 18 (substServed_holdPair none new' served'), act_live s _ calm.live]
    · simp [newSubst]
  case passes =>
    intro s b p u calm tested subst
    rw [exec_benchSelfTestDone_pass tested subst]
    exact act_quiet s _ calm.live (quiet_of s _ calm.quiet rfl rfl)
  case fails =>
    intro s b p u d calm tested subst substituting onBench alone next
    have listed : p ∈ pairNums := List.mem_of_find?_eq_some tested
    have other : p ≠ b := by
      rintro rfl
      simp [substituting] at onBench
    obtain ⟨waits, bench⟩ := fenceBench_benchPair (b := b) (u := u) listed (by simp [substituting]) other alone
    obtain ⟨own, rest, crp, mem⟩ := waits.serveSubsts 17 (bench.trans next) (by simp [substituting])
    have notD : b.val ≠ d := by
      have found := List.find?_some next
      simp only [Bool.and_eq_true, decide_eq_true_eq] at found
      obtain ⟨_, notB⟩ := found
      exact Ne.symm notB
    have fenced := rest b (Ne.symm other) notD
    rw [State.pair_setPair_other _ _ _ _ (Ne.symm other), fenceBench_pair_self] at fenced
    refine ⟨_, (exec_benchSelfTestDone_fail tested subst other).trans (act_live s _ calm.live), ?_⟩
    rw [own, fenced, crp, mem]
    exact ⟨rfl, rfl, rfl, mem_fenceBench s b, fenceBench_mem s b⟩
  case resumes =>
    intro s p n u b calm subst bench passed noMb alone other held
    refine ⟨resumed s p b, ?_, ?_⟩
    · rw [exec_substitutionResume n subst bench passed noMb other alone held]
      exact act_quiet s _ calm.live (resumed_quiet p b calm.quiet)
    · rw [resumed_pair_new other, resumed_pair_old other]
      exact ⟨rfl, rfl, rfl, rfl, rfl, resumed_mem s p b, fun c =>
        ⟨resumed_keeps Ctx.a (fun _ => rfl) .., resumed_keeps Ctx.pc (fun _ => rfl) ..,
          resumed_keeps Ctx.ps (fun _ => rfl) ..⟩⟩
  case handsOver =>
    intro s p h calm ends held
    have kept {α : Type} (g : State → α) (done : ∀ s n k l, g (mbDone s n k l) = g s)
        (progress : ∀ s n v, g (mbProgress s n v) = g s) :=
      handoverDone_keeps g done progress (handedOver s p h.toSplit) p h.mb
    have pair := (kept (State.pair · p) (by simp) (by simp)).trans (handedOver_pair s p h.toSplit)
    have fcr := (kept State.fcr (by simp) (by simp)).trans (handedOver_fcr s p h.toSplit)
    have chan := (kept State.chan (by simp) (by simp)).trans (handedOver_chan s p h.toSplit)
    have caches := kept State.caches (by simp) (by simp)
    refine ⟨handoverDone (handedOver s p h.toSplit) p h.mb, ?_, ?st, ?ended, ?mem, ?ctxs, ?joined,
      fun n => handoverDone_st⟩
    · rw [exec_handoverComplete ends held]
      exact act_quiet s _ calm.live (quiet_of s _ calm.quiet fcr chan)
    case st => rw [pair]
    case ended => rw [pair]
    case mem => exact (kept State.mem (by simp) (by simp)).trans (handedOver_mem s p h.toSplit)
    case ctxs => exact (kept State.ctxs (by simp) (by simp)).trans (handedOver_ctxs s p h.toSplit)
    case joined =>
      intro join
      rw [pair, caches, join]
      exact ⟨rfl, rfl, handedOver_l2_empty⟩
  case slotWrites =>
    intro s r p k off v c h free on placed
    have write : exec (.slotWindowWrite r p k off v) s = .next (s.setCtx c ((s.ctx c).slotWrite off.toNat v)) :=
      exec_slotWindowWrite h (slotWriteReg_writes r _ v free on placed) rfl rfl rfl
    exact ⟨fun pc => by rw [write, pc]; rfl, fun a => by rw [write, a]; rfl⟩
  case slotHolds =>
    intro s r p k off v h held
    exact exec_slotWindowWrite h (slotWriteReg_held r k _ v held) rfl rfl rfl

end Sys2Proof.Proofs
end

section
/-! PROOFS. The event router (10): the choice of a context, events that arrive, masks and pending bits, deliveries in slots,
the end of interrupt. -/
namespace Sys2Proof.Machine

/-! ## Choosing a context (R219, R220) -/

/-- The contexts that a source may go to in a cycle: eligible and without a delivery in it. -/
def choices (s : State) (used : List Nat) (n : Nat) : List Nat :=
  ctxNums.filter fun c => eligible s n c && !used.contains c

theorem mem_choices {s : State} {used : List Nat} {n c : Nat} :
    c ∈ choices s used n ↔ c < 32 ∧ eligible s n c = true ∧ c ∉ used := by
  simp [choices, ctxNums]

/-- The smallest of a start value and of a function over a list is below each of them. -/
theorem foldl_min_le (f : Nat → Nat) (l : List Nat) (m : Nat) :
    l.foldl (fun m c => min m (f c)) m ≤ m ∧ ∀ c ∈ l, l.foldl (fun m c => min m (f c)) m ≤ f c := by
  induction l generalizing m with
  | nil => simp
  | cons d l ih =>
    obtain ⟨below, all⟩ := ih (min m (f d))
    exact ⟨Nat.le_trans below (Nat.min_le_left ..), List.forall_mem_cons.mpr ⟨Nat.le_trans below (Nat.min_le_right ..), all⟩⟩

/-- What is chosen is a choice, and no choice runs at a lower priority. -/
theorem chooseCtx_eq_some {s : State} {used : List Nat} {n c : Nat} (h : chooseCtx s used n = some c) :
    c ∈ choices s used n ∧ ∀ d ∈ choices s used n, runPrio s c ≤ runPrio s d := by
  unfold chooseCtx at h
  dsimp only at h
  split at h
  · cases h
  · rename_i c0 l _
    have found := List.find?_some h
    simp only [Bool.and_eq_true, List.contains_iff_mem, decide_eq_true_eq] at found
    obtain ⟨listed, lowest⟩ := found
    refine ⟨listed, fun d other => ?_⟩
    rw [lowest]
    exact (foldl_min_le (runPrio s) _ _).2 d other

/-! ## Bits of a register -/

theorem bitOf_setBit {n : Nat} (w : BitVec n) {i : Nat} (b : Bool) (j : Nat) (h : i < n) :
    bitOf (setBit w i b) j = if j = i then b else bitOf w j := by
  have one : (BitVec.ofNat n (2 ^ i)).getLsbD j = decide (j = i) := by
    rw [BitVec.getLsbD_ofNat, Nat.testBit_two_pow, ← Bool.decide_and, decide_eq_decide]
    omega
  unfold setBit bitOf
  cases b
  · rw [if_neg Bool.false_ne_true, BitVec.getLsbD_and, BitVec.getLsbD_not, one]
    by_cases same : j = i
    · simp [same]
    · by_cases inside : j < n
      · simp [same, inside]
      · simp [same, BitVec.getLsbD_of_ge w j (Nat.le_of_not_lt inside)]
  · rw [if_pos rfl, BitVec.getLsbD_or, one]
    by_cases same : j = i <;> simp [same]

/-- The register w with bit at + j set to b for every j of a list that p picks. -/
def setBits (b : Bool) (p : Nat → Bool) (at' : Nat) (l : List Nat) (w : BitVec 1024) : BitVec 1024 :=
  l.foldl (fun w j => if p j then setBit w (at' + j) b else w) w

theorem bitOf_setBits (b : Bool) (p : Nat → Bool) {at' : Nat} (n : Nat) (l : List Nat) (w : BitVec 1024)
    (h : ∀ j ∈ l, at' + j < 1024) :
    bitOf (setBits b p at' l w) n = if at' ≤ n ∧ n - at' ∈ l ∧ p (n - at') = true then b else bitOf w n := by
  induction l generalizing w with
  | nil => simp [setBits]
  | cons j l ih =>
    obtain ⟨first, rest⟩ := List.forall_mem_cons.mp h
    have step : setBits b p at' (j :: l) w = setBits b p at' l (if p j then setBit w (at' + j) b else w) := rfl
    rw [step, ih _ rest]
    clear ih
    have bit : bitOf (if p j = true then setBit w (at' + j) b else w) n =
        if n = at' + j ∧ p j = true then b else bitOf w n := by
      rw [apply_ite (bitOf · n), bitOf_setBit w b n first]
      by_cases picked : p j = true <;> simp [picked]
    rw [bit]
    by_cases here : n = at' + j
    · subst here
      by_cases picked : p j = true <;> simp [picked]
    · have apart (low : at' ≤ n) : n - at' ≠ j := by omega
      by_cases low : at' ≤ n
      · simp [here, low, apart low]
      · simp [here, low]

/-- So for the 64 bits of a word. -/
theorem bitOf_setBits_word (b : Bool) (p : Nat → Bool) {at' : Nat} (n : Nat) (w : BitVec 1024) (h : at' + 64 ≤ 1024) :
    bitOf (setBits b p at' (List.range 64) w) n =
      if at' ≤ n ∧ n < at' + 64 ∧ p (n - at') = true then b else bitOf w n := by
  have inside : ∀ j ∈ List.range 64, at' + j < 1024 := fun j listed => by
    have := List.mem_range.mp listed
    omega
  rw [bitOf_setBits b p n _ w inside]
  refine ite_congr (propext (and_congr_right fun low => and_congr_left fun _ => ?_)) (fun _ => rfl) fun _ => rfl
  rw [List.mem_range]
  omega

/-! ## Commands that leave the FCR and the channel alone -/

/-- Such a command answers exactly the state that it leaves. -/
theorem Calm.act {s t : State} (calm : Calm s) (fcr : t.fcr = s.fcr) (chan : t.chan = s.chan) :
    Machine.act s t = .next t :=
  act_quiet s t calm.live (quiet_of s t calm.quiet fcr chan)

/-- So does the write of such a register, where it sends nothing. -/
theorem ctlCmd_leaves {s t : State} {r : Req} {off : Nat} {v : Word} {g : Reg} (h : Reaches s r off g)
    (write : regWrite s r off v g = t) (bus : t.bus = s.bus) (fcr : t.fcr = s.fcr) (chan : t.chan = s.chan)
    (aud : g.isAud = false) (dbg : g.isDbg = false) : ctlCmd s r off v = .next t := by
  subst write
  rw [ctlCmd_quiet s r off v g h (bus ▸ h.issues.noneWait) (quiet_of s _ h.calm.quiet fcr chan), writeDone_of h aud dbg]

/-! ## Events (R12, R213, R215, R216) -/

theorem Flows.noCredit {s : State} (flows : Flows s) (k : QClass) (p c : Nat) : noCredit s k p c = false :=
  List.any_eq_false.mpr fun q listed => by simp [flows.credits q listed]

theorem Flows.eventWaits {s : State} (flows : Flows s) (b : Nat) : eventWaits s b = false := by
  simp [Machine.eventWaits, flows.noCredit, flows.noEvents]

/-- An event of a source that is in use arrives. -/
theorem Flows.sendEvent {s : State} (flows : Flows s) {e : EventMsg} (used : reservedSource e.source = false) :
    sendEvent s e = eventLands s e := by
  simp [Machine.sendEvent, used, flows.eventWaits]

theorem sendEvent_reserved {s : State} {e : EventMsg} (h : reservedSource e.source = true) : sendEvent s e = s :=
  if_pos h

theorem Flows.raise {s : State} (flows : Flows s) {n : Nat} (used : reservedSource n = false) : raise s n = setPend s n :=
  flows.sendEvent used

/-- An event of current work sets its pending bit. -/
theorem Flows.raiseFor {s : State} (flows : Flows s) {n i : Nat} {k : BitVec 12} (used : reservedSource n = false)
    (current : s.inningsOf (BitVec.ofNat 8 i).toNat = k) : raiseFor s n i k = setPend s n := by
  have fresh : EventMsg.stale s { source := n, work := some (BitVec.ofNat 8 i, k) } = false := by
    simp only [EventMsg.stale, current, ne_eq, not_true_eq_false, decide_false]
  rw [Machine.raiseFor, flows.sendEvent used, eventLands, fresh]
  rfl

/-- An event of stale work is discarded. -/
theorem Flows.raiseFor_stale {s : State} (flows : Flows s) {n i : Nat} {k : BitVec 12}
    (stale : s.inningsOf (BitVec.ofNat 8 i).toNat ≠ k) : Machine.raiseFor s n i k = s := by
  by_cases used : reservedSource n = true
  · exact sendEvent_reserved used
  · have old : EventMsg.stale s { source := n, work := some (BitVec.ofNat 8 i, k) } = true := by
      simpa [EventMsg.stale] using stale
    rw [Machine.raiseFor, flows.sendEvent (Bool.eq_false_iff.mpr used), eventLands, if_pos old]

theorem bitOf_setPend (s : State) {n : Nat} (h : n < 1024) (m : Nat) :
    bitOf (setPend s n).ert.pend m = if m = n then true else bitOf s.ert.pend m := by
  rw [setPend, bitOf_setBit _ _ _ h]

theorem exec_eventArrival {s : State} {n : Fin 1024} (i : BitVec 8) (k : BitVec 12) (block : blockSource n = true) :
    exec (.eventArrival n i k) s = act s (raiseFor s n i.toNat k) := by
  change Machine.act s (if blockSource n then _ else _) = _
  rw [if_pos block]

/-! ## MSI-X writes (R213, R214) -/

theorem msix_dropped {s : State} (port : Bool) {data : BitVec 32} (h : 127 < data.toNat) :
    msix s port data = { s with ert := { s.ert with msidrop := satInc s.ert.msidrop } } :=
  if_neg (by omega)

/-- Port 0 has the sources from 512 on, port 1 those from 640 on. -/
theorem Flows.msix {s : State} (flows : Flows s) (port : Bool) {data : BitVec 32} (h : data.toNat ≤ 127) :
    msix s port data = setPend s ((if port then 640 else 512) + data.toNat) := by
  have source : 512 + 128 * b2n port + data.toNat = (if port then 640 else 512) + data.toNat := by cases port <;> rfl
  have used : reservedSource ((if port then 640 else 512) + data.toNat) = false := by
    simp only [reservedSource, Bool.or_eq_false_iff, Bool.and_eq_false_iff, decide_eq_false_iff_not]
    split <;> omega
  rw [Machine.msix, if_pos (by omega), source, flows.raise used]

/-! ## Candidates of a selection (R218, R220) -/

theorem mem_insertSource {s : State} {n m : Nat} {l : List Nat} : m ∈ insertSource s n l ↔ m = n ∨ m ∈ l := by
  induction l with
  | nil => simp [insertSource]
  | cons k l ih =>
    unfold insertSource
    split
    · simp
    · rw [List.mem_cons, ih, List.mem_cons]
      exact or_left_comm

theorem mem_foldl_insertSource {s : State} {m : Nat} (l k : List Nat) :
    m ∈ l.foldl (fun k n => insertSource s n k) k ↔ m ∈ l ∨ m ∈ k := by
  induction l generalizing k with
  | nil => simp
  | cons n l ih =>
    rw [List.foldl_cons, ih, mem_insertSource, List.mem_cons, or_left_comm, or_assoc]

/-- Only sources that can be selected are candidates. -/
theorem selectable_of_mem_candidates {s : State} {n : Nat} (h : n ∈ candidates s) : selectable s n = true := by
  rw [candidates, mem_foldl_insertSource, List.mem_filter] at h
  simp only [List.not_mem_nil, or_false, Bool.and_eq_true] at h
  obtain ⟨_, _, can⟩ := h
  exact can

theorem not_masked_of_selectable {s : State} {n : Nat} (h : selectable s n = true) : bitOf s.ert.mask n = false := by
  simp only [selectable, Bool.and_eq_true, Bool.not_eq_true'] at h
  obtain ⟨⟨⟨⟨_, open'⟩, _⟩, _⟩, _⟩ := h
  exact open'

/-! ## Writes to pending bits (R213, R218) -/

/-- A loop over pending bits changes the pending bits alone. -/
theorem foldl_pend (b : Bool) (p : Nat → Bool) (at' : Nat) (l : List Nat) (s : State) :
    l.foldl (fun t j => if p j then { t with ert := { t.ert with pend := setBit t.ert.pend (at' + j) b } } else t) s =
      { s with ert := { s.ert with pend := setBits b p at' l s.ert.pend } } := by
  induction l generalizing s with
  | nil => rfl
  | cons j l ih =>
    rw [List.foldl_cons, ih]
    by_cases picked : p j = true <;> simp [setBits, picked]

theorem pendClr_eq (s : State) (k : Nat) (v : Word) : pendClr s k v = { s with ert := { s.ert with
    pend := setBits false (fun j => bitOf v j && pendClearable s (64 * k + j)) (64 * k) (List.range 64) s.ert.pend } } :=
  foldl_pend false _ _ _ s

theorem swRaise_eq (s : State) (v : Word) : swRaise s v = { s with ert := { s.ert with
    pend := setBits true (bitOf v) 128 (List.range 64) s.ert.pend } } :=
  foldl_pend true _ _ _ s

/-! ## What the router's own steps change -/

/-- From s to t the router moves deliveries: its slots, rotation and pending bits change, and contexts wake. -/
def RoutesOnly (s t : State) : Prop :=
  ∃ slots rot pend ctxs, t = { s with ert := { s.ert with slots := slots, rot := rot, pend := pend }, ctxs := ctxs }

namespace RoutesOnly

theorem refl (s : State) : RoutesOnly s s := ⟨_, _, _, _, rfl⟩

theorem trans {s t u : State} (first : RoutesOnly s t) (second : RoutesOnly t u) : RoutesOnly s u := by
  obtain ⟨_, _, _, _, rfl⟩ := first
  obtain ⟨_, _, _, _, rfl⟩ := second
  exact ⟨_, _, _, _, rfl⟩

theorem foldl {α : Type} {f : State → α → State} (step : ∀ t a, RoutesOnly t (f t a)) (l : List α) (s : State) :
    RoutesOnly s (l.foldl f s) :=
  List.foldlRecOn l f (motive := RoutesOnly s) (refl s) fun _ before a _ => before.trans (step _ a)

theorem ite {s t u : State} {p : Prop} [Decidable p] (yes : RoutesOnly s t) (no : RoutesOnly s u) :
    RoutesOnly s (if p then t else u) := by
  split
  · exact yes
  · exact no

section
variable {s t : State} (h : RoutesOnly s t)
include h

theorem mem : t.mem = s.mem := by obtain ⟨_, _, _, _, rfl⟩ := h; rfl
theorem bus : t.bus = s.bus := by obtain ⟨_, _, _, _, rfl⟩ := h; rfl
theorem fcr : t.fcr = s.fcr := by obtain ⟨_, _, _, _, rfl⟩ := h; rfl
theorem chan : t.chan = s.chan := by obtain ⟨_, _, _, _, rfl⟩ := h; rfl
theorem mask : t.ert.mask = s.ert.mask := by obtain ⟨_, _, _, _, rfl⟩ := h; rfl
theorem stackOf (c : Nat) : stackOf t c = stackOf s c := by obtain ⟨_, _, _, _, rfl⟩ := h; rfl

end
end RoutesOnly

theorem routesOnly_setSlot (s : State) (c : Nat) (d : Option Delivery) : RoutesOnly s (setSlot s c d) := ⟨_, _, _, _, rfl⟩

theorem routesOnly_withdraw (s : State) (c : Nat) : RoutesOnly s (withdraw s c) := by
  unfold withdraw
  split
  · exact .refl s
  · exact .ite (routesOnly_setSlot ..) ⟨_, _, _, _, rfl⟩

theorem routesOnly_wakeCtx (s : State) (c : Nat) : RoutesOnly s (wakeCtx s c) := by
  unfold wakeCtx
  split
  · exact .ite (.refl s) ⟨_, _, _, _, rfl⟩
  · exact .refl s

theorem routesOnly_arrive (s : State) (c : Nat) : RoutesOnly s (arrive s c) := by
  unfold arrive
  split
  · exact .refl s
  split
  · exact .refl s
  · exact (routesOnly_setSlot ..).trans (routesOnly_wakeCtx _ c)

theorem routesOnly_slotCycle (s : State) (c : Nat) : RoutesOnly s (slotCycle s c) := by
  unfold slotCycle
  split
  · exact .refl s
  · rename_i d _
    have aged := routesOnly_setSlot s c (some { d with age := if d.age < 25 then d.age + 1 else 25 })
    have arrived {p : Prop} [Decidable p] := aged.trans (.ite (p := p) (routesOnly_arrive _ c) (.refl _))
    exact .ite (arrived.trans (routesOnly_withdraw _ c)) arrived

theorem routesOnly_placeIn (s : State) (n c : Nat) : RoutesOnly s (placeIn s n c) :=
  (routesOnly_withdraw s c).trans (.ite ⟨_, _, _, _, rfl⟩ ⟨_, _, _, _, rfl⟩)

theorem routesOnly_selectFrom (k : Nat) (used l : List Nat) (s : State) : RoutesOnly s (selectFrom k used l s) := by
  induction l generalizing k used s with
  | nil => unfold selectFrom; exact .refl s
  | cons n l ih =>
    cases k with
    | zero => exact .refl s
    | succ k =>
      unfold selectFrom
      split
      · exact ih ..
      · exact (routesOnly_placeIn ..).trans (ih ..)

theorem routesOnly_ertCycle (s : State) : RoutesOnly s (ertCycle s) := by
  have aged : RoutesOnly s (ctxNums.foldl slotCycle s) := .foldl routesOnly_slotCycle ctxNums s
  unfold ertCycle ertSelect
  exact aged.trans (.ite (routesOnly_selectFrom ..) (.refl _))

/-- A command that only routes answers the state that it leaves. -/
theorem RoutesOnly.act {s t : State} (h : RoutesOnly s t) (calm : Calm s) : Machine.act s t = .next t :=
  calm.act h.fcr h.chan

/-! ## Slots -/

@[simp] theorem slotAt_setSlot_self (s : State) (c : Nat) (d : Option Delivery) : slotAt (setSlot s c d) c = d :=
  Tab.get_set_self ..

theorem slotAt_setSlot_other (s : State) {c m : Nat} (d : Option Delivery) (h : m ≠ c) :
    slotAt (setSlot s c d) m = slotAt s m :=
  Tab.get_set_other _ _ _ _ _ h

theorem withdraw_some {s : State} {c : Nat} {d : Delivery} (h : slotAt s c = some d) : withdraw s c =
    if isLevel s d.source then setSlot s c none else setPend (setSlot s c none) d.source := by
  unfold withdraw
  rw [h]
  rfl

/-- The slot of a context whose delivery is withdrawn is empty; the others stay. -/
theorem slotAt_withdraw_self {s : State} {c : Nat} {d : Delivery} (h : slotAt s c = some d) :
    slotAt (withdraw s c) c = none := by
  rw [withdraw_some h]
  split <;> exact slotAt_setSlot_self ..

theorem slotAt_withdraw_other {s : State} {c m : Nat} (h : m ≠ c) : slotAt (withdraw s c) m = slotAt s m := by
  cases held : slotAt s c with
  | none => unfold withdraw; rw [held]
  | some d =>
    rw [withdraw_some held]
    split <;> exact slotAt_setSlot_other s none h

/-- What a mask write leaves of a delivery in a slot (R224). -/
def maskedSlot (k : Nat) (v : Word) : Option Delivery → Option Delivery
  | none => none
  | some d =>
    if d.source / 64 = k ∧ bitOf v (d.source % 64) = true then (if 25 ≤ d.age then none else some { d with lateMask := true })
    else some d

theorem maskedSlot_maskedSlot (k : Nat) (v : Word) (d : Option Delivery) :
    maskedSlot k v (maskedSlot k v d) = maskedSlot k v d := by
  cases d with
  | none => rfl
  | some d =>
    by_cases met : d.source / 64 = k ∧ bitOf v (d.source % 64) = true
    · by_cases old : 25 ≤ d.age <;> simp [maskedSlot, met, old]
    · simp [maskedSlot, met]

theorem slotAt_maskSlot_self (k : Nat) (v : Word) (s : State) (c : Nat) :
    slotAt (maskSlot k v s c) c = maskedSlot k v (slotAt s c) := by
  unfold maskSlot
  split
  · rename_i empty
    rw [empty]
    rfl
  · rename_i d held
    rw [held, maskedSlot, apply_ite (slotAt · c), apply_ite (slotAt · c), slotAt_withdraw_self held, slotAt_setSlot_self, held]

theorem slotAt_maskSlot_other (k : Nat) (v : Word) (s : State) {c m : Nat} (h : m ≠ c) :
    slotAt (maskSlot k v s c) m = slotAt s m := by
  unfold maskSlot
  split
  · rfl
  · rw [apply_ite (slotAt · m), apply_ite (slotAt · m), slotAt_withdraw_other h, slotAt_setSlot_other _ _ h]
    simp

/-- A mask write meets the slot of every context of a list, once or more. -/
theorem slotAt_foldl_maskSlot (k : Nat) (v : Word) (l : List Nat) (s : State) (c : Nat) :
    slotAt (l.foldl (maskSlot k v) s) c = if c ∈ l then maskedSlot k v (slotAt s c) else slotAt s c := by
  induction l generalizing s with
  | nil => simp
  | cons m l ih =>
    rw [List.foldl_cons, ih]
    by_cases same : c = m
    · subst same
      simp [slotAt_maskSlot_self, maskedSlot_maskedSlot]
    · simp [slotAt_maskSlot_other k v s same, same]

theorem routesOnly_maskSlot (k : Nat) (v : Word) (s : State) (c : Nat) : RoutesOnly s (maskSlot k v s c) := by
  unfold maskSlot
  split
  · exact .refl s
  · exact .ite (.ite (routesOnly_withdraw ..) (routesOnly_setSlot ..)) (.refl s)

/-- After its bits are set, a mask write only routes. -/
theorem routesOnly_maskSet (s : State) (k : Nat) (v : Word) :
    RoutesOnly { s with ert := { s.ert with mask := s.ert.mask ||| atWord k v } } (maskSet s k v) :=
  .foldl (routesOnly_maskSlot k v) ctxNums _

theorem slotAt_maskSet (s : State) (k : Nat) (v : Word) {c : Nat} (h : c < 32) :
    slotAt (maskSet s k v) c = maskedSlot k v (slotAt s c) := by
  have listed : c ∈ ctxNums := List.mem_range.mpr h
  rw [maskSet, slotAt_foldl_maskSlot, if_pos listed]
  rfl

/-! ## Arrivals, balls and sources -/

theorem arrive_some {s : State} {c p : Nat} {d : Delivery} {k : Bool} (credit : noCredit s .eventDelivery 0 c = false)
    (held : slotAt s c = some d) (placed : placeOf s c = some (p, k)) (on : (s.pair p).gated = false) :
    arrive s c = (setSlot s c (some { d with arrived := true })).setCtx c (s.ctx c).wake := by
  have placed' : placeOf (setSlot s c (some { d with arrived := true })) c = some (p, k) := placed
  have on' : ((setSlot s c (some { d with arrived := true })).pair p).gated = false := on
  simp only [arrive, credit, held, wakeCtx, placed', on']
  rfl

theorem exec_evtBallChange {s : State} {n : Fin 64} (level : Bool) {held : Nat} (sampled : Bool)
    (long : fld (srcOf s n) 55 48 + 2 ≤ held) : exec (.evtBallChange n level held sampled) s = act s (ballAccept s n level) :=
  congrArg (act s) (if_pos (.inl long))

theorem ballAccept_edge {s : State} {n : Nat} {level : Bool} (edge : isLevel s n = false) (changed : bitOf s.ert.ball n ≠ level)
    (active : bitOf (srcOf s n) 60 ≠ level) : ballAccept s n level =
      setPend { s with ert := { s.ert with ball := setBit s.ert.ball n level } } n := by
  unfold ballAccept
  simp [edge, changed, active.symm]

/-! ## The end of interrupt (R229) -/

theorem stackOf_setStack_self (s : State) (c : Nat) (l : List StackEntry) : stackOf (setStack s c l) c = l :=
  Tab.get_set_self ..

theorem eoi_empty {s : State} {c : Nat} (h : stackOf s c = []) :
    eoi s c = { s with ert := { s.ert with underflow := setBit s.ert.underflow c true } } := by
  unfold eoi
  rw [h]

/-- A pop is followed by routing alone. -/
theorem routesOnly_eoi {s : State} {c : Nat} {e : StackEntry} {l : List StackEntry} (h : stackOf s c = e :: l) :
    RoutesOnly (setStack s c l) (eoi s c) := by
  unfold eoi
  rw [h]
  exact (routesOnly_ertCycle _).trans (routesOnly_arrive _ c)

/-- The write that ends an interrupt pops the stack of its context and leaves memory alone. -/
theorem ctlCmd_eoi {s : State} {r : Req} {off c : Nat} {v : Word} {g : Reg} {e : StackEntry} {l : List StackEntry}
    (h : Reaches s r off g) (write : regWrite s r off v g = eoi s c) (aud : g.isAud = false) (dbg : g.isDbg = false)
    (top : stackOf s c = e :: l) : ∃ t, ctlCmd s r off v = .next t ∧ stackOf t c = l ∧ t.mem = s.mem := by
  have routes := routesOnly_eoi top
  exact ⟨_, ctlCmd_leaves h write routes.bus routes.fcr routes.chan aud dbg,
    (routes.stackOf c).trans (stackOf_setStack_self s c l), routes.mem⟩

end Sys2Proof.Machine

namespace Sys2Proof.Proofs
open Sys2Proof.Machine

/-- Settles O43: what is chosen runs at the lowest priority of the contexts that the source may go to. -/
theorem leastBusyChosen : Obligations.LeastBusyChosen := by
  unfold Obligations.LeastBusyChosen
  intro s used n c chosen
  obtain ⟨choice, lowest⟩ := chooseCtx_eq_some chosen
  obtain ⟨below, can, unused⟩ := mem_choices.mp choice
  exact ⟨below, can, unused, fun d b e u => lowest d (mem_choices.mpr ⟨b, e, u⟩)⟩

/-- Settles O39: an event that no credit holds back is discarded or sets its bit by its innings alone. -/
theorem staleEventDiscarded : Obligations.StaleEventDiscarded := by
  unfold Obligations.StaleEventDiscarded
  have whole (i : BitVec 8) : (BitVec.ofNat 8 i.toNat).toNat = i.toNat := by simp
  refine ⟨?stale, ?current, ?unraised⟩
  case stale =>
    intro s n i k calm flows stale
    by_cases block : blockSource n = true
    · rw [exec_eventArrival i k block, flows.raiseFor_stale (by rwa [whole])]
      exact calm.act rfl rfl
    · exact (congrArg (act s) (if_neg block)).trans (calm.act rfl rfl)
  case current =>
    intro s n i k calm flows current used block
    rw [exec_eventArrival i k block, flows.raiseFor used (by rwa [whole])]
    exact calm.act rfl rfl
  case unraised =>
    intro s n i k calm none
    by_cases block : blockSource n = true
    · have reserved : reservedSource n = true := by simpa [block] using none
      rw [exec_eventArrival i k block, Machine.raiseFor, sendEvent_reserved reserved]
      exact calm.act rfl rfl
    · exact (congrArg (act s) (if_neg block)).trans (calm.act rfl rfl)

/-- Settles O40: a write in range is one event of the source of its port and data. -/
theorem msixOutOfRangeDropped : Obligations.MsixOutOfRangeDropped := by
  unfold Obligations.MsixOutOfRangeDropped
  refine ⟨fun s port data calm out => ?_, fun s port data calm flows inside => ?_⟩
  · change act s (msix s port data) = _
    rw [msix_dropped port out]
    exact calm.act rfl rfl
  · change act s (msix s port data) = _
    rw [flows.msix port inside]
    exact calm.act rfl rfl

/-- Settles O41: candidates are unmasked by the definition of selectable, and the loop of a write to ERT_PENDk is a mask over
the pending bits. -/
theorem pendingWrites : Obligations.PendingWrites := by
  unfold Obligations.PendingWrites
  refine ⟨?gathers, ?never, ?clears⟩
  case gathers =>
    intro s n flows used inside
    rw [flows.raise used]
    exact ⟨by rw [bitOf_setPend s inside, if_pos rfl], rfl⟩
  case never =>
    intro s n masked candidate
    have open' := not_masked_of_selectable (selectable_of_mem_candidates candidate)
    rw [masked] at open'
    cases open'
  case clears =>
    intro s r k v h
    refine ⟨_, ctlCmd_leaves h (pendClr_eq s k v) rfl rfl rfl rfl rfl, fun n => ?_⟩
    have word : (64 * k.val ≤ n ∧ n < 64 * k.val + 64) ↔ n / 64 = k.val := by omega
    rw [bitOf_setBits_word _ _ _ _ (by omega)]
    by_cases here : n / 64 = k.val
    · have place : n - 64 * k.val = n % 64 := by omega
      have back : 64 * k.val + n % 64 = n := by omega
      obtain ⟨low, high⟩ := word.mpr here
      simp only [low, high, place, back, pendClearable, here, true_and, decide_true, Bool.true_and]
      cases bitOf v (n % 64) <;> cases isLevel s n <;> cases inSlot s n <;> cases inService s n <;> simp
    · rw [if_neg fun ⟨low, high, _⟩ => here (word.mp ⟨low, high⟩)]
      simp [here]

/-- Settles O42: a command on a ball or a slot is one law of the router; a register write leaves what its register does, and
the mask's and the end of interrupt's only route after it. -/
theorem eventRouterCommands : Obligations.EventRouterCommands := by
  unfold Obligations.EventRouterCommands
  refine ⟨?levelBall, ?edgeBall, ?selection, ?arrives, ?withdraws, ?masks, ?unmasks, ?raises, ?source, ?badSource, ?ownEoi,
    ?underflow, ?eoic⟩
  case levelBall =>
    intro s n level held sampled calm long isLev
    rw [exec_evtBallChange level sampled long, ballAccept, isLev]
    exact calm.act rfl rfl
  case edgeBall =>
    intro s n level held sampled calm long edge changed active
    rw [exec_evtBallChange level sampled long, ballAccept_edge edge changed active]
    exact calm.act rfl rfl
  case selection => exact fun s calm => (routesOnly_ertCycle s).act calm
  case arrives =>
    intro s c d p k calm credit held placed on
    rw [← arrive_some credit held placed on]
    exact (routesOnly_arrive s c).act calm
  case withdraws =>
    intro s c d calm held due edge
    refine ⟨withdraw s c, ?_, slotAt_withdraw_self held, ?_⟩
    · exact (congrArg (act s) (if_pos due)).trans ((routesOnly_withdraw s c).act calm)
    · rw [withdraw_some held, edge]
      rfl
  case masks =>
    intro s r k v h
    have routes := routesOnly_maskSet s k v
    refine ⟨maskSet s k v, ctlCmd_leaves h rfl routes.bus routes.fcr routes.chan rfl rfl, routes.mask, ?_⟩
    intro c d below held word bit
    rw [slotAt_maskSet s k v below, held, maskedSlot, if_pos ⟨word, bit⟩]
    exact ⟨fun young => if_neg (Nat.not_le.mpr young), fun old => if_pos old⟩
  case unmasks => exact fun s r k v h => ctlCmd_leaves h rfl rfl rfl rfl rfl rfl
  case raises =>
    intro s r v h
    refine ⟨_, ctlCmd_leaves h (swRaise_eq s v) rfl rfl rfl rfl rfl, fun n => ?_⟩
    rw [bitOf_setBits_word _ _ _ _ (by decide)]
    by_cases low : 128 ≤ n <;> by_cases high : n < 192 <;> cases bitOf v (n - 128) <;> simp [low, high]
  case source =>
    intro s r n v h low
    have held : decide (0xE0 ≤ fld v 47 40) = false := decide_eq_false (Nat.not_le.mpr low)
    have write : regWrite s r (0x102000 + 8 * n.val) v (.ertSrc n) = setSrc s n v := by
      rw [regWrite, held]
      rfl
    exact ctlCmd_leaves h write rfl rfl rfl rfl rfl
  case badSource =>
    intro s r n v h high
    have write : regWrite s r (0x102000 + 8 * n.val) v (.ertSrc n) = accessCard s r 0x0E (0x102000 + 8 * n.val) := by
      rw [regWrite, decide_eq_true high]
      rfl
    change ctlCmd s r _ v = _
    rw [ctlCmd_reaches s r _ v _ h (by rw [write, accessCard_waitCtl]; exact h.issues.noneWait), writeDone_of h rfl rfl, write]
    rfl
  case ownEoi => exact fun s c e l h top => ctlCmd_eoi h rfl rfl rfl top
  case underflow => exact fun s c h empty => ctlCmd_leaves h (eoi_empty empty) rfl rfl rfl rfl rfl
  case eoic => exact fun s r c e l h top => ctlCmd_eoi h rfl rfl rfl top

end Sys2Proof.Proofs
end

section
/-! PROOFS. Messages of the fabric (12): what the channel's writes and reports keep, descriptors read back, the ends of SENDs,
synchronisation. -/
namespace Sys2Proof.Machine

/-! ## Stores of agents (R161, R167, R326) -/

theorem cachesOnly_drainLines (s : State) (a n : Nat) : CachesOnly s (drainLines s a n) :=
  .foldl (fun t _ => .ite (.refl t) (cachesOnly_setCaches t _)) _ s

theorem cachesOnly_unpoison (s : State) (a n : Nat) : CachesOnly s (unpoison s a n) := cachesOnly_setCaches s _

/-- A store inside memory writes its bytes; around it only the caches change. -/
theorem agentStoreIn_inside {s : State} (k : BitVec 2) (i : BitVec 8) {a : Nat} {l : List Byte}
    (inside : s.inMemory a l.length = true) :
    ∃ t, CachesOnly s t ∧ CachesOnly (t.storeIn k a l) (agentStoreIn s k i a l) := by
  refine ⟨drainLines s a l.length, cachesOnly_drainLines s a _, ?_⟩
  have inserts (t : State) (ln : Nat) : CachesOnly t (l3Insert (dropOthers t 99 ln) ln i true) :=
    (cachesOnly_setCaches t _).trans (cachesOnly_l3Insert _ ln i true)
  rw [agentStoreIn, inside]
  exact (cachesOnly_unpoison _ a _).trans (.foldl inserts _ _)

/-- Where an address holds nothing, nothing is written. -/
theorem agentStoreIn_outside {s : State} (k : BitVec 2) (i : BitVec 8) {a : Nat} {l : List Byte}
    (outside : s.inMemory a l.length = false) : agentStoreIn s k i a l = s := by
  simp [agentStoreIn, outside]

/-- A store keeps what neither the caches, nor memory, nor mirror records change. -/
theorem agentStoreIn_keeps {α : Type} (g : State → α) (caches : ∀ s k n, g { s with caches := k, free := n } = g s)
    (mem : ∀ s m, g { s with mem := m } = g s) (records : ∀ s l, g (sendRecords s l) = g s)
    (s : State) (k : BitVec 2) (i : BitVec 8) (a : Nat) (l : List Byte) : g (agentStoreIn s k i a l) = g s := by
  have only {t u : State} (h : CachesOnly t u) : g u = g t := by
    obtain ⟨_, _, rfl⟩ := h
    exact caches ..
  cases inside : s.inMemory a l.length with
  | false => rw [agentStoreIn_outside k i inside]
  | true =>
    obtain ⟨t, before, after⟩ := agentStoreIn_inside k i inside
    rw [only after, State.storeIn, mirrorWrites, records, mem, only before]

@[simp] theorem agentStoreIn_fcr (s : State) (k : BitVec 2) (i : BitVec 8) (a : Nat) (l : List Byte) :
    (agentStoreIn s k i a l).fcr = s.fcr :=
  agentStoreIn_keeps (·.fcr) (fun _ _ _ => rfl) (fun _ _ => rfl) sendRecords_fcr s k i a l
@[simp] theorem agentStoreIn_chan (s : State) (k : BitVec 2) (i : BitVec 8) (a : Nat) (l : List Byte) :
    (agentStoreIn s k i a l).chan = s.chan :=
  agentStoreIn_keeps (·.chan) (fun _ _ _ => rfl) (fun _ _ => rfl) sendRecords_chan s k i a l
@[simp] theorem sendRecords_memc (s : State) (l : List MirRec) : (sendRecords s l).memc = s.memc := by
  unfold sendRecords; split <;> rfl
@[simp] theorem agentStoreIn_memc (s : State) (k : BitVec 2) (i : BitVec 8) (a : Nat) (l : List Byte) :
    (agentStoreIn s k i a l).memc = s.memc :=
  agentStoreIn_keeps (·.memc) (fun _ _ _ => rfl) (fun _ _ => rfl) sendRecords_memc s k i a l

theorem agentStoreIn_mem (s : State) (k : BitVec 2) (i : BitVec 8) (a : Nat) (l : List Byte) :
    (agentStoreIn s k i a l).mem = if s.inMemory a l.length then Memory.writes s.mem a l else s.mem := by
  cases inside : s.inMemory a l.length with
  | false => rw [agentStoreIn_outside k i inside]; rfl
  | true =>
    obtain ⟨t, before, after⟩ := agentStoreIn_inside k i inside
    rw [after.mem, State.storeIn_mem, before.mem]
    rfl

theorem State.inMemory_congr {s t : State} (same : t.memc = s.memc) (a n : Nat) : t.inMemory a n = s.inMemory a n := by
  unfold State.inMemory State.usable
  rw [same]

/-! ## What the channel's writes and reports keep -/

/-- What every write, report and count of the channel keeps, whatever it does to the operations: the layout of memory, of
the descriptors and of the engines, the pair's state; units that do not wait go on without waiting, and no pending bit is
lost. -/
structure Reports (s t : State) : Prop where
  canonical : MemoryCanonical s → MemoryCanonical t
  memc : t.memc = s.memc
  sdtbase : t.chan.sdtbase = s.chan.sdtbase
  insts : t.insts = s.insts
  dupSt : t.dup.st = s.dup.st
  flows : Flows s → Flows t
  pend : ∀ n, bitOf s.ert.pend n = true → bitOf t.ert.pend n = true

/-- The writes and reports that leave the accepted SENDs and the answers in the ports alone. -/
structure Writes (s t : State) : Prop extends Reports s t where
  sends : t.chan.sends = s.chan.sends
  out : ∀ n, (t.port n).out = (s.port n).out

theorem Flows.of_bus {s t : State} (flows : Flows s) (same : t.bus = s.bus) : Flows t where
  credits := same ▸ flows.credits
  noCards := same ▸ flows.noCards
  noEvents := same ▸ flows.noEvents

/-- What changes neither memory, nor the layout, nor an event, nor a credit. -/
theorem Reports.of_same {s t : State} (mem : t.mem = s.mem) (memc : t.memc = s.memc)
    (sdtbase : t.chan.sdtbase = s.chan.sdtbase) (insts : t.insts = s.insts) (dupSt : t.dup.st = s.dup.st)
    (bus : t.bus = s.bus) (ert : t.ert = s.ert) : Reports s t where
  canonical h := by rwa [MemoryCanonical, mem]
  memc := memc
  sdtbase := sdtbase
  insts := insts
  dupSt := dupSt
  flows h := h.of_bus bus
  pend n h := by rwa [ert]

theorem Reports.refl (s : State) : Reports s s := .of_same rfl rfl rfl rfl rfl rfl rfl

theorem Reports.trans {s t u : State} (first : Reports s t) (second : Reports t u) : Reports s u where
  canonical := second.canonical ∘ first.canonical
  memc := second.memc.trans first.memc
  sdtbase := second.sdtbase.trans first.sdtbase
  insts := second.insts.trans first.insts
  dupSt := second.dupSt.trans first.dupSt
  flows := second.flows ∘ first.flows
  pend n := second.pend n ∘ first.pend n

theorem Reports.ite {s t u : State} {p : Prop} [Decidable p] (yes : Reports s t) (no : Reports s u) :
    Reports s (if p then t else u) := by
  split
  · exact yes
  · exact no

theorem Reports.foldl {α : Type} {f : State → α → State} (step : ∀ t a, Reports t (f t a)) (l : List α) (s : State) :
    Reports s (l.foldl f s) :=
  List.foldlRecOn l f (motive := Reports s) (refl s) fun _ before a _ => before.trans (step _ a)

theorem Reports.inMemory {s t : State} (h : Reports s t) (a n : Nat) : t.inMemory a n = s.inMemory a n :=
  State.inMemory_congr h.memc a n

theorem Reports.sdAddr {s t : State} (h : Reports s t) (sub : Nat) : sdAddr t sub = sdAddr s sub := by
  rw [Machine.sdAddr, h.sdtbase]
  rfl

theorem Reports.inningsOf {s t : State} (h : Reports s t) (i : Nat) : t.inningsOf i = s.inningsOf i := by
  unfold State.inningsOf State.inst
  rw [h.insts]

theorem Reports.mirroring {s t : State} (h : Reports s t) : mirroring t = mirroring s := by
  unfold Machine.mirroring
  rw [h.dupSt]

namespace Writes

theorem of_same {s t : State} (same : Reports s t) (sends : t.chan.sends = s.chan.sends) (ports : t.ports = s.ports) :
    Writes s t :=
  { same with sends := sends, out := fun n => by rw [State.port, ports]; rfl }

theorem refl (s : State) : Writes s s := of_same (.refl s) rfl rfl

theorem trans {s t u : State} (first : Writes s t) (second : Writes t u) : Writes s u :=
  { first.toReports.trans second.toReports with
    sends := second.sends.trans first.sends
    out := fun n => (second.out n).trans (first.out n) }

theorem ite {s t u : State} {p : Prop} [Decidable p] (yes : Writes s t) (no : Writes s u) :
    Writes s (if p then t else u) := by
  split
  · exact yes
  · exact no

end Writes

theorem writes_sendRecords (s : State) (l : List MirRec) : Writes s (sendRecords s l) := by
  unfold sendRecords
  split
  · refine ⟨.of_same rfl rfl rfl rfl rfl rfl rfl, rfl, fun n => ?_⟩
    change ((s.setPort 4 { s.port 4 with mir := (s.port 4).mir ++ l }).port n).out = _
    by_cases m : n = 4
    · rw [m, State.port_setPort]
    · rw [State.port_setPort_other _ _ _ _ m]
  · exact .refl s

theorem writes_agentStoreIn (s : State) (k : BitVec 2) (i : BitVec 8) (a : Nat) (l : List Byte) :
    Writes s (agentStoreIn s k i a l) where
  canonical h := by
    rw [MemoryCanonical, agentStoreIn_mem]
    split
    · exact Memory.wf_writes l _ _ h
    · exact h
  memc := agentStoreIn_memc ..
  sdtbase := by rw [agentStoreIn_chan]
  insts := agentStoreIn_keeps (·.insts) (fun _ _ _ => rfl) (fun _ _ => rfl) (fun t l => (writes_sendRecords t l).insts) ..
  dupSt := agentStoreIn_keeps (·.dup.st) (fun _ _ _ => rfl) (fun _ _ => rfl) (fun t l => (writes_sendRecords t l).dupSt) ..
  flows h := h.of_bus (agentStoreIn_keeps (·.bus) (fun _ _ _ => rfl) (fun _ _ => rfl)
    (fun t l => by unfold sendRecords; split <;> rfl) ..)
  pend n h := by
    rwa [agentStoreIn_keeps (·.ert) (fun _ _ _ => rfl) (fun _ _ => rfl) (fun t l => by unfold sendRecords; split <;> rfl)]
  sends := by rw [agentStoreIn_chan]
  out n := agentStoreIn_keeps (fun t => (t.port n).out) (fun _ _ _ => rfl) (fun _ _ => rfl)
    (fun t l => (writes_sendRecords t l).out n) ..

theorem writes_agentStoreFor (s : State) (i : BitVec 8) (k : BitVec 12) (a : Nat) (l : List Byte) :
    Writes s (agentStoreFor s i k a l) :=
  .ite (writes_agentStoreIn ..) (.refl s)

theorem writes_setSd (s : State) (sub i : Nat) (v : Word) : Writes s (setSd s sub i v) := writes_agentStoreIn ..

theorem bitOf_setBit_true {n : Nat} (w : BitVec n) (i j : Nat) (h : bitOf w j = true) : bitOf (setBit w i true) j = true := by
  rw [setBit, if_pos rfl, bitOf, BitVec.getLsbD_or, show w.getLsbD j = true from h, Bool.true_or]

theorem Flows.sendEvent_bus {s : State} (flows : Flows s) (e : EventMsg) : (Machine.sendEvent s e).bus = s.bus := by
  unfold Machine.sendEvent eventLands
  rw [flows.eventWaits]
  split
  · rfl
  · rw [if_neg Bool.false_ne_true]
    split <;> rfl

theorem Flows.sendCard_bus {s : State} (flows : Flows s) (c : CardIn) : (sendCard s c).bus = s.bus := by
  rw [sendCard_arrives s c (flows.noCredit ..) flows.noCards]

theorem writes_sendEvent (s : State) (e : EventMsg) : Writes s (sendEvent s e) where
  canonical h := by rwa [MemoryCanonical, sendEvent_mem]
  memc := sendEvent_memc ..
  sdtbase := by rw [sendEvent_chan]
  insts := sendEvent_insts ..
  dupSt := by rw [sendEvent_dup]
  flows h := h.of_bus (h.sendEvent_bus e)
  pend n h := by
    unfold sendEvent eventLands
    split
    · exact h
    split
    · exact h
    split
    · exact h
    · exact bitOf_setBit_true _ _ _ h
  sends := by rw [sendEvent_chan]
  out n := by rw [sendEvent_port]

theorem writes_raise (s : State) (n : Nat) : Writes s (raise s n) := writes_sendEvent ..

theorem writes_sendCard (s : State) (c : CardIn) : Writes s (sendCard s c) where
  canonical h := by rwa [MemoryCanonical, sendCard_mem]
  memc := sendCard_memc ..
  sdtbase := by rw [sendCard_chan]
  insts := sendCard_insts ..
  dupSt := by rw [sendCard_dup]
  flows h := h.of_bus (h.sendCard_bus c)
  pend n h := by rwa [sendCard_ert]
  sends := by rw [sendCard_chan]
  out n := by rw [sendCard_port]

theorem writes_card (s : State) (a b c d e : Nat) : Writes s (card s a b c d e) := writes_sendCard ..

/-- A change of the channel's own tables alone, the accepted SENDs apart. -/
theorem writes_setChan (s : State) (c : Chan) (sdtbase : c.sdtbase = s.chan.sdtbase) (sends : c.sends = s.chan.sends) :
    Writes s { s with chan := c } :=
  .of_same (.of_same rfl rfl sdtbase rfl rfl rfl rfl) sends rfl

theorem writes_setJour (s : State) (i : Nat) (x : Journal) : Writes s (s.setJour i x) := writes_setChan s _ rfl rfl

/-- A completion group counts a completion and raises its source (R252). -/
theorem writes_countGroup (s : State) (g : Nat) :
    Writes s (raise { s with chan := { s.chan with cgcnt := s.chan.cgcnt.set g (s.chan.cgcnt.get g 0#32 + 1) } } (768 + g)) :=
  (writes_setChan s _ (by rfl) (by rfl)).trans (writes_raise ..)

theorem writes_writeRec (s : State) (sub : Nat) (r : Rec) : Writes s (writeRec s sub r) := by
  have stored (w x : List Byte) : Writes s
      (agentStoreFor (agentStoreFor s r.inst r.innings (r.opb + 72) w) r.inst r.innings (r.opb + 64) x) :=
    (writes_agentStoreFor s ..).trans (writes_agentStoreFor ..)
  unfold writeRec
  dsimp only
  split
  · exact (stored _ _).trans (writes_countGroup _ _)
  · exact stored ..

theorem writes_ringReports (s : State) (i sub before : Nat) : Writes s (ringReports s i sub before) := by
  unfold ringReports
  split
  · exact .refl s
  · have passed {p : Prop} [Decidable p] : Writes s (if p then raise s 314 else s) := .ite (writes_raise ..) (.refl s)
    exact .ite (passed.trans ((writes_setJour ..).trans (writes_card ..))) passed

theorem writes_journal (s : State) (e : JEntry) : Writes s (journal s e).1 := by
  unfold journal
  split
  · exact .refl s
  · exact (writes_agentStoreIn s ..).trans ((writes_setJour ..).trans ((writes_sendRecords ..).trans (writes_ringReports ..)))

theorem writes_journalUpdate (s : State) (i idx st status : Nat) (b : Bool) : Writes s (journalUpdate s i idx st status b) :=
  (writes_agentStoreIn s ..).trans (writes_agentStoreIn ..)

/-! ## Descriptors read back (R249) -/

theorem readWord_inside {s : State} {a : Nat} (inside : s.inMemory a 8 = true) :
    readWord s a = w64 (leNat (Memory.bytes s.mem a 8)) := by
  rw [readWord, readBytes, if_pos inside]

/-- A word inside memory is read as the channel wrote it. -/
theorem readWord_agentStoreIn_self {s : State} (k : BitVec 2) (i : BitVec 8) {a : Nat} (v : Word)
    (canonical : MemoryCanonical s) (inside : s.inMemory a 8 = true) :
    readWord (agentStoreIn s k i a (leBytes 8 v.toNat)) a = v := by
  have kept := (writes_agentStoreIn s k i a (leBytes 8 v.toNat)).toReports.inMemory a 8
  have bytes := Memory.bytes_writes (leBytes 8 v.toNat) s.mem a canonical
  rw [leBytes_length] at bytes
  rw [readWord_inside (kept.trans inside), agentStoreIn_mem, leBytes_length, if_pos inside, bytes, leNat_leBytes,
    Nat.mod_eq_of_lt v.isLt, w64, BitVec.ofNat_toNat, BitVec.setWidth_eq]

/-- A store leaves every word that it does not touch. -/
theorem readWord_agentStoreIn_other {s : State} (k : BitVec 2) (i : BitVec 8) {a b : Nat} (l : List Byte)
    (inside : s.inMemory b 8 = true) (apart : b + 8 ≤ a ∨ a + l.length ≤ b) :
    readWord (agentStoreIn s k i a l) b = readWord s b := by
  have kept := (writes_agentStoreIn s k i a l).toReports.inMemory b 8
  rw [readWord_inside (kept.trans inside), readWord_inside inside, agentStoreIn_mem]
  split
  · rw [Memory.bytes_congr _ s.mem b 8 fun x low high => Memory.read_writes_other l _ a x (by omega)]
  · rfl

/-- The descriptor of a subchannel lies in memory. -/
def SdInside (s : State) (sub : Nat) : Prop := s.inMemory (sdAddr s sub) 64 = true

theorem SdInside.of_subReach {s : State} {sub : Nat} (h : subReach s sub = true) : SdInside s sub := by
  unfold subReach at h
  simp only [Bool.and_eq_true] at h
  obtain ⟨⟨inside, _⟩, _⟩ := h
  exact inside

theorem SdInside.word {s : State} {sub i : Nat} (h : SdInside s sub) (field : i < 8) :
    s.inMemory (sdAddr s sub + 8 * i) 8 = true := by
  simp only [SdInside, State.inMemory, decide_eq_true_eq] at h ⊢
  omega

theorem SdInside.reports {s t : State} {sub : Nat} (h : SdInside s sub) (kept : Reports s t) : SdInside t sub := by
  rw [SdInside, kept.sdAddr, kept.inMemory]
  exact h

theorem sdWord_setSd_self {s : State} {sub i : Nat} (v : Word) (canonical : MemoryCanonical s) (inside : SdInside s sub)
    (field : i < 8) : sdWord (setSd s sub i v) sub i = v := by
  rw [sdWord, (writes_setSd s sub i v).sdAddr]
  exact readWord_agentStoreIn_self 2 _ v canonical (inside.word field)

theorem sdWord_setSd_other {s : State} {sub i j : Nat} (v : Word) (inside : SdInside s sub) (field : j < 8) (h : j ≠ i) :
    sdWord (setSd s sub i v) sub j = sdWord s sub j := by
  rw [sdWord, (writes_setSd s sub i v).sdAddr]
  exact readWord_agentStoreIn_other 2 _ _ (inside.word field) (by rw [leBytes_length]; omega)

/-- A field that has been set holds what was put there. -/
theorem fld_setFld {n : Nat} (w : BitVec n) {hi lo v : Nat} (order : lo ≤ hi) (inside : hi < n)
    (fits : v < 2 ^ (hi + 1 - lo)) :
    fld (setFld w hi lo v) hi lo = v := by
  refine Nat.eq_of_testBit_eq fun i => ?_
  have high (h : ¬i < hi + 1 - lo) : v.testBit i = false :=
    Nat.testBit_lt_two_pow (Nat.lt_of_lt_of_le fits (Nat.pow_le_pow_right (by decide) (Nat.le_of_not_lt h)))
  have bits : (setFld w hi lo v).toNat.testBit (lo + i) = (setFld w hi lo v).getLsbD (lo + i) := rfl
  rw [fld, Nat.testBit_mod_two_pow, Nat.testBit_shiftRight, bits]
  by_cases low : i < hi + 1 - lo
  · have place : lo + i < n := by omega
    simp [setFld, BitVec.getLsbD_ofNat, place, low, Nat.testBit_shiftLeft, Nat.testBit_two_pow_sub_one,
      -BitVec.getLsbD_eq_getElem]
  · simp [low, high low]

theorem sdState_setSdState {s : State} {sub st : Nat} (canonical : MemoryCanonical s) (inside : SdInside s sub)
    (small : st < 8) : sdState (setSdState s sub st) sub = st := by
  rw [sdState, setSdState, sdWord_setSd_self _ canonical inside (by decide), fld_setFld _ (by decide) (by decide) small]

/-! ## Channel commands -/

theorem actSub_reach {s : State} {sub : Nat} (reach : subReach s sub = true) (t : State) : actSub s sub t = act s t := by
  rw [actSub, reach]
  rfl

/-- The SEND that a number names belongs to the subchannel and carries the number. -/
theorem findSend_key {s : State} {sub : Nat} {seq : BitVec 48} {o : SendOp} (h : findSend s sub seq = some o) :
    o.s = sub ∧ o.seq = seq := by
  simpa using List.find?_some h

/-! ## Scheduling and single SENDs -/

/-- A class that joins the second tier changes virtual times alone (R315). -/
theorem chanJoin_eq (s : State) (i k : Nat) : ∃ vt, chanJoin s i k = { s with chan := { s.chan with vt := vt } } := by
  unfold chanJoin vtRaise
  dsimp only
  split <;> split <;> exact ⟨_, rfl⟩

theorem writes_chanJoin (s : State) (i k : Nat) : Writes s (chanJoin s i k) := by
  obtain ⟨vt, join⟩ := chanJoin_eq s i k
  rw [join]
  exact writes_setChan s _ rfl rfl

/-- A change of one SEND leaves nothing more to do. -/
theorem quiet_setSend {s : State} (o : SendOp) (h : quiet s = true) : quiet (setSend s o) = true :=
  quiet_of' s _ h rfl rfl List.isEmpty_map

theorem quiet_chanJoin {s : State} (i k : Nat) (h : quiet s = true) : quiet (chanJoin s i k) = true := by
  obtain ⟨vt, join⟩ := chanJoin_eq s i k
  rw [join]
  exact h

theorem reports_setSend (s : State) (o : SendOp) : Reports s (setSend s o) := .of_same rfl rfl rfl rfl rfl rfl rfl

theorem reports_finishSend (s : State) (o : SendOp) : Reports s (finishSend s o) :=
  (writes_writeRec s ..).toReports.trans (.of_same rfl rfl rfl rfl rfl rfl rfl)

theorem reports_endSend (s : State) (o : SendOp) (jst status reason : Nat) (b : Bool) :
    Reports s (endSend s o jst status reason b) :=
  (writes_journalUpdate s ..).toReports.trans (.ite (reports_setSend ..) (reports_finishSend ..))

/-- The completion of a SEND frees its place (R254). -/
theorem finishSend_sends (s : State) (o : SendOp) : (finishSend s o).chan.sends =
    s.chan.sends.filter fun k => !(decide (k.s = o.s) && decide (k.seq = o.seq)) :=
  congrArg (List.filter _) (writes_writeRec s ..).sends

/-- On a module that does not mirror, a SEND that ends is accepted no more. -/
theorem endSend_sends_alone {s : State} (o : SendOp) (jst status reason : Nat) (b : Bool) (alone : mirroring s = false) :
    (endSend s o jst status reason b).chan.sends =
      s.chan.sends.filter fun k => !(decide (k.s = o.s) && decide (k.seq = o.seq)) := by
  have updated := writes_journalUpdate s (sdInst s o.s) o.jindex jst status b
  have off : mirrorOn (journalUpdate s (sdInst s o.s) o.jindex jst status b) o.s = false := by
    rw [mirrorOn, updated.mirroring, alone, Bool.and_false]
  rw [endSend, off, if_neg Bool.false_ne_true, finishSend_sends, updated.sends]

/-- After a SEND has ended every accepted SEND waits for the partner, or is an earlier one with another number. -/
theorem mem_endSend {s : State} {o k : SendOp} {jst status reason : Nat} {b : Bool}
    (h : k ∈ (endSend s o jst status reason b).chan.sends) :
    k.st = .heldBack ∨ (k ∈ s.chan.sends ∧ ¬(k.s = o.s ∧ k.seq = o.seq)) := by
  have updated := (writes_journalUpdate s (sdInst s o.s) o.jindex jst status b).sends
  unfold endSend at h
  dsimp only at h
  split at h
  · obtain ⟨j, listed, mapped⟩ := List.mem_map.mp h
    rw [updated] at listed
    split at mapped
    · exact .inl (mapped ▸ rfl)
    · rename_i other
      exact .inr (mapped ▸ ⟨listed, other⟩)
  · rw [finishSend_sends, List.mem_filter, updated] at h
    obtain ⟨listed, other⟩ := h
    exact .inr ⟨listed, fun ⟨sub, seq⟩ => by simp [sub, seq] at other⟩

/-- SENDs that end one after the other: what is left waits for the partner, or is none of them. -/
theorem mem_foldl_endSend {k : SendOp} {jst status reason : Nat} {b : Bool} (l : List SendOp) (s : State)
    (h : k ∈ (l.foldl (fun t o => endSend t o jst status reason b) s).chan.sends) :
    k.st = .heldBack ∨ (k ∈ s.chan.sends ∧ k ∉ l) := by
  induction l generalizing s with
  | nil => exact .inr ⟨h, List.not_mem_nil⟩
  | cons o l ih =>
    rw [List.foldl_cons] at h
    obtain held | ⟨listed, rest⟩ := ih _ h
    · exact .inl held
    · obtain held | ⟨before, other⟩ := mem_endSend listed
      · exact .inl held
      · have new : k ≠ o := fun same => other (same ▸ ⟨rfl, rfl⟩)
        exact .inr ⟨before, List.not_mem_cons_of_ne_of_not_mem new rest⟩

/-! ## DEFINITE_FAILURE (R261) -/

/-- What a definite failure reports before the other SENDs of its subchannel end. -/
def failed (s : State) (o : SendOp) (reason : Nat) : State :=
  raiseFor (card (endSend s o 2 2 reason false) 176 2 o.inst.toNat 0 o.s) 313 o.inst.toNat o.innings

/-- Source 313 is raised while the innings of the operation is current (R215). -/
theorem failed_pend {s : State} {o : SendOp} (reason : Nat) (flows : Flows s) (current : s.inningsOf o.inst.toNat = o.innings) :
    bitOf (failed s o reason).ert.pend 313 = true := by
  have reported := (reports_endSend s o 2 2 reason false).trans (writes_card _ 176 2 o.inst.toNat 0 o.s).toReports
  have whole : (BitVec.ofNat 8 o.inst.toNat).toNat = o.inst.toNat := by rw [BitVec.ofNat_toNat, BitVec.setWidth_eq]
  rw [failed, (reported.flows flows).raiseFor (by decide) (by rw [whole, reported.inningsOf, current]),
    bitOf_setPend _ (by decide), if_pos rfl]

/-- The subchannel stalls. -/
def stalled (s : State) (o : SendOp) (reason : Nat) : State := setSdState (failed s o reason) o.s 2

/-- Its other SENDs end. -/
theorem definiteFailure_eq (s : State) (o : SendOp) (reason : Nat) : definiteFailure s o reason =
    ((stalled s o reason).chan.sends.filter fun k => decide (k.s = o.s) && decide (k.st ≠ .heldBack)).foldl
      (fun t k => endSend t k 2 2 5 false) (stalled s o reason) := rfl

theorem reports_stalled (s : State) (o : SendOp) (reason : Nat) : Reports (failed s o reason) (stalled s o reason) :=
  (writes_setSd ..).toReports

theorem reports_definiteFailure (s : State) (o : SendOp) (reason : Nat) :
    Reports (failed s o reason) (definiteFailure s o reason) := by
  rw [definiteFailure_eq]
  exact (reports_stalled s o reason).trans (.foldl (fun t k => reports_endSend t k 2 2 5 false) _ _)

/-- No SEND of the subchannel is left but those that wait for the partner. -/
theorem definiteFailure_sends {s : State} {o k : SendOp} {reason : Nat}
    (h : k ∈ (definiteFailure s o reason).chan.sends) (same : k.s = o.s) : k.st = .heldBack := by
  rw [definiteFailure_eq] at h
  obtain held | ⟨listed, rest⟩ := mem_foldl_endSend _ _ h
  · exact held
  · refine Decidable.by_contra fun free => ?_
    exact rest (List.mem_filter.mpr ⟨listed, by simp [same, free]⟩)

/-- Such a failure as a command on a subchannel. -/
theorem act_definiteFailure {s : State} {o : SendOp} {sub : Nat} (reason : Nat) (live : s.live = true) (own : o.s = sub) :
    ∃ u, act s (definiteFailure s o reason) = .next (settle u) ∧
      (Flows s → s.inningsOf o.inst.toNat = o.innings → bitOf u.ert.pend 313 = true) ∧
      ∀ k ∈ u.chan.sends, k.s = sub → k.st = .heldBack :=
  ⟨_, act_live s _ live,
    fun flows current => (reports_definiteFailure s o reason).pend 313 (failed_pend reason flows current),
    fun _ listed same => definiteFailure_sends listed (same.trans own.symm)⟩

/-- A counted attempt that leaves another one queues the SEND again (R261). -/
theorem attemptFailed_again {s : State} {o : SendOp} (more : o.counted + 1 < limitOf s 31 24) :
    attemptFailed s o = setSend (chanJoin s o.inst.toNat o.cls.toNat)
      { o with st := .queued, counted := o.counted + 1, stay := false, left := 0 } :=
  if_neg (Nat.not_le.mpr more)

theorem attemptFailed_last {s : State} {o : SendOp} (last : limitOf s 31 24 ≤ o.counted + 1) :
    attemptFailed s o = definiteFailure s { o with counted := o.counted + 1 } 1 :=
  if_pos last

/-- A SEND that joins the queue again is all that such a command changes. -/
theorem act_requeue {s : State} (calm : Calm s) (i k : Nat) (o : SendOp) :
    act s (setSend (chanJoin s i k) o) = .next (setSend (chanJoin s i k) o) :=
  act_quiet s _ calm.live (quiet_setSend o (quiet_chanJoin i k calm.quiet))

/-! ## Messages received (R257, R259, R260) -/

theorem writes_setEarly (s : State) (l : List RxMsg) : Writes s { s with chan := { s.chan with early := l } } :=
  writes_setChan s _ rfl rfl

theorem writes_setRecvs (s : State) (l : List RecvOp) : Writes s { s with chan := { s.chan with recvs := l } } :=
  writes_setChan s _ rfl rfl

theorem writes_fillRecv (s : State) (o : RecvOp) (m : RxMsg) : Writes s (fillRecv s o m) := by
  unfold fillRecv
  exact (writes_agentStoreFor s ..).trans ((writes_setRecvs ..).trans ((writes_writeRec ..).trans
    ((writes_agentStoreIn ..).trans (writes_journalUpdate ..))))

theorem writes_advanceRx (n : Nat) (s : State) (sub : Nat) : Writes s (advanceRx n s sub) := by
  induction n generalizing s with
  | zero => exact .refl s
  | succ n ih =>
    have passed (v w : Word) : Writes s (setSd (setSd s sub 3 v) sub 4 w) := (writes_setSd ..).trans (writes_setSd ..)
    exact .ite ((passed _ _).trans (ih _)) (passed _ _)

theorem writes_deliverReady (n : Nat) (s : State) (sub : Nat) : Writes s (deliverReady n s sub) := by
  induction n generalizing s with
  | zero => exact .refl s
  | succ n ih =>
    unfold deliverReady
    split
    · exact (writes_setEarly s _).trans ((writes_fillRecv ..).trans ((writes_advanceRx ..).trans (ih _)))
    · exact .refl s

/-- A message whose OP_ID is recorded waits for its turn. -/
def waiting (s : State) (m : RxMsg) : State :=
  { recordOpid s m.s m.h.seq m.h.opid with
    chan := { (recordOpid s m.s m.h.seq m.h.opid).chan with
      early := (recordOpid s m.s m.h.seq m.h.opid).chan.early ++ [m] } }

/-- What a message that is received leaves before it is acknowledged: ahead of its turn its number is marked. -/
def noted (s : State) (m : RxMsg) : State :=
  if m.h.seq.toNat - rxExpect s m.s = 0 then waiting s m
  else setSd (waiting s m) m.s 4 (setBit (rxMap (waiting s m) m.s) (m.h.seq.toNat - rxExpect s m.s) true)

theorem receiveMsg_eq (s : State) (m : RxMsg) :
    receiveMsg s m = deliverReady 65 (queueOut (noted s m) m.port (.ack (answer m.h))) m.s := rfl

theorem writes_waiting (s : State) (m : RxMsg) : Writes s (waiting s m) := by
  have recorded : Writes s (recordOpid s m.s m.h.seq m.h.opid) := writes_agentStoreIn ..
  exact recorded.trans (writes_setEarly ..)

theorem writes_noted (s : State) (m : RxMsg) : Writes s (noted s m) :=
  .ite (writes_waiting s m) ((writes_waiting s m).trans (writes_setSd ..))

theorem queueOut_out (s : State) (n : Nat) (m : OutMsg) : ((queueOut s n m).port n).out = (s.port n).out ++ [m] := by
  rw [queueOut, State.port_setPort]

/-- A message that is received is acknowledged on its port, and no SEND changes. -/
theorem receiveMsg_out (s : State) (m : RxMsg) :
    ((receiveMsg s m).port m.port).out = (s.port m.port).out ++ [.ack (answer m.h)] := by
  rw [receiveMsg_eq, (writes_deliverReady ..).out, queueOut_out, (writes_noted s m).out]

theorem receiveMsg_sends (s : State) (m : RxMsg) : (receiveMsg s m).chan.sends = s.chan.sends := by
  rw [receiveMsg_eq, (writes_deliverReady ..).sends, queueOut_chan, (writes_noted s m).sends]

/-- A DATA message that is new, in turn, whole, and has a RECEIVE and an entry to go to is journalled and received. -/
theorem dataMsg_receives {s : State} (p : Nat) {h : MsgHdr} {l : List Byte} {o : RecvOp} {os : List RecvOp}
    (bound : sdState s h.dstSub.toNat ≠ 0) (remote : fromRemote s h = true) (turn : h.seq.toNat = rxExpect s h.dstSub.toNat)
    (new : bitOf (rxMap s h.dstSub.toNat) 0 = false) (none : ∀ m ∈ s.chan.early ++ s.chan.rxHeld, m.s ≠ h.dstSub.toNat)
    (open' : s.chan.quiesce = false) (crc : crc32c l = h.crc) (length : l.length = h.length.toNat)
    (recv : posted s h.dstSub.toNat = o :: os) (room : l.length ≤ o.capacity)
    (entry : ringFull s (sdInst s h.dstSub.toNat) = false) (alone : mirroring s = false) :
    ∃ t m, Writes s t ∧ m.port = p ∧ m.h = h ∧ dataMsg s p h l = receiveMsg t m := by
  have noEarly : (s.chan.early.any fun m => decide (m.s = h.dstSub.toNat) && decide (m.h.seq = h.seq)) = false :=
    List.any_eq_false.mpr fun m listed => by simp [none m (List.mem_append_left _ listed)]
  have noHeld : (s.chan.rxHeld.any fun m => decide (m.s = h.dstSub.toNat) && decide (m.h.seq = h.seq)) = false :=
    List.any_eq_false.mpr fun m listed => by simp [none m (List.mem_append_right _ listed)]
  have small : ¬o.capacity < h.length.toNat := Nat.not_lt.mpr (length ▸ room)
  have near : ¬rxExpect s h.dstSub.toNat + 64 ≤ rxExpect s h.dstSub.toNat := by omega
  have off (e : JEntry) : mirrorOn (journal s e).1 h.dstSub.toNat = false := by
    rw [mirrorOn, (writes_journal s e).mirroring, alone, Bool.and_false]
  unfold dataMsg
  simp only [bound, remote, turn, new, noEarly, noHeld, open', crc, length, recv, entry, small, near, off, Bool.false_and,
    Bool.not_true, Bool.false_eq_true, or_false, if_false, Nat.lt_irrefl, Nat.sub_self, and_false, ne_eq, not_true_eq_false]
  exact ⟨_, _, writes_journal s _, rfl, rfl, rfl⟩

/-! ## Synchronisation (R262, R263) -/

theorem reports_mbProgress (s : State) (n v : Nat) : Reports s (mbProgress s n v) := .of_same rfl rfl rfl rfl rfl rfl rfl

theorem reports_countResolved (s : State) : Reports s (countResolved s) := by
  have counted : Reports s { s with dup := { s.dup with resolved := s.dup.resolved + 1 } } :=
    .of_same rfl rfl rfl rfl rfl rfl rfl
  unfold countResolved
  split
  · exact .refl s
  · dsimp only
    split
    · exact counted
    · exact counted.trans (reports_mbProgress ..)

/-- A synchronisation message waits, or leaves on some port. The body is taken as a function, so that no check of this proof
evaluates the port, which is read from memory. -/
theorem sendSync_cases {P : State → Prop} {s : State} (sub : Nat) (m : OutMsg)
    (waits : P { s with chan := { s.chan with unsent := s.chan.unsent ++ [m] } }) (leaves : ∀ n, P (queueOut s n m)) :
    P (sendSync s sub m) := by
  generalize body : sendSync = f
  delta sendSync at body
  subst body
  dsimp -zeta -zetaHave only
  generalize firstPort s sub = port
  cases port with
  | none => exact waits
  | some n => exact leaves n

theorem reports_sendSync (s : State) (sub : Nat) (m : OutMsg) : Reports s (sendSync s sub m) :=
  sendSync_cases sub m (.of_same rfl rfl rfl rfl rfl rfl rfl) fun _ => .of_same rfl rfl rfl rfl rfl rfl rfl

theorem reports_ensureSend (s : State) (o : SendOp) : Reports s (ensureSend s o) :=
  .ite (.refl s) (.of_same rfl rfl rfl rfl rfl rfl rfl)

theorem reports_noteMatch (s : State) (sub : Nat) (opid : Word) (seq : BitVec 48) (idx : Nat) :
    Reports s (noteMatch s sub opid seq idx) :=
  .of_same rfl rfl rfl rfl rfl rfl rfl

theorem reports_resolveEntry (rx : Nat) (map : Word) (i sub : Nat) (s : State) (idx : Nat) :
    Reports s (resolveEntry rx map i sub s idx) := by
  have counted (st status : Nat) : Reports s (countResolved (journalUpdate s i idx st status true)) :=
    (writes_journalUpdate s ..).toReports.trans (reports_countResolved _)
  have listed (o : SendOp) : Reports s (ensureSend (countResolved s) o) :=
    (reports_countResolved s).trans (reports_ensureSend ..)
  unfold resolveEntry
  split
  · exact .refl s
  · dsimp only
    split
    · exact .ite (counted ..) ((counted ..).trans (reports_sendSync ..))
    · refine .ite (.ite ((listed _).trans (reports_endSend ..)) ?_) (.refl s)
      exact (listed _).trans ((writes_chanJoin ..).toReports.trans (reports_setSend ..))

theorem reports_noteResolved (i sub : Nat) (s : State) (idx : Nat) : Reports s (noteResolved i sub s idx) :=
  .ite (reports_noteMatch ..) (.refl s)

theorem reports_resolveUnknown (rx : Nat) (map : Word) (opids : List Word) (i sub : Nat) (s : State) (seq : Nat) :
    Reports s (resolveUnknown rx map opids i sub s seq) := by
  unfold resolveUnknown
  split
  · exact .refl s
  · refine (reports_countResolved s).trans ?_
    dsimp only
    split
    · exact (writes_setSd ..).toReports.trans (reports_noteMatch ..)
    · exact (writes_journal ..).toReports.trans ((writes_setSd ..).toReports.trans (reports_noteMatch ..))

/-- The entries and numbers of a subchannel resolved, before it becomes BOUND. -/
def resolved (s : State) (sub rx : Nat) (map : Word) (opids : List Word) : State :=
  let i := sdInst s sub
  let t := journalledTo s i sub
  let s := (ringEntries s i).foldl (resolveEntry rx map i sub) s
  let s := (ringEntries s i).foldl (noteResolved i sub) s
  ((List.range (rx + 64 - t)).map (· + t)).foldl (resolveUnknown rx map opids i sub) s

theorem synchronise_eq (s : State) (sub rx : Nat) (map : Word) (opids : List Word) :
    synchronise s sub rx map opids = setSdState (resolved s sub rx map opids) sub 1 := rfl

theorem reports_resolved (s : State) (sub rx : Nat) (map : Word) (opids : List Word) :
    Reports s (resolved s sub rx map opids) := by
  unfold resolved
  dsimp only
  exact (Reports.foldl (reports_resolveEntry _ _ _ _) _ s).trans
    ((Reports.foldl (reports_noteResolved _ _) _ _).trans (.foldl (reports_resolveUnknown _ _ _ _ _) _ _))

theorem quiet_setSd {s : State} (sub i : Nat) (v : Word) (h : quiet s = true) : quiet (setSd s sub i v) = true :=
  quiet_of s _ h (agentStoreIn_fcr ..) (agentStoreIn_chan ..)

theorem setSd_chan (s : State) (sub i : Nat) (v : Word) : (setSd s sub i v).chan = s.chan := agentStoreIn_chan ..

/-- RX_EXPECT after a number has passed (R249). -/
theorem rxExpect_setSd_self {s : State} {sub v : Nat} (canonical : MemoryCanonical s) (inside : SdInside s sub)
    (small : v < 2 ^ 48) : rxExpect (setSd s sub 3 (w64 v)) sub = v := by
  rw [rxExpect, sdWord_setSd_self _ canonical inside (by decide), fld, w64, BitVec.toNat_ofNat]
  omega

/-- What a skipped number in turn leaves, where nothing follows it: RX_EXPECT and RX_MAP have moved by one. -/
def passed (s : State) (sub : Nat) : State :=
  setSd (setSd s sub 3 (w64 ((rxExpect s sub + 1) % 2 ^ 48))) sub 4 ((rxMap s sub >>> 1) &&& ~~~1#64)

theorem passed_chan (s : State) (sub : Nat) : (passed s sub).chan = s.chan := by rw [passed, setSd_chan, setSd_chan]

/-- Where no number follows that has been received, RX_EXPECT moves by one. -/
theorem advanceRx_alone {s : State} {sub : Nat} (k : Nat) (map : rxMap s sub = 0) :
    advanceRx (k + 1) s sub = passed s sub := by
  have noNext : bitOf (rxMap s sub) 1 = false := by rw [map]; rfl
  simp only [advanceRx, noNext, Bool.false_and, Bool.false_eq_true, if_false, passed]

theorem earlyAt_none {s : State} (sub : Nat) (early : s.chan.early = []) : earlyAt s sub = none := by
  rw [earlyAt, early, List.find?_nil]

/-- Where no message is held, nothing is delivered. -/
theorem deliverReady_none {s : State} {sub : Nat} (k : Nat) (early : s.chan.early = []) :
    deliverReady (k + 1) s sub = s := by
  simp only [deliverReady, earlyAt_none sub early]

/-- A skipped number in turn delivers nothing where no message is held (R262). -/
theorem syncSkip_turn {s : State} {sub : Nat} (map : rxMap s sub = 0) (early : s.chan.early = []) :
    syncSkip s sub (rxExpect s sub) = passed s sub := by
  have turn : ¬(rxExpect s sub < rxExpect s sub ∨ rxExpect s sub + 64 ≤ rxExpect s sub) := by omega
  have noEarly : ¬(earlyAt s sub).isSome = true := by rw [earlyAt_none sub early]; decide
  have early' : (passed s sub).chan.early = [] := by rw [passed_chan, early]
  rw [syncSkip, if_neg turn, if_pos rfl, if_neg noEarly, advanceRx_alone 64 map, deliverReady_none 64 early']

theorem rxExpect_passed {s : State} {sub : Nat} (canonical : MemoryCanonical s) (inside : SdInside s sub) :
    rxExpect (passed s sub) sub = (rxExpect s sub + 1) % 2 ^ 48 := by
  have kept := (writes_setSd s sub 3 (w64 ((rxExpect s sub + 1) % 2 ^ 48))).toReports
  rw [passed, rxExpect, sdWord_setSd_other _ (inside.reports kept) (by decide) (by decide)]
  exact rxExpect_setSd_self canonical inside (Nat.mod_lt _ (by decide))

/-- A skipped number ahead of its turn is marked in RX_MAP. -/
theorem syncSkip_ahead {s : State} {sub d : Nat} (ahead : d ≠ 0) (near : d < 64) :
    syncSkip s sub (rxExpect s sub + d) = setSd s sub 4 (setBit (rxMap s sub) d true) := by
  have within : ¬(rxExpect s sub + d < rxExpect s sub ∨ rxExpect s sub + 64 ≤ rxExpect s sub + d) := by omega
  have notTurn : rxExpect s sub + d ≠ rxExpect s sub := by omega
  rw [syncSkip, if_neg within, if_neg notTurn, Nat.add_sub_cancel_left]

/-! ## The fabric's commands -/

theorem exec_dataMessage {s : State} {p : Fin 4} {h : MsgHdr} (l : List Byte) (up : (s.port p).isUp = true)
    (ours : forUs s h = true) (reach : subReach s h.dstSub.toNat = true) :
    exec (.dataMessage p h l) s = act s (dataMsg s p h l) := by
  have both : ((s.port p).isUp && forUs s h) = true := by rw [up, ours]; rfl
  exact (if_pos both).trans (actSub_reach reach _)

/-- A command of a message that is for this module and comes from its remote. -/
theorem fromRemote_command {s : State} {h : MsgHdr} (t : State) (ours : forUs s h = true) (remote : fromRemote s h = true)
    (reach : subReach s h.dstSub.toNat = true) :
    (if forUs s h && fromRemote s h then actSub s h.dstSub.toNat t else act s s) = act s t := by
  rw [ours, remote]
  exact actSub_reach reach t

theorem exec_ackMessage {s : State} {h : MsgHdr} {o : SendOp} (ours : forUs s h = true) (remote : fromRemote s h = true)
    (reach : subReach s h.dstSub.toNat = true) (found : findSend s h.dstSub.toNat h.seq = some o) (sent : o.st ≠ .heldBack) :
    exec (.ackMessage h) s = act s (endSend s o 1 1 0 false) := by
  refine (fromRemote_command _ ours remote reach).trans ?_
  rw [found]
  exact congrArg (act s) (if_neg sent)

theorem exec_nakMessage {s : State} {h : MsgHdr} {o : SendOp} (reason : NakReason) (ours : forUs s h = true)
    (remote : fromRemote s h = true) (reach : subReach s h.dstSub.toNat = true)
    (found : findSend s h.dstSub.toNat h.seq = some o) (sent : o.st = .onWire) :
    exec (.nakMessage h reason) s = act s (nakSend s o reason) := by
  refine (fromRemote_command _ ours remote reach).trans ?_
  rw [found]
  exact congrArg (act s) (if_pos sent)

theorem exec_syncReq {s : State} {p : Fin 4} {h : MsgHdr} (ours : forUs s h = true)
    (reach : subReach s h.dstSub.toNat = true) : exec (.syncReq p h) s =
      act s (if sdState s h.dstSub.toNat = 0 ∨ !fromRemote s h then nak s p h .refused
        else queueOut s p (.syncRsp (answer h) (BitVec.ofNat 48 (rxExpect s h.dstSub.toNat)) (rxMap s h.dstSub.toNat)
          (opidList s h.dstSub.toNat))) :=
  (if_pos ours).trans (actSub_reach reach _)

theorem exec_syncRsp {s : State} {h : MsgHdr} (rx : BitVec 48) (map : BitVec 64) (opids : List Word) (ours : forUs s h = true)
    (remote : fromRemote s h = true) (reach : subReach s h.dstSub.toNat = true) (syncing : sdState s h.dstSub.toNat = 3) :
    exec (.syncRsp h rx map opids) s = act s (synchronise s h.dstSub.toNat rx.toNat map opids) := by
  refine (fromRemote_command _ ours remote reach).trans ?_
  exact congrArg (act s) (if_pos syncing)

theorem exec_syncSkip {s : State} {h : MsgHdr} (ours : forUs s h = true) (remote : fromRemote s h = true)
    (reach : subReach s h.dstSub.toNat = true) (bound : sdState s h.dstSub.toNat ≠ 0) :
    exec (.syncSkip h) s = act s (syncSkip s h.dstSub.toNat h.seq.toNat) := by
  change execSyncSkip h s = _
  simp only [execSyncSkip, ours, remote, bound, ne_eq, not_false_eq_true, decide_true, Bool.and_self, if_true]
  exact actSub_reach reach _

theorem exec_e2eTimeout {s : State} {n : BitVec 16} {q : BitVec 48} {o : SendOp} (reach : subReach s n.toNat = true)
    (found : findSend s n.toNat q = some o) (sent : o.st = .onWire) (free : frozen s n.toNat = false) :
    exec (.e2eTimeout n q) s = act s (attemptFailed s o) := by
  refine (actSub_reach reach _).trans ?_
  rw [found]
  exact congrArg (act s) (if_pos ⟨sent, free⟩)

theorem exec_rnrRetryTimer {s : State} {n : BitVec 16} {q : BitVec 48} {o : SendOp} (reach : subReach s n.toNat = true)
    (found : findSend s n.toNat q = some o) (waits : o.st = .rnrWait) : exec (.rnrRetryTimer n q) s =
      act s (setSend (chanJoin s o.inst.toNat o.cls.toNat) { o with st := .queued, stay := true, left := 0 }) := by
  refine (actSub_reach reach _).trans ?_
  rw [found]
  exact congrArg (act s) (if_pos waits)

theorem exec_nopathTimeout {s : State} {n : BitVec 16} {q : BitVec 48} {o : SendOp} (reach : subReach s n.toNat = true)
    (found : findSend s n.toNat q = some o) (sent : o.st ≠ .heldBack) (noPort : upPorts s n.toNat = [])
    (free : frozen s n.toNat = false) : exec (.nopathTimeout n q) s = act s (definiteFailure s o 2) := by
  refine (actSub_reach reach _).trans ?_
  rw [found]
  exact congrArg (act s) (if_pos ⟨sent, noPort, free⟩)

theorem exec_syncTimeout {s : State} {n : BitVec 16} (reach : subReach s n.toNat = true) (syncing : sdState s n.toNat = 3) :
    exec (.syncTimeout n) s = act s (setSdState (dropReq s n.toNat) n.toNat 2) :=
  (actSub_reach reach _).trans (congrArg (act s) (if_pos syncing))

theorem reports_dropReq (s : State) (sub : Nat) : Reports s (dropReq s sub) := .of_same rfl rfl rfl rfl rfl rfl rfl

/-- A command that answers on a port answers exactly that. -/
theorem act_queueOut {s : State} (calm : Calm s) (n : Nat) (m : OutMsg) : act s (queueOut s n m) = .next (queueOut s n m) :=
  calm.act rfl rfl

end Sys2Proof.Machine

namespace Sys2Proof.Proofs
open Sys2Proof.Machine

/-- Settles O51: each message and timer is one operation of the channel; what ends SENDs is followed through the writes and
reports that keep the rest, and a state of a descriptor is read back from memory. The order of the checks (log entry 42) and
the rejoining of the second tier (log entry 23) are the model's choices. -/
theorem channelMessages : Obligations.ChannelMessages := by
  unfold Obligations.ChannelMessages
  refine ⟨?accepted, ?repeated, ?unbound, ?acked, ?naked, ?asked, ?askedUnbound, ?answered, ?skipped, ?timeout, ?retry,
    ?noPath, ?noAnswer⟩
  case accepted =>
    intro s p h l o os live up ours reach bound remote turn new none open' crc length recv room entry alone
    obtain ⟨t, m, writes, port, header, receives⟩ :=
      dataMsg_receives p bound remote turn new none open' crc length recv room entry alone
    refine ⟨receiveMsg t m, ?_, ?_, ?_⟩
    · rw [exec_dataMessage l up ours reach, receives]
      exact act_live s _ live
    · rw [← port, receiveMsg_out, writes.out, header]
    · rw [receiveMsg_sends, writes.sends]
  case repeated =>
    intro s p h l calm up ours reach bound remote old
    have known : dataMsg s p h l = queueOut s p (.ack (answer h)) := by simp [dataMsg, bound, remote, old]
    rw [exec_dataMessage l up ours reach, known]
    exact act_queueOut calm _ _
  case unbound =>
    intro s p h l calm up ours reach none
    have refused : dataMsg s p h l = nak s p h .refused := if_pos (none.imp_right fun far => by rw [far]; rfl)
    rw [exec_dataMessage l up ours reach, refused]
    exact act_queueOut calm _ _
  case acked =>
    intro s h o live ours remote reach found sent alone
    obtain ⟨own, number⟩ := findSend_key found
    refine ⟨endSend s o 1 1 0 false, ?_, ?_⟩
    · rw [exec_ackMessage ours remote reach found sent]
      exact act_live s _ live
    · rw [endSend_sends_alone o 1 1 0 false alone, own, number]
  case naked =>
    intro s h o calm ours remote reach found sent
    obtain ⟨own, number⟩ := findSend_key found
    refine ⟨fun more => ?_, fun more => ?_, ?_⟩
    · rw [exec_nakMessage .rnr ours remote reach found sent, nakSend, if_neg (Nat.not_le.mpr more)]
      exact act_quiet s _ calm.live (quiet_setSend _ calm.quiet)
    · rw [exec_nakMessage .badCrc ours remote reach found sent, nakSend, attemptFailed_again more]
      exact act_requeue calm ..
    · rw [exec_nakMessage .refused ours remote reach found sent]
      exact act_definiteFailure 4 calm.live own
  case asked =>
    intro s p h calm ours reach bound remote
    rw [exec_syncReq ours reach, if_neg (by simp [bound, remote])]
    exact act_queueOut calm _ _
  case askedUnbound =>
    intro s p h calm ours reach none
    rw [exec_syncReq ours reach, if_pos (none.imp_right fun far => by rw [far]; rfl)]
    exact act_queueOut calm _ _
  case answered =>
    intro s h rx map opids live canonical ours remote reach syncing
    have kept := reports_resolved s h.dstSub.toNat rx.toNat map opids
    refine ⟨synchronise s h.dstSub.toNat rx.toNat map opids, ?_, ?_⟩
    · rw [exec_syncRsp rx map opids ours remote reach syncing]
      exact act_live s _ live
    · rw [synchronise_eq]
      exact sdState_setSdState (kept.canonical canonical) ((SdInside.of_subReach reach).reports kept) (by decide)
  case skipped =>
    intro s h d calm canonical ours remote reach bound number near
    rw [exec_syncSkip ours remote reach bound, number]
    refine ⟨fun ahead => ?_, fun turn map early => ?_⟩
    · rw [syncSkip_ahead ahead near]
      exact act_quiet s _ calm.live (quiet_setSd _ _ _ calm.quiet)
    · rw [turn, Nat.add_zero, syncSkip_turn map early]
      refine ⟨_, act_quiet s _ calm.live (quiet_setSd _ _ _ (quiet_setSd _ _ _ calm.quiet)),
        rxExpect_passed canonical (.of_subReach reach), ?_⟩
      exact passed_chan s _
  case timeout =>
    intro s n q o calm reach found sent free
    obtain ⟨own, number⟩ := findSend_key found
    rw [exec_e2eTimeout reach found sent free]
    refine ⟨fun more => ?_, fun last => ?_⟩
    · rw [attemptFailed_again more]
      exact act_requeue calm ..
    · rw [attemptFailed_last last]
      exact act_definiteFailure 1 calm.live own
  case retry =>
    intro s n q o calm reach found waits
    rw [exec_rnrRetryTimer reach found waits]
    exact act_requeue calm ..
  case noPath =>
    intro s n q o live reach found sent noPort free
    obtain ⟨own, _⟩ := findSend_key found
    rw [exec_nopathTimeout reach found sent noPort free]
    exact act_definiteFailure 2 live own
  case noAnswer =>
    intro s n calm canonical reach syncing
    have kept := reports_dropReq s n.toNat
    have chan : (setSdState (dropReq s n.toNat) n.toNat 2).chan = (dropReq s n.toNat).chan := setSd_chan ..
    refine ⟨setSdState (dropReq s n.toNat) n.toNat 2, ?_, ?_, ?_, ?_, ?_⟩
    · rw [exec_syncTimeout reach syncing]
      exact act_quiet s _ calm.live (quiet_setSd _ _ _ calm.quiet)
    · exact sdState_setSdState (kept.canonical canonical) ((SdInside.of_subReach reach).reports kept) (by decide)
    · rw [chan]
      rfl
    · rw [chan]
      rfl
    · rw [chan]
      simp [dropReq]

end Sys2Proof.Proofs
end

section
/-! PROOFS. The fabric ports, port M, the root ports and the management link (12, 16): flits, lanes, link states, inbound
requests. -/
namespace Sys2Proof.Machine

/-! ## Synchronisation messages that find a port (R262) -/

/-- From s to t messages leave for the ports or wait: the queues of the ports and of the channel change alone. -/
structure Resends (s t : State) : Prop where
  port : ∀ n, ∃ l, t.port n = { s.port n with out := l }
  ert : t.ert = s.ert
  mem : t.mem = s.mem
  fcr : t.fcr = s.fcr
  quiesce : t.chan.quiesce = s.chan.quiesce
  sends : t.chan.sends = s.chan.sends

namespace Resends

theorem of_same {s t : State} (ports : t.ports = s.ports) (ert : t.ert = s.ert) (mem : t.mem = s.mem) (fcr : t.fcr = s.fcr)
    (quiesce : t.chan.quiesce = s.chan.quiesce) (sends : t.chan.sends = s.chan.sends) : Resends s t :=
  ⟨fun n => ⟨(s.port n).out, by rw [State.port, ports]; rfl⟩, ert, mem, fcr, quiesce, sends⟩

theorem refl (s : State) : Resends s s := of_same rfl rfl rfl rfl rfl rfl

theorem trans {s t u : State} (first : Resends s t) (second : Resends t u) : Resends s u where
  port n := by
    obtain ⟨_, one⟩ := first.port n
    obtain ⟨l, two⟩ := second.port n
    exact ⟨l, by rw [two, one]⟩
  ert := second.ert.trans first.ert
  mem := second.mem.trans first.mem
  fcr := second.fcr.trans first.fcr
  quiesce := second.quiesce.trans first.quiesce
  sends := second.sends.trans first.sends

/-- What does not look at the queues of a port reads the same. -/
theorem keeps {s t : State} (h : Resends s t) {α : Type} (g : Port → α) (blind : ∀ x l, g { x with out := l } = g x)
    (n : Nat) : g (t.port n) = g (s.port n) := by
  obtain ⟨l, same⟩ := h.port n
  rw [same, blind]

theorem quiet {s t : State} (h : Resends s t) (q : Machine.quiet s = true) : Machine.quiet t = true :=
  quiet_of' s t q h.fcr h.quiesce (by rw [h.sends])

end Resends

theorem resends_queueOut (s : State) (n : Nat) (m : OutMsg) : Resends s (queueOut s n m) where
  port k := by
    by_cases same : k = n
    · subst same
      exact ⟨_, State.port_setPort ..⟩
    · exact ⟨(s.port k).out, State.port_setPort_other _ _ _ _ same⟩
  ert := rfl
  mem := rfl
  fcr := rfl
  quiesce := rfl
  sends := rfl

theorem resends_sendSync (s : State) (sub : Nat) (m : OutMsg) : Resends s (sendSync s sub m) :=
  sendSync_cases sub m (.of_same rfl rfl rfl rfl rfl rfl) fun n => resends_queueOut s n m

theorem resends_sendUnsent (s : State) : Resends s (sendUnsent s) := by
  have emptied : Resends s { s with chan := { s.chan with unsent := [] } } := .of_same rfl rfl rfl rfl rfl rfl
  unfold sendUnsent
  refine List.foldlRecOn s.chan.unsent _ (motive := Resends s) emptied fun t before m _ => ?_
  split
  · exact before
  · exact before.trans (resends_sendSync ..)

/-! ## Link states (R266) -/

@[simp] theorem movePort_port_self (s : State) (n : Nat) (st : PortSt) :
    (movePort s n st).port n = { s.port n with st := st } := by
  simp [movePort]

@[simp] theorem movePort_fcr (s : State) (n : Nat) (st : PortSt) : (movePort s n st).fcr = s.fcr := by simp [movePort]
@[simp] theorem movePort_chan (s : State) (n : Nat) (st : PortSt) : (movePort s n st).chan = s.chan := by simp [movePort]
@[simp] theorem movePort_mem (s : State) (n : Nat) (st : PortSt) : (movePort s n st).mem = s.mem := by simp [movePort]

/-- A change of link state raises the port's source (R266). -/
theorem movePort_pend {s : State} {n : Nat} (st : PortSt) (flows : Flows s) (port : n < 5) :
    bitOf (movePort s n st).ert.pend (280 + n) = true := by
  have flows' : Flows (s.setPort n { s.port n with st := st }) := flows.of_bus rfl
  have used : reservedSource (280 + n) = false := by
    simp only [reservedSource, Bool.or_eq_false_iff, Bool.and_eq_false_iff, decide_eq_false_iff_not]
    omega
  rw [movePort, flows'.raise used, bitOf_setPend _ (by omega), if_pos rfl]

theorem reports_requeue (n : Nat) (s : State) (o : SendOp) : Reports s (requeue n s o) :=
  .ite (((writes_chanJoin ..).toReports.trans (reports_setSend ..)).trans
    ((writes_card ..).toReports.trans (writes_sendEvent ..).toReports)) (.refl s)

theorem requeue_ports (n : Nat) (s : State) (o : SendOp) : (requeue n s o).ports = s.ports := by
  obtain ⟨vt, join⟩ := chanJoin_eq s o.inst.toNat o.cls.toNat
  unfold requeue
  split
  · rw [raiseFor_ports, card_ports, setSend_ports, join]
  · rfl

/-- The SENDs of a port that goes DOWN are queued again, which changes no port. -/
theorem foldl_requeue_ports (n : Nat) (l : List SendOp) (s : State) : (l.foldl (requeue n) s).ports = s.ports :=
  List.foldlRecOn l (requeue n) (motive := fun t => t.ports = s.ports) rfl
    fun t before o _ => (requeue_ports n t o).trans before

/-- A port that loses its link keeps its counts; a fabric port keeps no flit (R267), and port M keeps its own (log entry
104). -/
theorem emptyPort_port (s : State) (n : Nat) :
    ((emptyPort s n).port n).laneFails = (s.port n).laneFails ∧ ((emptyPort s n).port n).losses = (s.port n).losses ∧
      (n ≠ 4 → ((emptyPort s n).port n).replay = []) := by
  unfold emptyPort
  dsimp only
  split
  · rename_i four
    rw [State.port_setPort]
    exact ⟨rfl, rfl, fun other => absurd four other⟩
  · rw [State.port, foldl_requeue_ports]
    change ((s.setPort n _).port n).laneFails = _ ∧ ((s.setPort n _).port n).losses = _ ∧
      (_ → ((s.setPort n _).port n).replay = _)
    rw [State.port_setPort]
    exact ⟨rfl, rfl, fun _ => rfl⟩

theorem emptyPort_flows {s : State} (n : Nat) (flows : Flows s) : Flows (emptyPort s n) := by
  unfold emptyPort
  dsimp only
  split
  · exact flows.of_bus rfl
  · exact (Reports.foldl (reports_requeue n) _ _).flows (flows.of_bus rfl)

/-- What a port is once it is DOWN (R266). -/
theorem portDown_port (s : State) (n lane : Nat) :
    ((portDown s n lane).port n).st = .down ∧ ((portDown s n lane).port n).laneFails = (s.port n).laneFails ∧
      ((portDown s n lane).port n).losses = satInc (s.port n).losses ∧
      (n ≠ 4 → ((portDown s n lane).port n).replay = []) := by
  obtain ⟨laneFails, losses, replay⟩ := emptyPort_port s n
  have resent := resends_sendUnsent (movePort (emptyPort s n) n .down)
  obtain ⟨l, port⟩ := resent.port n
  rw [movePort_port_self] at port
  rw [portDown]
  dsimp only
  rw [card_port, State.port_setPort, port]
  exact ⟨rfl, laneFails, congrArg satInc losses, replay⟩

theorem portDown_pend {s : State} {n : Nat} (lane : Nat) (flows : Flows s) (port : n < 5) :
    bitOf (portDown s n lane).ert.pend (280 + n) = true := by
  have resent := resends_sendUnsent (movePort (emptyPort s n) n .down)
  rw [portDown]
  dsimp only
  rw [card_ert]
  change bitOf (sendUnsent (movePort (emptyPort s n) n .down)).ert.pend _ = true
  rw [resent.ert]
  exact movePort_pend .down (emptyPort_flows n flows) port

/-- A port as it comes UP, before its link state moves (R265, R266). -/
def freshLink (x : Port) (n : Nat) : Port :=
  let y := { x with good := 0, trained := false, credits := linkCredits n, laneFailed := 0, spare := false, last := none }
  if n = 4 then y else { y with txSeq := 0, rxSeq := 0 }

theorem portUp_eq (s : State) (n : Nat) :
    portUp s n = sendUnsent (movePort (s.setPort n (freshLink (s.port n) n)) n .up) := rfl

theorem portUp_port (s : State) (n : Nat) : ((portUp s n).port n).st = .up ∧ ((portUp s n).port n).credits = linkCredits n ∧
    (n ≠ 4 → ((portUp s n).port n).txSeq = 0 ∧ ((portUp s n).port n).rxSeq = 0) := by
  obtain ⟨l, port⟩ := (resends_sendUnsent (movePort (s.setPort n (freshLink (s.port n) n)) n .up)).port n
  rw [movePort_port_self, State.port_setPort] at port
  rw [portUp_eq, port]
  refine ⟨rfl, ?_, fun other => ?_⟩
  · unfold freshLink
    dsimp only
    split <;> rfl
  · simp [freshLink, other]

theorem portUp_pend {s : State} {n : Nat} (flows : Flows s) (port : n < 5) : bitOf (portUp s n).ert.pend (280 + n) = true := by
  have flows' : Flows (s.setPort n (freshLink (s.port n) n)) := flows.of_bus rfl
  rw [portUp_eq, (resends_sendUnsent _).ert]
  exact movePort_pend .up flows' port

theorem quiet_portUp {s : State} (n : Nat) (h : quiet s = true) : quiet (portUp s n) = true := by
  rw [portUp_eq]
  exact (resends_sendUnsent _).quiet (quiet_of s _ h (movePort_fcr ..) (movePort_chan ..))

/-! ## Received flits (R264, R265) -/

/-- A port that is UP does not train. -/
theorem Port.not_training {x : Port} (up : x.isUp = true) : ¬(x.st = .training ∧ x.trained = true) := by
  rintro ⟨training, _⟩
  simp [Port.isUp, training] at up

theorem receiveFlit_up {s : State} {n : Nat} {f : Flit} (up : (s.port n).isUp = true) : receiveFlit s n f =
    if f.good && decide (f.ftype.toNat ≤ 2) then goodFlit s n f else s.setPort n { s.port n with nakOwed := true } := by
  rw [receiveFlit, if_neg (Port.not_training up), if_pos up]

/-- A DATA flit in sequence is taken with its trailer. -/
theorem goodFlit_data {s : State} {n : Nat} {f : Flit} (data : f.ftype = 1) (turn : f.lseq = (s.port n).rxSeq)
    (noNak : f.nak = false) : ∃ replay replaying freed, goodFlit s n f = s.setPort n { s.port n with
      credits := addCredits (s.port n).credits f.credits, replay := replay, replaying := replaying,
      rxSeq := (s.port n).rxSeq + 1, ackOwed := true, freed := freed } := by
  have ahead : (f.lseq - (s.port n).rxSeq).toNat = 0 := by rw [turn, BitVec.sub_self]; rfl
  let left := if f.ackValid then ackReplay f.ackLseq (s.port n).replay else (s.port n).replay
  refine ⟨left, (s.port n).replaying.filter fun e => left.contains e,
    (s.port n).freed.set f.cls.toNat ((s.port n).freed.getD f.cls.toNat 0 + 1), ?_⟩
  unfold goodFlit
  simp only [data, ahead, noNak, Bool.or_false]
  cases f.link <;> rfl

/-- A good flit after 63 others takes a port that has trained UP (R266). -/
theorem receiveFlit_trained {s : State} {n : Nat} {f : Flit} (training : (s.port n).st = .training)
    (trained : (s.port n).trained = true) (good : f.good = true) (listed : f.ftype.toNat ≤ 2)
    (many : 63 ≤ (s.port n).good) : receiveFlit s n f = portUp s n := by
  unfold receiveFlit
  simp [training, trained, good, listed, many]

/-- A replay starts at the first flit without an acknowledgement and is counted (R265). -/
theorem replayFrom_some {s : State} {n : Nat} (some : (s.port n).replay ≠ []) : replayFrom s n =
    card (s.setPort n { s.port n with replaying := (s.port n).replay, replays := satInc (s.port n).replays })
      (160 + n) 1 0 0 0 :=
  if_neg some

/-! ## Lanes (R266) -/

@[simp] theorem tellLink_port_self (s : State) (n : Nat) (m : OutMsg) :
    (tellLink s n m).port n = { s.port n with ctl := (s.port n).ctl ++ [m] } :=
  State.port_setPort ..

/-- The lane that fails is noted and counted first. -/
def laneNoted (s : State) (n lane : Nat) : State :=
  s.setPort n { s.port n with laneFailed := setBit (s.port n).laneFailed lane true, laneFails := satInc (s.port n).laneFails }

theorem laneFails_half {s : State} {n lane : Nat} (active : laneActive (s.port n) n lane = true)
    (half : (s.port n).st = .upHalf) : laneFails s n lane = portDown (laneNoted s n lane) n lane := by
  simp [laneFails, laneNoted, Port.isUp, active, half]

theorem laneFails_spareGone {s : State} {n lane : Nat} (active : laneActive (s.port n) n lane = true)
    (up : (s.port n).isUp = true) (full : (s.port n).st ≠ .upHalf) (gone : (s.port n).spare = true) :
    laneFails s n lane = card (movePort (tellLink (laneNoted s n lane) n .halfWidth) n .upHalf) (160 + n) 4 0 lane 0 := by
  simp [laneFails, laneNoted, active, up, full, gone]

/-- The state with the spare lane in use. -/
def spareUsed (s : State) (n lane : Nat) : State :=
  let t := tellLink (laneNoted s n lane) n (.spareLane lane)
  let u := t.setPort n { t.port n with spare := true, replaying := (t.port n).replay }
  if n = 4 then raise u 278 else u

theorem laneFails_spare {s : State} {n lane : Nat} (active : laneActive (s.port n) n lane = true)
    (up : (s.port n).isUp = true) (full : (s.port n).st ≠ .upHalf) (spare : (s.port n).spare = false) :
    laneFails s n lane = card (movePort (spareUsed s n lane) n .up) (160 + n) 2 0 lane 0 := by
  simp [laneFails, laneNoted, spareUsed, active, up, full, spare]

/-- A lane that fails is counted; the link goes to the spare, then to half width, then DOWN. -/
theorem laneFails_port {s : State} {n lane : Nat} (active : laneActive (s.port n) n lane = true)
    (up : (s.port n).isUp = true) : ((laneFails s n lane).port n).st =
        (if (s.port n).st = .upHalf then .down else if (s.port n).spare = true then .upHalf else .up) ∧
      ((laneFails s n lane).port n).laneFails = satInc (s.port n).laneFails := by
  have counted : ((laneNoted s n lane).port n).laneFails = satInc (s.port n).laneFails := by rw [laneNoted, State.port_setPort]
  by_cases half : (s.port n).st = .upHalf
  · obtain ⟨down, laneFails, _⟩ := portDown_port (laneNoted s n lane) n lane
    rw [laneFails_half active half, if_pos half, down, laneFails, counted]
    exact ⟨rfl, rfl⟩
  · rw [if_neg half]
    by_cases gone : (s.port n).spare = true
    · rw [laneFails_spareGone active up half gone, card_port, movePort_port_self, tellLink_port_self, if_pos gone]
      exact ⟨rfl, counted⟩
    · have used : ((spareUsed s n lane).port n).laneFails = satInc (s.port n).laneFails := by
        unfold spareUsed
        dsimp only
        split <;> simp [counted]
      rw [laneFails_spare active up half (Bool.eq_false_iff.mpr gone), card_port, movePort_port_self, if_neg gone]
      exact ⟨rfl, used⟩

/-- A port that is DOWN and may train trains. -/
theorem train_down {s : State} {n : Nat} (down : (s.port n).st = .down) (may : (s.port n).en = true ∨ n = 4) :
    train s n = movePort (s.setPort n { s.port n with trained := false, good := 0 }) n .training :=
  if_pos ⟨down, may⟩

/-! ## Root ports (R213, R271, R272) -/

/-- An inbound request of 1 to 512 bytes that has a credit is performed. -/
theorem exec_pcieInboundRequest {s : State} {p : Bool} {req : PcieReq} (credit : noCredit s .pcieInbound (b2n p) 0 = false)
    (least : 1 ≤ pcieSize req) (most : pcieSize req ≤ 512) :
    exec (.pcieInboundRequest p req) s = act s (inbound s p req) := by
  refine (if_pos ⟨least, most⟩).trans ?_
  rw [credit]
  rfl

/-- The link of a root port, as its events leave it. -/
def setRootUp (s : State) (port up : Bool) : State :=
  { s with chan := { s.chan with rootUp0 := if port then s.chan.rootUp0 else up
                                 rootUp1 := if port then up else s.chan.rootUp1 } }

theorem setRootUp_up (s : State) (port up : Bool) :
    (if port then (setRootUp s port up).chan.rootUp1 else (setRootUp s port up).chan.rootUp0) = up := by
  cases port <;> rfl

theorem quiet_setRootUp {s : State} (port up : Bool) (h : quiet s = true) : quiet (setRootUp s port up) = true :=
  quiet_of' s _ h rfl rfl rfl

theorem raise_root_pend {s : State} (port : Bool) (flows : Flows s) :
    bitOf (raise s (285 + b2n port)).ert.pend (285 + b2n port) = true := by
  have source : reservedSource (285 + b2n port) = false ∧ 285 + b2n port < 1024 := by cases port <;> decide
  obtain ⟨used, inside⟩ := source
  rw [flows.raise used, bitOf_setPend _ inside, if_pos rfl]

end Sys2Proof.Machine

namespace Sys2Proof.Proofs
open Sys2Proof.Machine

/-- Settles O53: each command changes its port by one law of the link and answers what it leaves; a root port's requests are
a read, a write or an MSI-X message. LSEQ 0 at UP (log entry 46), the events 285 and 286 of errors (log entry 47) and the
answer to a read past the end of memory (log entry 48) are the model's choices. -/
theorem linksAndRootPorts : Obligations.LinksAndRootPorts := by
  unfold Obligations.LinksAndRootPorts
  have fabric {n : Fin 5} (low : n.val < 4) : n.val ≠ 4 := Nat.ne_of_lt low
  refine ⟨?data, ?badFlit, ?comesUp, ?replays, ?laneFails, ?silent, ?trains, ?trainFails, ?retrains, ?reads, ?writes, ?msix,
    ?rootUp, ?rootError, ?rootDown, ?mgmt⟩
  case data =>
    intro s n f calm up good data turn noNak
    obtain ⟨_, _, _, taken⟩ := goodFlit_data data turn noNak
    have listed : (f.good && decide (f.ftype.toNat ≤ 2)) = true := by rw [good, data]; rfl
    refine ⟨_, (congrArg (act s) ((receiveFlit_up up).trans (if_pos listed))).trans
      ((congrArg (act s) taken).trans (calm.act rfl rfl)), ?_⟩
    rw [State.port_setPort]
    exact ⟨rfl, rfl, rfl⟩
  case badFlit =>
    intro s n f calm up bad
    change act s (receiveFlit s n f) = _
    rw [receiveFlit_up up, bad]
    exact calm.act rfl rfl
  case comesUp =>
    intro s n f calm training trained good listed many
    obtain ⟨st, credits, seqs⟩ := portUp_port s n
    refine ⟨portUp s n, ?_, st, credits, fun low => seqs (fabric low), fun flows => portUp_pend flows n.isLt⟩
    change act s (receiveFlit s n f) = _
    rw [receiveFlit_trained training trained good listed many]
    exact act_quiet s _ calm.live (quiet_portUp n calm.quiet)
  case replays =>
    intro s n live up some
    refine ⟨_, (congrArg (act s) ((if_pos up).trans (replayFrom_some some))).trans (act_live s _ live), ?_⟩
    rw [card_port, State.port_setPort]
    exact ⟨rfl, rfl⟩
  case laneFails =>
    intro s n lane live known up active
    exact ⟨laneFails s n lane, (if_pos known).trans (act_live s _ live), laneFails_port active up⟩
  case silent =>
    intro s n live up
    obtain ⟨down, _, losses, replay⟩ := portDown_port s n 0
    exact ⟨portDown s n 0, (congrArg (act s) (if_pos up)).trans (act_live s _ live), down, fun low => replay (fabric low),
      losses, fun flows => portDown_pend 0 flows n.isLt⟩
  case trains =>
    intro s n calm training
    exact (congrArg (act s) (if_neg (not_not_intro training))).trans (calm.act rfl rfl)
  case trainFails =>
    intro s n live training
    obtain ⟨down, _⟩ := portDown_port s n 0
    exact ⟨portDown s n 0, (congrArg (act s) (if_neg (not_not_intro training))).trans (act_live s _ live), down⟩
  case retrains =>
    intro s n calm down may
    have may' : (s.port n).en = true ∨ n.val = 4 := may.imp_right fun same => congrArg Fin.val same
    refine ⟨_, (congrArg (act s) (train_down down may')).trans (calm.act (movePort_fcr ..) (movePort_chan ..)), ?_, ?_, ?_⟩
    · rw [movePort_port_self]
    · exact fun flows => movePort_pend .training (flows.of_bus rfl) n.isLt
    · rw [movePort_mem]
      rfl
  case reads =>
    intro s p a n calm credit least most
    rw [exec_pcieInboundRequest (req := .read a n) credit least most]
    exact calm.act rfl rfl
  case writes =>
    intro s p a l calm credit canonical least most plain inside
    have store : inbound s p (.write a l) = agentStore s 0 a.toNat l := by
      rw [inbound, if_neg fun ⟨here, four⟩ => plain.elim (· here) (· four), if_pos inside]
    have mem : (agentStore s 0 a.toNat l).mem = Memory.writes s.mem a.toNat l := by
      rw [agentStore, agentStoreIn_mem, if_pos inside]
    refine ⟨agentStore s 0 a.toNat l, ?_, ?_, fun b outside => ?_⟩
    · rw [exec_pcieInboundRequest (req := .write a l) credit least most, store]
      exact calm.act (agentStoreIn_fcr ..) (agentStoreIn_chan ..)
    · rw [mem]
      exact Memory.bytes_writes l s.mem a.toNat canonical
    · rw [mem]
      exact Memory.read_writes_other l s.mem a.toNat b outside
  case msix =>
    intro s p l calm credit flows four small
    have value : (BitVec.ofNat 32 (leNat l)).toNat = leNat l := by
      rw [BitVec.toNat_ofNat]
      exact Nat.mod_eq_of_lt (by omega)
    have least : 1 ≤ pcieSize (.write 0xFEE00000#64 l) := by rw [pcieSize, four]; decide
    have most : pcieSize (.write 0xFEE00000#64 l) ≤ 512 := by rw [pcieSize, four]; decide
    rw [exec_pcieInboundRequest credit least most, inbound, if_pos ⟨rfl, four⟩, flows.msix p (by rwa [value]), value]
    exact calm.act rfl rfl
  case rootUp =>
    intro s p id calm
    refine ⟨setRootUp (raise s (285 + b2n p)) p true, ?_, raise_root_pend p, setRootUp_up _ p true, raise_mem ..⟩
    exact act_quiet s _ calm.live (quiet_setRootUp p true (quiet_of s _ calm.quiet (raise_fcr ..) (raise_chan ..)))
  case rootError =>
    intro s p id ev k live listed
    simp only [List.mem_cons, Prod.mk.injEq, List.not_mem_nil, or_false] at listed
    obtain ⟨rfl, rfl⟩ | ⟨rfl, rfl⟩ | ⟨rfl, rfl⟩ := listed <;> exact act_live s _ live
  case rootDown =>
    intro s p id live
    exact ⟨setRootUp (raise s (285 + b2n p)) p false, act_live s _ live, setRootUp_up _ p false, raise_mem ..⟩
  case mgmt => exact fun s a quiet => done_quiet _ quiet

end Sys2Proof.Proofs
end

section
/-! PROOFS. What a step is: the command in front of the queue, run. -/

namespace Sys2Proof.Proofs
open Sys2Proof.Machine

/-- Settles O1: `step` is defined by the front of the queue, so each half is its equation at that
queue. -/
theorem stepRunsFrontCommand : Obligations.StepRunsFrontCommand := by
  unfold Obligations.StepRunsFrontCommand
  refine ⟨fun s i r front => ?_, fun s empty => ?_⟩
  · rw [step, front]
  · rw [step, empty]

end Sys2Proof.Proofs
end

section
/-! PROOFS. The operations that leave every byte of memory alone. -/
namespace Sys2Proof.Machine

/-! ## Choices and folds -/

@[simp] theorem State.mem_ite {p : Prop} [Decidable p] (s t : State) :
    (if p then s else t).mem = if p then s.mem else t.mem :=
  apply_ite State.mem p s t

@[simp] theorem State.foldl_mem {α : Type} {f : State → α → State} (step : ∀ t a, (f t a).mem = t.mem) (l : List α)
    (s : State) : (l.foldl f s).mem = s.mem :=
  List.foldlRecOn l f (motive := fun t => t.mem = s.mem) rfl fun _ before a _ => (step _ a).trans before

@[simp] theorem foldl_setCtx_mem (x : State → Nat → Ctx) (l : List Nat) (s : State) :
    (l.foldl (fun t c => t.setCtx c (x t c)) s).mem = s.mem := State.foldl_mem (by intros; rfl) ..
/-! ## The operations, in the order of their definitions -/

@[simp] theorem boundCard_mem (s : State) (p c inst lane line : Nat) :
    (boundCard s p c inst lane line).mem = s.mem := by simp [boundCard]

@[simp] theorem wakeCtx_mem (s : State) (c : Nat) : (wakeCtx s c).mem = s.mem := (routesOnly_wakeCtx ..).mem
@[simp] theorem mirrorWrites_mem (s : State) (cls : BitVec 2) (a n : Nat) :
    (mirrorWrites s cls a n).mem = s.mem := by simp [mirrorWrites]

@[simp] theorem unpoison_mem (s : State) (a n : Nat) : (unpoison s a n).mem = s.mem := rfl
@[simp] theorem addPoison_mem (s : State) (ln : Nat) : (addPoison s ln).mem = s.mem := by simp [addPoison]
@[simp] theorem enterSealed_mem (s : State) (byFuse : Bool) :
    (enterSealed s byFuse).mem = s.mem := by simp [enterSealed]

@[simp] theorem dropL1_mem (s : State) (o line : Nat) : (dropL1 s o line).mem = s.mem := rfl
@[simp] theorem dropL3_mem (s : State) (line : Nat) : (dropL3 s line).mem = s.mem := rfl
@[simp] theorem dropOthers_mem (s : State) (o line : Nat) : (dropOthers s o line).mem = s.mem := rfl
@[simp] theorem dropAll_mem (s : State) (line : Nat) : (dropAll s line).mem = s.mem := rfl
@[simp] theorem cleanL2_mem (s : State) (p : Nat) : (cleanL2 s p).mem = s.mem := by simp [cleanL2]
@[simp] theorem emptyL2_mem (s : State) (p : Nat) : (emptyL2 s p).mem = s.mem := rfl
@[simp] theorem drainL2_mem (s : State) (p : Nat) : (drainL2 s p).mem = s.mem := (cachesOnly_drainL2 ..).mem
@[simp] theorem splitL2_mem (s : State) (p : Nat) : (splitL2 s p).mem = s.mem := rfl
@[simp] theorem evictL2_mem (s : State) (o w line : Nat) : (evictL2 s o w line).mem = s.mem := by simp [evictL2]
@[simp] theorem allocL2_mem (s : State) (o w line : Nat) (inst : BitVec 8) (filling : BitVec 8) (crit : Option
    (Nat × Nat)) : (allocL2 s o w line inst filling crit).mem = s.mem := (cachesOnly_allocL2 ..).mem

@[simp] theorem noteL1_mem (s : State) (o : Nat) (code : Bool) (line : Nat) :
    (noteL1 s o code line).mem = s.mem := by simp [noteL1]

@[simp] theorem mapL2_mem (s : State) (o line : Nat) (f : CLine → CLine) : (mapL2 s o line f).mem = s.mem := rfl
@[simp] theorem touchLine_mem (s : State) (c : Nat) (code store : Bool) (a n line : Nat) :
    (touchLine s c code store a n line).mem = s.mem := by
  unfold touchLine; dsimp only; repeat' split
  all_goals simp

@[simp] theorem touch_mem (s : State) (c : Nat) (code store : Bool) (a n : Nat) :
    (touch s c code store a n).mem = s.mem := by simp [touch]

@[simp] theorem drainLine_mem (s : State) (ln : Nat) : (drainLine s ln).mem = s.mem := by simp [drainLine]
@[simp] theorem drainLines_mem (s : State) (a n : Nat) :
    (drainLines s a n).mem = s.mem := (cachesOnly_drainLines ..).mem

@[simp] theorem setStack_mem (s : State) (c : Nat) (l : List StackEntry) : (setStack s c l).mem = s.mem := rfl
@[simp] theorem setSlot_mem (s : State) (c : Nat) (d : Option Delivery) : (setSlot s c d).mem = s.mem := rfl
@[simp] theorem setPend_mem (s : State) (n : Nat) : (setPend s n).mem = s.mem := rfl
@[simp] theorem eventLands_mem (s : State) (e : EventMsg) : (eventLands s e).mem = s.mem := by simp [eventLands]
@[simp] theorem releaseEvents_mem (s : State) : (releaseEvents s).mem = s.mem := by simp [releaseEvents]
@[simp] theorem withdraw_mem (s : State) (c : Nat) : (withdraw s c).mem = s.mem := (routesOnly_withdraw ..).mem
@[simp] theorem arrive_mem (s : State) (c : Nat) : (arrive s c).mem = s.mem := (routesOnly_arrive ..).mem
@[simp] theorem slotCycle_mem (s : State) (c : Nat) : (slotCycle s c).mem = s.mem := (routesOnly_slotCycle ..).mem
@[simp] theorem placeIn_mem (s : State) (n c : Nat) : (placeIn s n c).mem = s.mem := (routesOnly_placeIn ..).mem
@[simp] theorem selectFrom_mem (k : Nat) (used l : List Nat) (s : State) : (selectFrom k used l s).mem = s.mem :=
  (routesOnly_selectFrom k used l s).mem

@[simp] theorem ertSelect_mem (s : State) : (ertSelect s).mem = s.mem := by simp [ertSelect]
@[simp] theorem ertCycle_mem (s : State) : (ertCycle s).mem = s.mem := (routesOnly_ertCycle ..).mem
@[simp] theorem maskSlot_mem (k : Nat) (v : Word) (s : State) (c : Nat) :
    (maskSlot k v s c).mem = s.mem := (routesOnly_maskSlot ..).mem

@[simp] theorem maskSet_mem (s : State) (k : Nat) (v : Word) :
    (maskSet s k v).mem = s.mem := (routesOnly_maskSet ..).mem

@[simp] theorem maskClr_mem (s : State) (k : Nat) (v : Word) : (maskClr s k v).mem = s.mem := rfl
@[simp] theorem pendClr_mem (s : State) (k : Nat) (v : Word) : (pendClr s k v).mem = s.mem := by simp [pendClr]
@[simp] theorem swRaise_mem (s : State) (v : Word) : (swRaise s v).mem = s.mem := by simp [swRaise]
@[simp] theorem setSrc_mem (s : State) (n : Nat) (v : Word) : (setSrc s n v).mem = s.mem := rfl
@[simp] theorem pushDelivery_mem (s : State) (c : Nat) (d : Delivery) : (pushDelivery s c d).mem = s.mem := rfl
@[simp] theorem eoi_mem (s : State) (c : Nat) : (eoi s c).mem = s.mem := by
  unfold eoi
  split <;> simp

@[simp] theorem ertCtxReset_mem (s : State) (c : Nat) : (ertCtxReset s c).mem = s.mem := by simp [ertCtxReset]
@[simp] theorem ballAccept_mem (s : State) (n : Nat) (level : Bool) :
    (ballAccept s n level).mem = s.mem := by simp [ballAccept]

@[simp] theorem ertBlockReset_mem (s : State) : (ertBlockReset s).mem = s.mem := rfl
@[simp] theorem bindEnd_mem (s : State) : (bindEnd s).mem = s.mem := by simp [bindEnd]
@[simp] theorem mbCleanup_mem (s : State) (n : Nat) : (mbCleanup s n).mem = s.mem := by simp [mbCleanup]
@[simp] theorem mbEnd_mem (s : State) (n : Nat) (code : Nat) : (mbEnd s n code).mem = s.mem := by simp [mbEnd]
@[simp] theorem ctxIReset_mem (s : State) (c : Nat) : (ctxIReset s c).mem = s.mem := by simp [ctxIReset]
@[simp] theorem gateExit_mem (s : State) (p : Nat) : (gateExit s p).mem = s.mem := by
  unfold gateExit
  dsimp only
  split
  · rfl
  · split <;> simp

@[simp] theorem haltNow_mem (s : State) (c : Nat) : (haltNow s c).mem = s.mem := by simp [haltNow]
@[simp] theorem releaseCtx_mem (s : State) (c : Nat) : (releaseCtx s c).mem = s.mem := by simp [releaseCtx]
@[simp] theorem logCard_mem (s : State) (o : OpenCard) (auto reset : Bool) :
    (logCard s o auto reset).mem = s.mem := rfl

@[simp] theorem closeCards_mem (s : State) : (closeCards s).mem = s.mem := by
  refine State.foldl_mem (fun t v => ?_) ..
  split <;> rfl

@[simp] theorem pinAssert_mem (s : State) : (pinAssert s).mem = s.mem := rfl
@[simp] theorem logOrdering_mem (s : State) : (logOrdering s).mem = s.mem := by
  unfold logOrdering
  split <;> simp

@[simp] theorem creditReset_mem (s : State) (b : Blk) : (creditReset s b).mem = s.mem := rfl
@[simp] theorem spReset_mem (s : State) : (spReset s).mem = s.mem := by simp [spReset]
@[simp] theorem flushAll_mem (s : State) : (flushAll s).mem = s.mem := rfl
@[simp] theorem warmStops_mem (s : State) : (warmStops s).mem = s.mem := by
  unfold warmStops
  split <;> simp

@[simp] theorem deliverMct_mem (s : State) (c : Nat) : (deliverMct s c).mem = s.mem := by
  unfold deliverMct
  dsimp only
  split
  · split_ifs <;> simp
  · simp

@[simp] theorem mctCard_mem (s : State) (c : CardIn) : (mctCard s c).mem = s.mem := by
  unfold mctCard
  split <;> simp

@[simp] theorem setCard_mem (s : State) (sev : Nat) (o : Option OpenCard) : (setCard s sev o).mem = s.mem := rfl
@[simp] theorem closeCard_mem (s : State) (sev : Nat) : (closeCard s sev).mem = s.mem := by
  unfold closeCard
  split <;> simp

@[simp] theorem forceCards_mem (s : State) (k : Nat) (v : Word) :
    (forceCards s k v).mem = s.mem := by simp [forceCards]

@[simp] theorem accessCard_mem (s : State) (r : Req) (kind off : Nat) :
    (accessCard s r kind off).mem = s.mem := by simp [accessCard]

@[simp] theorem setTokens_mem (s : State) (i key : Nat) (v : Int) : (setTokens s i key v).mem = s.mem := rfl
@[simp] theorem charge_mem (s : State) (i key n : Nat) : (charge s i key n).mem = s.mem := by simp [charge]
@[simp] theorem refillOne_mem (s : State) (i key : Nat) : (refillOne s i key).mem = s.mem := rfl
@[simp] theorem refillInst_mem (s : State) (i : Nat) : (refillInst s i).mem = s.mem := by simp [refillInst]
@[simp] theorem slotStore_mem (s : State) (p : Nat) (slot : Bool) (off : Nat) (v : Word) :
    (slotStore s p slot off v).mem = s.mem := by
  unfold slotStore
  split <;> simp

@[simp] theorem pairBlockRead_mem (s : State) (p off w : Nat) : (pairBlockRead s p off w).1.mem = s.mem := by
  unfold pairBlockRead; dsimp only; repeat' split
  all_goals simp

@[simp] theorem readDone_mem (s : State) (r : Req) (v : Word) : (readDone s r v).mem = s.mem := by
  unfold readDone
  split <;> simp

@[simp] theorem performOne_mem (p b : Nat) (s : State) (h : HeldAccess) : (performOne p b s h).mem = s.mem := by
  unfold performOne
  dsimp only
  split
  · simp
  · split <;> simp

@[simp] theorem performHeld_mem (s : State) (p b : Nat) (l : List HeldAccess) :
    (performHeld s p b l).mem = s.mem := by simp [performHeld]

@[simp] theorem stopPair_mem (s : State) (p : Nat) : (stopPair s p).mem = s.mem := by
  unfold stopPair
  dsimp only
  split <;> simp

@[simp] theorem serveSubsts_mem (k : Nat) (s : State) : (serveSubsts k s).mem = s.mem := by
  induction k generalizing s with
  | zero => rfl
  | succ k ih =>
    unfold serveSubsts
    split
    · rfl
    · split
      · rfl
      · split
        · rw [ih, stopPair_mem]
        · dsimp only
          split <;> simp

@[simp] theorem beginSubst_mem (s : State) (p : Nat) (mb : Option Nat) : (beginSubst s p mb).mem = s.mem := by
  unfold beginSubst
  split
  · rfl
  · split <;> simp

@[simp] theorem letRun_mem (s : State) (p : Nat) (cause : LetCause) (copy slot async : Bool) :
    (letRun s p cause copy slot async).mem = s.mem := by
  unfold letRun
  dsimp only
  split
  · split <;> simp
  · split <;> simp

@[simp] theorem lineDiffers_mem (s : State) (p line : Nat) (bothPass copy slot : Bool) :
    (lineDiffers s p line bothPass copy slot).mem = s.mem := by
  unfold lineDiffers
  split <;> simp

@[simp] theorem letPair_mem (s : State) (p : Nat) (cause : LetCause) (copy slot async : Bool) :
    (letPair s p cause copy slot async).mem = s.mem := by
  unfold letPair
  split <;> simp

@[simp] theorem letUnnamed_mem (s : State) (p : Nat) (slot : Bool) :
    (letUnnamed s p slot).mem = s.mem := by simp [letUnnamed]

@[simp] theorem groupRetired_mem (s : State) (p : Nat) (slot : Bool) :
    (groupRetired s p slot).mem = s.mem := by simp [groupRetired]

@[simp] theorem gateEnter_mem (s : State) (p : Nat) : (gateEnter s p).mem = s.mem := by
  unfold gateEnter
  dsimp only
  simp

@[simp] theorem shareCredits_mem (s : State) (p : Nat) : (shareCredits s p).mem = s.mem := rfl
@[simp] theorem wakeLatchSet_mem (s : State) (c : Nat) : (wakeLatchSet s c).mem = s.mem := by
  unfold wakeLatchSet
  split
  · rfl
  · dsimp only
    split <;> simp

@[simp] theorem l2Enable_mem (s : State) (p : Nat) (en : Bool) :
    (l2Enable s p en).mem = s.mem := (cachesOnly_l2Enable ..).mem

@[simp] theorem emptyL1_mem (s : State) (p : Nat) (code : Bool) : (emptyL1 s p code).mem = s.mem := rfl
@[simp] theorem l1iEnable_mem (s : State) (p : Nat) (en : Bool) :
    (l1iEnable s p en).mem = s.mem := (cachesOnly_l1iEnable ..).mem

@[simp] theorem l1dEnable_mem (s : State) (p : Nat) (en : Bool) :
    (l1dEnable s p en).mem = s.mem := (cachesOnly_l1dEnable ..).mem

@[simp] theorem pctlWrite_mem (s : State) (p : Nat) (v : Word) :
    (pctlWrite s p v).mem = s.mem := (cachesOnly_pctlWrite ..).mem

@[simp] theorem emptyL3_mem (s : State) : (emptyL3 s).mem = s.mem := rfl
@[simp] theorem l3ctlWrite_mem (s : State) (v : Word) : (l3ctlWrite s v).mem = s.mem := (cachesOnly_l3ctlWrite ..).mem
@[simp] theorem serveSnoop_mem (s : State) (o line : Nat) (invalidate : Bool) :
    (serveSnoop s o line invalidate).mem = s.mem := (cachesOnly_serveSnoop ..).mem

@[simp] theorem fillDone_mem (s : State) (o line : Nat) :
    (fillDone s o line).mem = s.mem := (cachesOnly_fillDone ..).mem

@[simp] theorem fillSector_mem (s : State) (o line sector : Nat) (l : CLine) :
    (fillSector s o line sector l).mem = s.mem := by simp [fillSector]

@[simp] theorem fillStart_mem (s : State) (c o : Nat) (code : Bool) (line way sector : Nat) :
    (fillStart s c o code line way sector).mem = s.mem := by simp [fillStart]

@[simp] theorem snoopOne_mem (line : Nat) (invalidate : Bool) (s : State) (o : Nat) :
    (snoopOne line invalidate s o).mem = s.mem := by
  unfold snoopOne
  split <;> simp

@[simp] theorem cacheError_mem (s : State) (e : CacheErr) : (cacheError s e).mem = s.mem := by
  cases e with
  | l1 => simp [cacheError]
  | l3Clean v line => simp only [cacheError]; cases l3Find s line <;> simp
  | l3Dirty v line => simp only [cacheError]; cases l3Find s line <;> simp
  | _ => simp [cacheError]

@[simp] theorem rebuildFails_mem (s : State) (n : Nat) (kind : Nat) (words : List Word) (addr : Nat) :
    (rebuildFails s n kind words addr).mem = s.mem := by
  unfold rebuildFails
  dsimp only
  split <;> simp

@[simp] theorem autoOffline_mem (s : State) (n : Nat) : (autoOffline s n).mem = s.mem := by simp [autoOffline]
@[simp] theorem countRebuild_mem (s : State) (n : Nat) : (countRebuild s n).mem = s.mem := by simp [countRebuild]
@[simp] theorem countErr_mem (s : State) (n : Nat) (rebuilt : Bool) : (countErr s n rebuilt).mem = s.mem := rfl
@[simp] theorem poisonLine_mem (s : State) (line : Nat) : (poisonLine s line).mem = s.mem := by simp [poisonLine]
@[simp] theorem unservedRead_mem (s : State) (line : Nat) (e : MemErr) : (unservedRead s line e).mem = s.mem := by
  unfold unservedRead
  split <;> simp

@[simp] theorem memError_mem (s : State) (line : Nat) (e : MemErr) : (memError s line e).mem = s.mem := by
  unfold memError
  dsimp only
  split
  · simp
  · split <;> simp

@[simp] theorem setCount_mem (s : State) (c : BitVec 160) : (setCount s c).mem = s.mem := rfl
@[simp] theorem deadline_mem (s : State) (k : Nat) : (deadline s k).mem = s.mem := by
  unfold deadline
  split <;> simp

@[simp] theorem armDeadlines_mem (s : State) (v : Word) : (armDeadlines s v).mem = s.mem := rfl
@[simp] theorem armNow_mem (s : State) : (armNow s).mem = s.mem := by simp [armNow]
@[simp] theorem compareAll_mem (s : State) : (compareAll s).mem = s.mem := by simp [compareAll]
@[simp] theorem steerReport_mem (s : State) : (steerReport s).mem = s.mem := by
  unfold steerReport
  split <;> simp

@[simp] theorem slewCycle_mem (s : State) : (slewCycle s).mem = s.mem := by
  unfold slewCycle; dsimp only; repeat' split
  all_goals simp

@[simp] theorem discCycle_mem (s : State) : (discCycle s).mem = s.mem := by simp [discCycle]
@[simp] theorem flipCopy_mem (s : State) (u : TodUpset) : (flipCopy s u).mem = s.mem := by
  unfold flipCopy
  split <;> rfl

@[simp] theorem compareCopies_mem (s : State) : (compareCopies s).mem = s.mem := by simp [compareCopies]
@[simp] theorem ppsOutStart_mem (s : State) (before : Word) :
    (ppsOutStart s before).mem = s.mem := by simp [ppsOutStart]

@[simp] theorem todCycle_mem (s : State) (u : TodUpset) : (todCycle s u).mem = s.mem := by
  simp [todCycle]

@[simp] theorem todStep_mem (s : State) (t : BitVec 128) : (todStep s t).mem = s.mem := by simp [todStep]
@[simp] theorem readNowf_mem (s : State) (r : Req) (lag : Nat) : (readNowf s r lag).1.mem = s.mem := by
  unfold readNowf
  dsimp only
  split <;> simp

@[simp] theorem discipline_mem (s : State) (f : Word) : (discipline s f).mem = s.mem := by simp [discipline]
@[simp] theorem acceptEdge_mem (s : State) (t : BitVec 128) : (acceptEdge s t).mem = s.mem := by simp [acceptEdge]
@[simp] theorem applySetAtPps_mem (s : State) (n : Nat) : (applySetAtPps s n).mem = s.mem := by simp [applySetAtPps]
@[simp] theorem ppsEdgeAt_mem (s : State) (sub : Nat) : (ppsEdgeAt s sub).mem = s.mem := by
  unfold ppsEdgeAt; dsimp only; repeat' split
  all_goals simp

@[simp] theorem entropyCount_mem (s : State) (adaptive : Bool) : (entropyCount s adaptive).mem = s.mem := rfl
@[simp] theorem drbgDraw_mem (s : State) : (drbgDraw s).1.mem = s.mem := rfl
@[simp] theorem drawIf_mem (b : Bool) (t : State) : (drawIf b t).mem = t.mem := by simp [drawIf]
@[simp] theorem ringReports_mem (s : State) (i sub before : Nat) : (ringReports s i sub before).mem = s.mem := by
  unfold ringReports
  split <;> simp

@[simp] theorem ringSettle_mem (s : State) (i : Nat) : (ringSettle s i).mem = s.mem := rfl
@[simp] theorem jtailWrite_mem (s : State) (r : Req) (i : Nat) (v : Word) (off : Nat) :
    (jtailWrite s r i v off).mem = s.mem := by simp [jtailWrite]

@[simp] theorem vtRaise_mem (s : State) (key : Nat) (others : List Nat) : (vtRaise s key others).mem = s.mem := rfl
@[simp] theorem chanJoin_mem (s : State) (i cls : Nat) : (chanJoin s i cls).mem = s.mem := by simp [chanJoin]
@[simp] theorem sendSync_mem (s : State) (sub : Nat) (m : OutMsg) :
    (sendSync s sub m).mem = s.mem := (resends_sendSync ..).mem

@[simp] theorem sendUnsent_mem (s : State) : (sendUnsent s).mem = s.mem := (resends_sendUnsent s).mem
@[simp] theorem dropHeld_mem (s : State) (sub : Nat) : (dropHeld s sub).mem = s.mem := rfl
@[simp] theorem bindStart_mem (s : State) (sub : Nat) : (bindStart s sub).mem = s.mem := rfl
@[simp] theorem ensureSend_mem (s : State) (o : SendOp) : (ensureSend s o).mem = s.mem := by
  unfold ensureSend
  split <;> rfl

@[simp] theorem countResolved_mem (s : State) : (countResolved s).mem = s.mem := by
  unfold countResolved
  dsimp only
  split
  · rfl
  · split <;> rfl

@[simp] theorem noteMatch_mem (s : State) (sub : Nat) (opid : Word) (seq : BitVec 48) (idx : Nat) :
    (noteMatch s sub opid seq idx).mem = s.mem := rfl

@[simp] theorem noteResolved_mem (i sub : Nat) (s : State) (idx : Nat) : (noteResolved i sub s idx).mem = s.mem := by
  unfold noteResolved
  dsimp only
  split <;> rfl

@[simp] theorem nak_mem (s : State) (port : Nat) (h : MsgHdr) (r : NakReason) : (nak s port h r).mem = s.mem := rfl
@[simp] theorem dropReq_mem (s : State) (sub : Nat) : (dropReq s sub).mem = s.mem := rfl
@[simp] theorem setCipherQueue_mem (s : State) (k : Nat) (l : List CJob) : (setCipherQueue s k l).mem = s.mem := rfl
@[simp] theorem setCJob_mem (s : State) (k : Nat) (j : CJob) : (setCJob s k j).mem = s.mem := rfl
@[simp] theorem cipherJoin_mem (s : State) (k i : Nat) : (cipherJoin s k i).mem = s.mem := by
  unfold cipherJoin
  split
  · rfl
  · dsimp only
    split <;> simp

@[simp] theorem laneError_mem (s : State) (k lane : Nat) (j : CJob) :
    (laneError s k lane j).mem = s.mem := by simp [laneError]

@[simp] theorem badArg_mem (s : State) (n : Nat) : (badArg s n).mem = s.mem := by simp [badArg]
@[simp] theorem already_mem (s : State) (n : Nat) : (already s n).mem = s.mem := by simp [already]
@[simp] theorem requeue_mem (n : Nat) (s : State) (o : SendOp) : (requeue n s o).mem = s.mem := by simp [requeue]
@[simp] theorem emptyPort_mem (s : State) (n : Nat) : (emptyPort s n).mem = s.mem := by simp [emptyPort]
@[simp] theorem portDown_mem (s : State) (n lane : Nat) : (portDown s n lane).mem = s.mem := by simp [portDown]
@[simp] theorem replayFrom_mem (s : State) (n : Nat) : (replayFrom s n).mem = s.mem := by simp [replayFrom]
@[simp] theorem chargeTier_mem (s : State) (o : SendOp) : (chargeTier s o).mem = s.mem := rfl
@[simp] theorem demote_mem (s : State) (o : SendOp) : (demote s o).1.mem = s.mem := by
  unfold demote
  split <;> simp

@[simp] theorem startAttempt_mem (s : State) (n : Nat) (o : SendOp) :
    (startAttempt s n o).mem = s.mem := by simp [startAttempt]

@[simp] theorem choose_mem (s : State) (n : Nat) (o : SendOp) : (choose s n o).mem = s.mem := by simp [choose]
@[simp] theorem schedule_mem (s : State) (n : Nat) : (schedule s n).mem = s.mem := by
  unfold schedule
  dsimp only
  split
  · simp
  · split <;> simp

@[simp] theorem scheduled_mem (s : State) (n : Nat) : (scheduled s n).mem = s.mem := by simp [scheduled]
@[simp] theorem delayOthers_mem (s : State) (n : Nat) (o : SendOp) : (delayOthers s n o).mem = s.mem := rfl
@[simp] theorem sendDataFlit_mem (s : State) (n : Nat) (o : SendOp) : (sendDataFlit s n o).mem = s.mem := rfl
@[simp] theorem copyNext_mem (s : State) : (copyNext s).mem = s.mem := by
  unfold copyNext
  split <;> simp

@[simp] theorem copyStep_mem (s : State) : (copyStep s).mem = s.mem := by
  unfold copyStep
  split
  · rfl
  · dsimp only
    split <;> simp

@[simp] theorem fabricWindow_mem (s : State) (n : Nat) : (fabricWindow s n).mem = s.mem := by
  unfold fabricWindow
  split
  · rfl
  · dsimp only
    split <;> simp

@[simp] theorem window_mem (s : State) (n : Nat) : (window s n).mem = s.mem := by
  unfold window
  dsimp only
  split <;> simp

@[simp] theorem queueCtl_mem (s : State) (n : Nat) (m : OutMsg) : (queueCtl s n m).mem = s.mem := by simp [queueCtl]
@[simp] theorem tellLink_mem (s : State) (n : Nat) (m : OutMsg) : (tellLink s n m).mem = s.mem := rfl
@[simp] theorem train_mem (s : State) (n : Nat) : (train s n).mem = s.mem := by simp [train]
@[simp] theorem msix_mem (s : State) (port : Bool) (data : BitVec 32) :
    (msix s port data).mem = s.mem := by simp [msix]

@[simp] theorem complete_mem (s : State) (c : Cpl) : (complete s c).mem = s.mem := rfl
@[simp] theorem rootEvent_mem (s : State) (port : Bool) (ev : RootEv) (requester : BitVec 16) :
    (rootEvent s port ev requester).mem = s.mem := by
  unfold rootEvent
  dsimp only
  split <;> simp

@[simp] theorem sendHeartbeat_mem (s : State) : (sendHeartbeat s).mem = s.mem := by simp [sendHeartbeat]
@[simp] theorem countApplied_mem (s : State) : (countApplied s).mem = s.mem := by simp [countApplied]
@[simp] theorem dropRecord_mem (s : State) : (dropRecord s).mem = s.mem := by simp [dropRecord]
@[simp] theorem uncommit_mem (s : State) (line : Nat) : (uncommit s line).mem = s.mem := by simp [uncommit]
@[simp] theorem syncLost_mem (s : State) : (syncLost s).mem = s.mem := by simp [syncLost]
@[simp] theorem syncServe_mem (s : State) : (syncServe s).mem = s.mem := by simp [syncServe]
@[simp] theorem relinquishIfQuiet_mem (s : State) : (relinquishIfQuiet s).mem = s.mem := by simp [relinquishIfQuiet]
@[simp] theorem reportLoss_mem (s : State) : (reportLoss s).mem = s.mem := by simp [reportLoss]
@[simp] theorem sendClaims_mem (s : State) : (sendClaims s).mem = s.mem := by simp [sendClaims]
@[simp] theorem takeContext_mem (s : State) (c : Nat) : (takeContext s c).mem = s.mem := by
  unfold takeContext
  split <;> simp

@[simp] theorem bindBegin_mem (s : State) (n : Nat) (role : Bool) (partner : BitVec 14) (period : Nat) :
    (bindBegin s n role partner period).mem = s.mem := by simp [bindBegin]

@[simp] theorem duplexBind_mem (s : State) (x : Mailbox) (n : Nat) :
    (duplexBind s x n).mem = s.mem := by simp [duplexBind]

@[simp] theorem syncDone_mem (s : State) (n : Nat) : (syncDone s n).mem = s.mem := by
  unfold syncDone
  dsimp only
  split <;> simp

@[simp] theorem goIgnore_mem (s : State) (n : Nat) : (goIgnore s n).mem = s.mem := rfl
@[simp] theorem goStart_mem (s : State) (n : Nat) (r : Req) : (goStart s n r).mem = s.mem := by
  unfold goStart
  dsimp only
  split <;> simp

@[simp] theorem goContinue_mem (s : State) (n : Nat) (r : Req) :
    (goContinue s n r).mem = s.mem := by simp [goContinue]

@[simp] theorem setZJob_mem (s : State) (n : Nat) (j : ZJob) : (setZJob s n j).mem = s.mem := rfl
@[simp] theorem zipJoin_mem (s : State) (n i : Nat) : (zipJoin s n i).mem = s.mem := by
  unfold zipJoin
  split
  · rfl
  · dsimp only
    split <;> simp

@[simp] theorem zipCharge_mem (s : State) (n i bytes : Nat) :
    (zipCharge s n i bytes).mem = s.mem := by simp [zipCharge]

@[simp] theorem zipInternal_mem (s : State) (n : Nat) (j : ZJob) :
    (zipInternal s n j).mem = s.mem := by simp [zipInternal]

@[simp] theorem slotTouch_mem (s : State) (p : Nat) : (slotTouch s p).mem = s.mem := by simp [slotTouch]
@[simp] theorem slotWriteReg_mem (s : State) (r : Req) (p : Nat) (k : Bool) (off : Nat) (v : Word) :
    (slotWriteReg s r p k off v).mem = s.mem := by simp [slotWriteReg]

@[simp] theorem portEnable_mem (s : State) (n : Nat) (en : Bool) :
    (portEnable s n en).mem = s.mem := by simp [portEnable]

@[simp] theorem capTokens_mem (s : State) (i : Nat) (keys : List Nat) : (capTokens s i keys).mem = s.mem :=
  State.foldl_mem (by intros; rfl) ..

@[simp] theorem haltRequest_mem (s : State) (c : Nat) : (haltRequest s c).mem = s.mem := by
  unfold haltRequest
  split <;> simp

@[simp] theorem haltRelease_mem (s : State) (c : Nat) : (haltRelease s c).mem = s.mem := by simp [haltRelease]
@[simp] theorem dbgCtlStore_mem (s : State) (v : Word) : (dbgCtlStore s v).mem = s.mem := by simp [dbgCtlStore]
@[simp] theorem dbgHaltStore_mem (s : State) (v : Word) : (dbgHaltStore s v).mem = s.mem := by simp [dbgHaltStore]
@[simp] theorem cstatClear_mem (s : State) (c : Nat) (v : Word) :
    (cstatClear s c v).mem = s.mem := by simp [cstatClear]

@[simp] theorem askCount_mem (s : State) : (askCount s).mem = s.mem := by simp [askCount]
@[simp] theorem keepRead_mem (s : State) (r : Req) (off w : Nat) : (keepRead s r off w).mem = s.mem := by
  unfold keepRead
  split <;> simp

@[simp] theorem writeDone_mem (s : State) (r : Req) : (writeDone s r).mem = s.mem := by
  unfold writeDone
  split <;> simp

@[simp] theorem setQueue_mem (s : State) (x : Queue) : (setQueue s x).mem = s.mem := rfl
@[simp] theorem queueCard_mem (s : State) (q : QueueId) (dropped : Bool) : (queueCard s q dropped).mem = s.mem := by
  unfold queueCard
  dsimp only
  split <;> simp

@[simp] theorem reserve_mem (s : State) (q : QueueId) (n : Nat) : (reserve s q n).mem = s.mem := rfl
@[simp] theorem takeCredit_mem (s : State) (q : QueueId) (pl : Payload) : (takeCredit s q pl).mem = s.mem := by
  unfold takeCredit
  dsimp only
  split <;> simp

@[simp] theorem dropResponse_mem (s : State) (q : QueueId) : (dropResponse s q).mem = s.mem := rfl
@[simp] theorem csaccFirst_mem (s : State) : (csaccFirst s).mem = s.mem := by simp [csaccFirst]
@[simp] theorem warmBegin_mem (s : State) (n k : Nat) : (warmBegin s n k).mem = s.mem := by simp [warmBegin]
@[simp] theorem warmCheck_mem (s : State) : (warmCheck s).mem = s.mem := by
  unfold warmCheck
  split <;> simp

@[simp] theorem startCommand_mem (s : State) (n : Nat) : (startCommand s n).mem = s.mem := rfl
@[simp] theorem substituteStart_mem (s : State) (x : Mailbox) (n : Nat) : (substituteStart s x n).mem = s.mem := by
  unfold substituteStart; split <;> [skip; split] <;> simp

@[simp] theorem handoverStart_mem (s : State) (p n : Nat) (toSplit : Bool) :
    (handoverStart s p n toSplit).mem = s.mem := by simp [handoverStart]

@[simp] theorem markDeleted_mem (s : State) (l3 : Bool) (unit bit : Nat) :
    (markDeleted s l3 unit bit).mem = s.mem := by simp [markDeleted]

@[simp] theorem emptyWay_mem (s : State) (l3 : Bool) (unit way : Nat) :
    (emptyWay s l3 unit way).mem = s.mem := by simp [emptyWay]

@[simp] theorem wayDeleteStart_mem (s : State) (x : Mailbox) (n : Nat) :
    (wayDeleteStart s x n).mem = s.mem := by simp [wayDeleteStart]

@[simp] theorem ptrAdvance_mem (s : State) (n mib : Nat) : (ptrAdvance s n mib).mem = s.mem := rfl
@[simp] theorem rebuildSkip_mem (s : State) (n : Nat) : (rebuildSkip s n).mem = s.mem := by
  unfold rebuildSkip
  split <;> simp

@[simp] theorem rebuildStops_mem (s : State) (mb n rebuilt other : Nat) :
    (rebuildStops s mb n rebuilt other).mem = s.mem := by simp [rebuildStops]

@[simp] theorem rebuildEvent_mem (s : State) (mb : Nat) (ev : RebuildEv) : (rebuildEvent s mb ev).mem = s.mem := by
  unfold rebuildEvent; dsimp only; repeat' split
  all_goals simp

@[simp] theorem rebuildStart_mem (s : State) (x : Mailbox) (mb : Nat) : (rebuildStart s x mb).mem = s.mem := by
  unfold rebuildStart
  dsimp only
  split
  · simp
  · split <;> simp

@[simp] theorem keyLoadStart_mem (s : State) (x : Mailbox) (n : Nat) : (keyLoadStart s x n).mem = s.mem := by
  unfold keyLoadStart; dsimp only; repeat' split
  all_goals simp

@[simp] theorem stageDone_mem (s : State) (n : Nat) (b : List Byte) :
    (stageDone s n b).mem = s.mem := by simp [stageDone]

@[simp] theorem instanceCreateStart_mem (s : State) (x : Mailbox) (n : Nat) :
    (instanceCreateStart s x n).mem = s.mem := by simp [instanceCreateStart]

@[simp] theorem inningsAdvance_mem (s : State) (i : Nat) : (inningsAdvance s i).mem = s.mem := rfl
@[simp] theorem instResetEnds_mem (s : State) (i : Nat) : (instResetEnds s i).mem = s.mem := by simp [instResetEnds]
@[simp] theorem drainDone_mem (s : State) (i : Nat) : (drainDone s i).mem = s.mem := by
  unfold drainDone
  split <;> simp

@[simp] theorem resetArrives_mem (s : State) (n : Nat) : (resetArrives s n).mem = s.mem := by simp [resetArrives]
@[simp] theorem todSetStart_mem (s : State) (x : Mailbox) (n : Nat) :
    (todSetStart s x n).mem = s.mem := by simp [todSetStart]

@[simp] theorem sensorCalibrateStart_mem (s : State) (x : Mailbox) (n : Nat) :
    (sensorCalibrateStart s x n).mem = s.mem := by simp [sensorCalibrateStart]

@[simp] theorem imageSwitched_mem (s : State) (n : Nat) (p : Package) (ok : Bool) :
    (imageSwitched s n p ok).mem = s.mem := by simp [imageSwitched]

@[simp] theorem activateDone_mem (s : State) (n : Nat) : (activateDone s n).mem = s.mem := by simp [activateDone]
@[simp] theorem logClear_mem (s : State) (n : Nat) : (logClear s n).mem = s.mem := rfl
@[simp] theorem poisonEntry_mem (s : State) (c ln : Nat) : (poisonEntry s c ln).mem = s.mem := by simp [poisonEntry]
@[simp] theorem uncachedBytes_mem (s : State) (a n : Nat) : (uncachedBytes s a n).1.mem = s.mem := by
  unfold uncachedBytes
  split <;> simp

@[simp] theorem fillSlot_mem (c : Nat) (s : State) (q : Nat × Nat) :
    (fillSlot c s q).mem = s.mem := by simp [fillSlot]

@[simp] theorem fillSlots_mem (c : Nat) (l : List (Nat × Nat)) (s : State) :
    (fillSlots c l s).mem = s.mem := by simp [fillSlots]

@[simp] theorem windowReport_mem (s : State) (c k off : Nat) :
    (windowReport s c k off).mem = s.mem := by simp [windowReport]

@[simp] theorem windowRead_mem (c off n : Nat) (s : State) : (windowRead c off n s).1.mem = s.mem := by
  unfold windowRead
  split <;> simp

@[simp] theorem backOut_mem (s : State) (c : Nat) (x : Ctx) : (backOut s c x).mem = s.mem := rfl
@[simp] theorem landEntry_mem (c : Nat) (e : Entry) (h : Word) (s : State) : (landEntry c e h s).mem = s.mem := by
  unfold landEntry; dsimp only; split <;> split <;> simp

@[simp] theorem stopContext_mem (s : State) (c addr : Nat) :
    (stopContext s c addr).mem = s.mem := by simp [stopContext]

@[simp] theorem midEntry_mem (s : State) (c cycle : Nat) (d : Delivery) :
    (midEntry s c cycle d).mem = s.mem := by simp [midEntry]

@[simp] theorem reached_mem (s : State) (n c : Nat) : (reached s n c).mem = s.mem := by
  unfold reached
  dsimp only
  split <;> simp

@[simp] theorem mapPred_mem (s : State) (c : Nat) (f : List PredEntry → List PredEntry) :
    (mapPred s c f).mem = s.mem := by
  unfold mapPred
  split <;> simp

@[simp] theorem noteDirection_mem (s : State) (c : Nat) (pc : Word) (backward taken : Bool) :
    (noteDirection s c pc backward taken).mem = s.mem := by simp [noteDirection]

@[simp] theorem noteTarget_mem (s : State) (c : Nat) (pc : Word) (indirect : Bool) (target : Word) :
    (noteTarget s c pc indirect target).mem = s.mem := by simp [noteTarget]

@[simp] theorem mispredict_mem (s : State) (c : Nat) (branch target : Word) (indirect : Bool) :
    (mispredict s c branch target indirect).mem = s.mem := by simp [mispredict]

@[simp] theorem fenced_mem (c : Nat) (s : State) : (fenced c s).mem = s.mem := rfl
@[simp] theorem retire_mem (k : Call) (rep : Bool) (s : State) : (retire k rep s).mem = s.mem := by simp [retire]
@[simp] theorem passOver_mem (k : Call) (rep : Bool) (s : State) :
    (passOver k rep s).mem = s.mem := by simp [passOver]

@[simp] theorem groupDone_mem (c : Nat) (s : State) : (groupDone c s).mem = s.mem := by
  unfold groupDone
  split <;> simp

@[simp] theorem sensorRead_mem (s : State) (n : Nat) (raw : BitVec 16) (ok : Bool) :
    (sensorRead s n raw ok).mem = s.mem := rfl

@[simp] theorem sensorLimits_mem (s : State) (n : Nat) : (sensorLimits s n).mem = s.mem := by simp [sensorLimits]
@[simp] theorem noteTaken_mem (k : Call) (target : Word) (s : State) :
    (noteTaken k target s).mem = s.mem := by simp [noteTaken]

@[simp] theorem flushLine_mem (s : State) (ln : Nat) : (flushLine s ln).mem = s.mem := rfl
@[simp] theorem cinvrL1_mem (s : State) (o : Nat) (code : Bool) (hit : Nat → Bool) :
    (cinvrL1 s o code hit).1.mem = s.mem := rfl

@[simp] theorem cinvrL3_mem (s : State) (locked : Bool) (hit : CLine → Bool) : (cinvrL3 s locked hit).1.mem = s.mem :=
  State.foldl_mem (by intros; rfl) ..

@[simp] theorem cinvrLines_mem (k : Call) (whole : Bool) (hit : Nat → Bool) (s : State) :
    (cinvrLines k whole hit s).mem = s.mem := by
  unfold cinvrLines
  dsimp only
  split_ifs <;> simp [cinvrL2_mem]

end Sys2Proof.Machine
end

section
/-! PROOFS. The operations that may write memory keep its canonical form (log entry 1). -/
namespace Sys2Proof.Machine

/-- Memory in its canonical form, as a predicate that `simp` does not take apart. -/
def Memory.Canonical (m : List Host.Cell) : Prop := Memory.wf m
theorem memoryCanonical_iff {s : State} : MemoryCanonical s ↔ Memory.Canonical s.mem := Iff.rfl
@[simp] theorem Memory.canonical_nil : Memory.Canonical [] := reset_memory_wf
@[simp] theorem Memory.canonical_ite {p : Prop} [Decidable p] (m n : List Host.Cell) :
    Memory.Canonical (if p then m else n) ↔ if p then Memory.Canonical m else Memory.Canonical n := by
  split <;> rfl

@[simp] theorem Memory.canonical_writes {m : List Host.Cell} (a : Nat) (l : List Byte) (h : Memory.Canonical m) :
    Memory.Canonical (Memory.writes m a l) := Memory.wf_writes l m a h

theorem Memory.Canonical.foldl {α : Type} {f : State → α → State}
    (step : ∀ t a, Memory.Canonical t.mem → Memory.Canonical (f t a).mem) (l : List α) {s : State}
    (h : Memory.Canonical s.mem) : Memory.Canonical (l.foldl f s).mem :=
  List.foldlRecOn l f (motive := fun t => Memory.Canonical t.mem) h fun t before a _ => step t a before

theorem Memory.canonical_mk {ctxs pairs caches memc mem bus mbs sp ert fcr chan ports zips zctx ciph insts dup time crp aud free pending}
    (h : Memory.Canonical mem) : Memory.Canonical (State.mk ctxs pairs caches memc mem bus mbs sp ert fcr chan ports zips
      zctx ciph insts dup time crp aud free pending).mem := h

theorem MemoryCanonical.foldl {α : Type} {f : State → α → State}
    (step : ∀ t a, MemoryCanonical t → MemoryCanonical (f t a)) (l : List α) {s : State}
    (h : MemoryCanonical s) : MemoryCanonical (l.foldl f s) :=
  List.foldlRecOn l f (motive := MemoryCanonical) h fun t before a _ => step t a before

@[simp] theorem canonical_reset : Memory.Canonical State.reset.mem := reset_memory_wf
@[simp] theorem canonical_storeIn (s : State) (cls : BitVec 2) (a : Nat) (l : List Byte) (h : Memory.Canonical s.mem) :
    Memory.Canonical (s.storeIn cls a l).mem := by
  rw [State.storeIn_mem]
  exact Memory.canonical_writes _ _ h

@[simp] theorem canonical_store (s : State) (a : Nat) (l : List Byte) (h : Memory.Canonical s.mem) :
    Memory.Canonical (s.store a l).mem := canonical_storeIn s 2 a l h

@[simp] theorem canonical_agentStoreIn (s : State) (cls : BitVec 2) (inst : BitVec 8) (a : Nat) (l : List Byte)
    (h : Memory.Canonical s.mem) : Memory.Canonical (agentStoreIn s cls inst a l).mem :=
  (writes_agentStoreIn s cls inst a l).canonical h

@[simp] theorem canonical_agentStore (s : State) (inst : BitVec 8) (a : Nat) (l : List Byte)
    (h : Memory.Canonical s.mem) : Memory.Canonical (agentStore s inst a l).mem := by simp [agentStore, h]

@[simp] theorem canonical_agentStoreFor (s : State) (inst : BitVec 8) (innings : BitVec 12) (a : Nat) (l : List Byte)
    (h : Memory.Canonical s.mem) : Memory.Canonical (agentStoreFor s inst innings a l).mem :=
  (writes_agentStoreFor s inst innings a l).canonical h

@[simp] theorem canonical_loseDirty (s : State) (h : Memory.Canonical s.mem) : Memory.Canonical (loseDirty s).mem :=
  .foldl (fun _ _ => Memory.canonical_writes _ _) _ h

@[simp] theorem canonical_ertReset (s : State) (h : Memory.Canonical s.mem) :
    Memory.Canonical (ertReset s).mem := by simp [ertReset, h]

@[simp] theorem canonical_spoil (s : State) (inst : BitVec 8) (innings : BitVec 12) (a n : Nat)
    (h : Memory.Canonical s.mem) : Memory.Canonical (spoil s inst innings a n).mem := by
  unfold spoil
  split
  · exact h
  · exact canonical_agentStoreFor _ _ _ _ _ h

@[simp] theorem canonical_zipWriteEnd (s : State) (j : ZJob) (status : Nat) (openB : Bool)
    (unverified inC outP : Nat) (h : Memory.Canonical s.mem) :
    Memory.Canonical (zipWriteEnd s j status openB unverified inC outP).mem := by simp [zipWriteEnd, h]

@[simp] theorem canonical_zipEnd (s : State) (n : Nat) (j : ZJob) (status : Nat) (openB : Bool)
    (unverified inC outP : Nat) (h : Memory.Canonical s.mem) :
    Memory.Canonical (zipEnd s n j status openB unverified inC outP).mem := by simp [zipEnd, h]

@[simp] theorem canonical_zipReset (s : State) (n : Nat) (j : ZJob) (h : Memory.Canonical s.mem) :
    Memory.Canonical (zipReset s n j).mem := by simp [zipReset, h]

@[simp] theorem canonical_zipResetAll (s : State) (n : Nat) (h : Memory.Canonical s.mem) :
    Memory.Canonical (zipResetAll s n).mem :=
  .foldl (fun t j => canonical_zipReset t n j) _ h

@[simp] theorem canonical_zipBlockReset (s : State) (n : Nat) (h : Memory.Canonical s.mem) :
    Memory.Canonical (zipBlockReset s n).mem := by simp [zipBlockReset, h]

@[simp] theorem canonical_cipherWriteEnd (s : State) (j : CJob) (status outP : Nat) (h : Memory.Canonical s.mem) :
    Memory.Canonical (cipherWriteEnd s j status outP).mem := by simp [cipherWriteEnd, h]

@[simp] theorem canonical_cipherEnd (s : State) (k : Nat) (j : CJob) (status : Nat) (h : Memory.Canonical s.mem) :
    Memory.Canonical (cipherEnd s k j status).mem := by
  unfold cipherEnd
  dsimp only
  split
  · rw [raiseFor_mem]
    refine canonical_cipherWriteEnd _ _ _ _ ?_
    split
    · refine canonical_agentStoreFor _ _ _ _ _ ?_
      simp [h]
    · simp [h]
  · refine canonical_cipherWriteEnd _ _ _ _ ?_
    split
    · refine canonical_agentStoreFor _ _ _ _ _ ?_
      simp [h]
    · simp [h]

@[simp] theorem canonical_cipherStop (s : State) (k : Nat) (j : CJob) (status : Nat) (h : Memory.Canonical s.mem) :
    Memory.Canonical (cipherStop s k j status).mem := by simp [cipherStop, h]

@[simp] theorem canonical_cipherStopAll (s : State) (pick : CJob → Bool) (status : Nat) (h : Memory.Canonical s.mem) :
    Memory.Canonical (cipherStopAll s pick status).mem :=
  .foldl (fun _ k => .foldl (fun u j => canonical_cipherStop u k j status) _) _ h

@[simp] theorem canonical_eraseSlots (s : State) (a n : Nat) (h : Memory.Canonical s.mem) :
    Memory.Canonical (eraseSlots s a n).mem := by simp [eraseSlots, h]

@[simp] theorem canonical_ciphBlockReset (s : State) (h : Memory.Canonical s.mem) :
    Memory.Canonical (ciphBlockReset s).mem := by simp [ciphBlockReset, h]

@[simp] theorem canonical_alarm (s : State) (j : Nat) (h : Memory.Canonical s.mem) :
    Memory.Canonical (alarm s j).mem := by
  unfold alarm
  split
  · exact h
  · exact canonical_cipherStopAll _ _ _ (by simp [h])

@[simp] theorem canonical_alarmIfEnabled (s : State) (j : Nat) (h : Memory.Canonical s.mem) :
    Memory.Canonical (alarmIfEnabled s j).mem := by simp [alarmIfEnabled, h]

@[simp] theorem canonical_ctxCReset (s : State) (c : Nat) (h : Memory.Canonical s.mem) :
    Memory.Canonical (ctxCReset s c).mem := by simp [ctxCReset, h]

@[simp] theorem canonical_loadHost (s : State) (h : Memory.Canonical s.mem) : Memory.Canonical (loadHost s).mem := by
  rw [loadHost, releaseCtx_mem]
  exact canonical_store _ _ _ (canonical_store _ _ _ h)

@[simp] theorem canonical_boot (s : State) (img : BootImage) (h : Memory.Canonical s.mem) :
    Memory.Canonical (boot s img).mem := by
  cases img with
  | none => simp [boot, h]
  | slot n =>
    refine canonical_loadHost _ ?_
    rw [State.foldl_mem fun t k => card_mem t k 5 0 0 0]
    refine Memory.canonical_mk ?_
    rw [State.mem_ite]
    simp [h]

@[simp] theorem canonical_pReset (s : State) : Memory.Canonical (pReset s).mem := Memory.canonical_nil
@[simp] theorem canonical_mReset (s : State) (cause : BitVec 3) (h : Memory.Canonical s.mem) :
    Memory.Canonical (mReset s cause).mem := by simp [mReset, h]

@[simp] theorem canonical_afterM (s : State) (img : BootImage) (h : Memory.Canonical s.mem) :
    Memory.Canonical (afterM s img).mem := by simp [afterM, h]

@[simp] theorem canonical_chanRestore (s : State) (h : Memory.Canonical s.mem) :
    Memory.Canonical (chanRestore s).mem := by simp [chanRestore, h]

@[simp] theorem canonical_entropyReset (s : State) (h : Memory.Canonical s.mem) :
    Memory.Canonical (entropyReset s).mem := by simp [entropyReset, h]

@[simp] theorem canonical_blockReset (s : State) (b : Blk) (h : Memory.Canonical s.mem) :
    Memory.Canonical (blockReset s b).mem := by
  unfold blockReset
  split
  · exact h
  · cases b with
    | ert => simp [h]
    | chan =>
      dsimp only
      split
      · exact canonical_chanRestore _ h
      · exact h
    | zip n => exact canonical_zipBlockReset _ _ h
    | ciph => exact canonical_ciphBlockReset _ h
    | time => exact canonical_entropyReset _ h
    | sp => simp [h]

@[simp] theorem canonical_warmPerform (s : State) (h : Memory.Canonical s.mem) :
    Memory.Canonical (warmPerform s).mem := by
  unfold warmPerform
  dsimp only
  refine canonical_loadHost _ ?_
  dsimp only
  refine canonical_entropyReset _ (canonical_chanRestore _ (.foldl canonical_ctxCReset _ (canonical_ertReset _ ?_)))
  rw [measure_mem, closeCards_mem, flushAll_mem]
  exact canonical_ciphBlockReset _ (.foldl canonical_zipBlockReset _ h)

@[simp] theorem canonical_warmAdvance (s : State) (h : Memory.Canonical s.mem) :
    Memory.Canonical (warmAdvance s).mem := by
  unfold warmAdvance
  split <;> simp [h]

@[simp] theorem canonical_resetTarget (s : State) (t : Target) (h : Memory.Canonical s.mem) :
    Memory.Canonical (resetTarget s t).mem := by
  cases t with
  | blk b => exact canonical_blockReset s b h
  | pair p => exact .foldl canonical_ctxCReset _ h
  | none => exact h

@[simp] theorem canonical_pinKey (s : State) (pin key : Bool) (h : Memory.Canonical s.mem) :
    Memory.Canonical (pinKey s pin key).mem := by simp [pinKey, h]

@[simp] theorem canonical_openNew (s : State) (c : CardIn) (h : Memory.Canonical s.mem) :
    Memory.Canonical (openNew s c).mem := by
  have pinned := canonical_pinKey s (pinOf (reactOf s c.source) c.sev.toNat) (keyOf (reactOf s c.source) c.sev.toNat) h
  unfold openNew
  dsimp only
  split_ifs <;> simp [pinned]

@[simp] theorem canonical_mergeCard (s : State) (o : OpenCard) (c : CardIn) (h : Memory.Canonical s.mem) :
    Memory.Canonical (mergeCard s o c).mem := by
  have kept (t : State) (same : t.mem = s.mem) (pin key block : Bool) (target : Target) :
      Memory.Canonical (if block then resetTarget (pinKey t pin key) target else pinKey t pin key).mem := by
    have pinned := canonical_pinKey t pin key (same ▸ h)
    split
    · exact canonical_resetTarget _ _ pinned
    · exact pinned
  unfold mergeCard
  extract_lets
  split
  · rw [mctCard_mem]
    exact kept _ (setCard_mem ..) _ _ _ _
  · exact kept _ (setCard_mem ..) _ _ _ _

@[simp] theorem canonical_orderModule (s : State) (c : CardIn) (h : Memory.Canonical s.mem) :
    Memory.Canonical (orderModule s c).mem := by
  have pinned := canonical_pinKey s (pinOf (reactOf s c.source) c.sev.toNat) (keyOf (reactOf s c.source) c.sev.toNat) h
  unfold orderModule
  extract_lets w sev o t
  split
  · exact Memory.canonical_mk pinned
  · exact Memory.canonical_mk pinned

@[simp] theorem canonical_takeCard (s : State) (c : CardIn) (h : Memory.Canonical s.mem) :
    Memory.Canonical (takeCard s c).mem := by
  unfold takeCard
  split
  · exact canonical_orderModule s c h
  · dsimp only
    split
    · exact canonical_openNew _ c h
    · exact canonical_mergeCard _ _ c h

@[simp] theorem canonical_takeAll (s : State) (h : Memory.Canonical s.mem) : Memory.Canonical (takeAll s).mem :=
  .foldl canonical_takeCard _ h

@[simp] theorem canonical_performModule (s : State) (h : Memory.Canonical s.mem) :
    Memory.Canonical (performModule s).mem := by simp [performModule, h]

@[simp] theorem canonical_settleRounds (k : Nat) (s : State) (h : Memory.Canonical s.mem) :
    Memory.Canonical (settleRounds k s).mem := by
  induction k generalizing s with
  | zero => exact h
  | succ k ih =>
    unfold settleRounds
    split
    · exact h
    · exact ih _ (canonical_warmAdvance _ (canonical_performModule _ (canonical_takeAll s h)))

@[simp] theorem canonical_settle (s : State) (h : Memory.Canonical s.mem) : Memory.Canonical (settle s).mem := by
  simp [settle, h]

@[simp] theorem canonical_resumeOn (s : State) (p b : Nat) (h : Memory.Canonical s.mem) :
    Memory.Canonical (resumeOn s p b).mem := by simp [resumeOn, h]

@[simp] theorem canonical_memOp (s : State) (op : MemOp) (line : Nat) (h : Memory.Canonical s.mem) :
    Memory.Canonical (memOp s op line).mem := by
  cases op <;> simp [memOp, h]

@[simp] theorem canonical_entropyFail (s : State) (h : Memory.Canonical s.mem) :
    Memory.Canonical (entropyFail s).mem := by simp [entropyFail, h]

theorem canonical_healthTest (s : State) (l : List Bool) {pass : State → State}
    (passes : ∀ t, Memory.Canonical t.mem → Memory.Canonical (pass t).mem) (h : Memory.Canonical s.mem) :
    Memory.Canonical (healthTest s l pass).mem := by
  unfold healthTest
  split
  · exact passes _ h
  · exact canonical_entropyFail _ (by simp [h])

@[simp] theorem canonical_drbgSeed (s : State) (raw : BitVec 1024) (h : Memory.Canonical s.mem) :
    Memory.Canonical (drbgSeed s raw).mem := by simp [drbgSeed, h]

@[simp] theorem canonical_setSd (s : State) (sub i : Nat) (v : Word) (h : Memory.Canonical s.mem) :
    Memory.Canonical (setSd s sub i v).mem := (writes_setSd s sub i v).canonical h

@[simp] theorem canonical_setSdState (s : State) (sub st : Nat) (h : Memory.Canonical s.mem) :
    Memory.Canonical (setSdState s sub st).mem := canonical_setSd _ _ _ _ h

@[simp] theorem canonical_journalStore (s : State) (i a : Nat) (l : List Byte) (h : Memory.Canonical s.mem) :
    Memory.Canonical (journalStore s i a l).mem := by simp [journalStore, h]

@[simp] theorem canonical_journal (s : State) (e : JEntry) (h : Memory.Canonical s.mem) :
    Memory.Canonical (journal s e).1.mem := (writes_journal s e).canonical h

theorem canonical_journalled {s t : State} {e : JEntry} {i : Nat} (eq : journal s e = (t, i))
    (h : Memory.Canonical s.mem) : Memory.Canonical t.mem := by
  simpa [eq] using canonical_journal s e h

@[simp] theorem canonical_journalUpdate (s : State) (i idx st status : Nat) (resolved : Bool)
    (h : Memory.Canonical s.mem) : Memory.Canonical (journalUpdate s i idx st status resolved).mem :=
  (writes_journalUpdate s i idx st status resolved).canonical h

@[simp] theorem canonical_journalFilled (s : State) (i idx opb : Nat) (h : Memory.Canonical s.mem) :
    Memory.Canonical (journalFilled s i idx opb).mem := by simp [journalFilled, h]

@[simp] theorem canonical_writeRec (s : State) (sub : Nat) (r : Rec) (h : Memory.Canonical s.mem) :
    Memory.Canonical (writeRec s sub r).mem := (writes_writeRec s sub r).canonical h

@[simp] theorem canonical_refuse (s : State) (r : Req) (sub opb status : Nat) (h : Memory.Canonical s.mem) :
    Memory.Canonical (refuse s r sub opb status).mem := canonical_writeRec _ _ _ h

@[simp] theorem canonical_finishSend (s : State) (o : SendOp) (h : Memory.Canonical s.mem) :
    Memory.Canonical (finishSend s o).mem := (reports_finishSend s o).canonical h

@[simp] theorem canonical_endSend (s : State) (o : SendOp) (jst status reason : Nat) (resolved : Bool)
    (h : Memory.Canonical s.mem) : Memory.Canonical (endSend s o jst status reason resolved).mem :=
  (reports_endSend s o jst status reason resolved).canonical h

@[simp] theorem canonical_definiteFailure (s : State) (o : SendOp) (reason : Nat) (h : Memory.Canonical s.mem) :
    Memory.Canonical (definiteFailure s o reason).mem := by
  have others (t : State) (k : SendOp) (before : MemoryCanonical t) : MemoryCanonical (endSend t k 2 2 5 false) :=
    memoryCanonical_iff.2 (canonical_endSend t k 2 2 5 false before)
  rw [definiteFailure_eq, ← memoryCanonical_iff]
  refine .foldl others _ (memoryCanonical_iff.2 (canonical_setSdState _ _ _ ?start))
  rw [failed, raiseFor_mem, card_mem]
  exact canonical_endSend _ _ _ _ _ _ h

@[simp] theorem canonical_attemptFailed (s : State) (o : SendOp) (h : Memory.Canonical s.mem) :
    Memory.Canonical (attemptFailed s o).mem := by simp [attemptFailed, h]

@[simp] theorem canonical_acceptSend (s : State) (r : Req) (sub opb : Nat) (w : List Word) (h : Memory.Canonical s.mem) :
    Memory.Canonical (acceptSend s r sub opb w).mem := by
  fun_cases acceptSend s r sub opb w
  case case1 => exact canonical_writeRec _ _ _ h
  case case2 => rwa [setSend_mem]
  case case3 eq => exact canonical_writeRec _ _ _ (canonical_journalled eq h)
  case case4 => exact canonical_writeRec _ _ _ h
  case case5 t _ _ eq _ =>
    have sent (v : Word) := memoryCanonical_iff.2 (canonical_setSd s sub 2 v h)
    replace sent : MemoryCanonical t := sent _
    have noted := memoryCanonical_iff.2 (canonical_journalled eq (memoryCanonical_iff.1 sent))
    exact Memory.canonical_mk (memoryCanonical_iff.1 ((writes_chanJoin ..).canonical noted))

@[simp] theorem canonical_fillRecv (s : State) (o : RecvOp) (m : RxMsg) (h : Memory.Canonical s.mem) :
    Memory.Canonical (fillRecv s o m).mem := (writes_fillRecv s o m).canonical h

@[simp] theorem canonical_advanceRx (k : Nat) (s : State) (sub : Nat) (h : Memory.Canonical s.mem) :
    Memory.Canonical (advanceRx k s sub).mem := (writes_advanceRx k s sub).canonical h

@[simp] theorem canonical_deliverReady (k : Nat) (s : State) (sub : Nat) (h : Memory.Canonical s.mem) :
    Memory.Canonical (deliverReady k s sub).mem := (writes_deliverReady k s sub).canonical h

@[simp] theorem canonical_recordOpid (s : State) (sub : Nat) (seq : BitVec 48) (opid : Word)
    (h : Memory.Canonical s.mem) : Memory.Canonical (recordOpid s sub seq opid).mem := by simp [recordOpid, h]

@[simp] theorem canonical_receiveMsg (s : State) (m : RxMsg) (h : Memory.Canonical s.mem) :
    Memory.Canonical (receiveMsg s m).mem := by
  have recorded := canonical_recordOpid s m.s m.h.seq m.h.opid h
  unfold receiveMsg
  refine canonical_deliverReady _ _ _ ?_
  rw [queueOut_mem]
  split
  · exact Memory.canonical_mk recorded
  · exact canonical_setSd _ _ _ _ (Memory.canonical_mk recorded)

@[simp] theorem canonical_acceptRecv (s : State) (r : Req) (sub opb : Nat) (w : List Word) (h : Memory.Canonical s.mem) :
    Memory.Canonical (acceptRecv s r sub opb w).mem := canonical_deliverReady _ _ _ h

@[simp] theorem canonical_doorbell (s : State) (r : Req) (sub opb : Nat) (h : Memory.Canonical s.mem) :
    Memory.Canonical (doorbell s r sub opb).mem := by simp [doorbell, h]

@[simp] theorem canonical_doorbellWrite (s : State) (r : Req) (sub : Nat) (v : Word) (off : Nat)
    (h : Memory.Canonical s.mem) : Memory.Canonical (doorbellWrite s r sub v off).mem := by simp [doorbellWrite, h]

@[simp] theorem canonical_cancelRecvs (s : State) (pick : RecvOp → Bool) (h : Memory.Canonical s.mem) :
    Memory.Canonical (cancelRecvs s pick).mem := by
  unfold cancelRecvs
  refine .foldl (fun t o before => ?_) _ (Memory.canonical_mk h)
  exact canonical_writeRec _ _ _ before

@[simp] theorem canonical_bindFresh (s : State) (sub : Nat) (h : Memory.Canonical s.mem) :
    Memory.Canonical (bindFresh s sub).mem := by
  unfold bindFresh
  dsimp only
  split
  · exact h
  · refine canonical_setSd _ _ _ _ (canonical_setSd _ _ _ _ (canonical_setSd _ _ _ _ (canonical_setSd _ _ _ _ ?_)))
    simpa using h

@[simp] theorem canonical_startSync (s : State) (sub : Nat) (h : Memory.Canonical s.mem) :
    Memory.Canonical (startSync s sub).mem := by
  rw [startSync, sendSync_mem]
  exact canonical_setSd _ _ _ _ (by simp [h])

@[simp] theorem canonical_bindSync (s : State) (sub : Nat) (h : Memory.Canonical s.mem) :
    Memory.Canonical (bindSync s sub).mem := by simp [bindSync, h]

@[simp] theorem canonical_unbind (s : State) (sub : Nat) (h : Memory.Canonical s.mem) :
    Memory.Canonical (unbind s sub).mem := by simp [unbind, h]

@[simp] theorem canonical_unbindDone (s : State) (sub : Nat) (h : Memory.Canonical s.mem) :
    Memory.Canonical (unbindDone s sub).mem := by simp [unbindDone, h]

@[simp] theorem canonical_chanBindWrite (s : State) (v : Word) (h : Memory.Canonical s.mem) :
    Memory.Canonical (chanBindWrite s v).mem := by simp [chanBindWrite, h]

@[simp] theorem canonical_resolveEntry (rx : Nat) (map : Word) (i sub : Nat) (s : State) (idx : Nat)
    (h : Memory.Canonical s.mem) : Memory.Canonical (resolveEntry rx map i sub s idx).mem :=
  (reports_resolveEntry rx map i sub s idx).canonical h

@[simp] theorem canonical_resolveUnknown (rx : Nat) (map : Word) (opids : List Word) (i sub : Nat) (s : State) (seq : Nat)
    (h : Memory.Canonical s.mem) : Memory.Canonical (resolveUnknown rx map opids i sub s seq).mem :=
  (reports_resolveUnknown rx map opids i sub s seq).canonical h

@[simp] theorem canonical_synchronise (s : State) (sub rx : Nat) (map : Word) (opids : List Word)
    (h : Memory.Canonical s.mem) : Memory.Canonical (synchronise s sub rx map opids).mem := by
  unfold synchronise
  refine canonical_setSdState _ _ _ (.foldl (canonical_resolveUnknown _ _ _ _ _) _ ?_)
  rw [State.foldl_mem (noteResolved_mem _ _)]
  exact .foldl (canonical_resolveEntry _ _ _ _) _ h

@[simp] theorem canonical_releaseMirrored (s : State) (h : Memory.Canonical s.mem) :
    Memory.Canonical (releaseMirrored s).mem := by
  unfold releaseMirrored
  split
  · exact h
  · exact .foldl canonical_receiveMsg _ (.foldl canonical_finishSend _ h)

@[simp] theorem canonical_dataMsg (s : State) (port : Nat) (m : MsgHdr) (payload : List Byte)
    (h : Memory.Canonical s.mem) : Memory.Canonical (dataMsg s port m payload).mem := by
  fun_cases dataMsg s port m payload
  case case10 eq _ _ => exact Memory.canonical_mk (canonical_journalled eq h)
  case case11 eq _ _ => exact canonical_receiveMsg _ _ (canonical_journalled eq h)
  all_goals simpa using h

@[simp] theorem canonical_nakSend (s : State) (o : SendOp) (r : NakReason) (h : Memory.Canonical s.mem) :
    Memory.Canonical (nakSend s o r).mem := by
  cases r <;> simp [nakSend, h]

@[simp] theorem canonical_syncSkip (s : State) (sub seq : Nat) (h : Memory.Canonical s.mem) :
    Memory.Canonical (syncSkip s sub seq).mem := by
  unfold syncSkip
  extract_lets rx
  split
  · exact h
  split
  · split
    · exact h
    · exact canonical_deliverReady _ _ _ (canonical_advanceRx _ _ _ h)
  · exact canonical_setSd _ _ _ _ h

@[simp] theorem canonical_cipherSubmit (s : State) (r : Req) (k : Nat) (v : Word) (off : Nat) (h : Memory.Canonical s.mem) :
    Memory.Canonical (cipherSubmit s r k v off).mem := by
  have refused (j : CJob) (st : Nat) : Memory.Canonical (cipherWriteEnd s.drawn j st 0).mem :=
    canonical_cipherWriteEnd _ _ _ _ h
  unfold cipherSubmit
  dsimp only
  split
  · simpa using h
  · split
    · split
      · rw [raiseFor_mem]
        exact refused _ _
      · exact refused _ _
    · rw [setCipherQueue_mem, cipherJoin_mem]
      exact h

@[simp] theorem canonical_takeIv (s : State) (j : CJob) (k : KeySlot) (h : Memory.Canonical s.mem) :
    Memory.Canonical (takeIv s j k).1.mem := by
  unfold takeIv
  split <;> simp [h]

@[simp] theorem canonical_cipherStart (s : State) (k : Nat) (j : CJob) (h : Memory.Canonical s.mem) :
    Memory.Canonical (cipherStart s k j).1.mem := by
  unfold cipherStart
  split
  · exact canonical_cipherStop _ _ _ _ h
  split
  · exact canonical_cipherEnd _ _ _ _ h
  dsimp only
  split
  · exact canonical_cipherEnd _ _ _ _ h
  split
  · exact canonical_cipherEnd _ _ _ _ h
  split
  · exact canonical_cipherEnd _ _ _ _ h
  split
  · exact canonical_cipherEnd _ _ _ _ h
  rw [setCJob_mem]
  split
  · exact canonical_takeIv _ _ _ h
  · exact h

@[simp] theorem canonical_cipherFinish (s : State) (k : Nat) (j : CJob) (h : Memory.Canonical s.mem) :
    Memory.Canonical (cipherFinish s k j).mem := by simp [cipherFinish, h]

@[simp] theorem canonical_cipherStep (s : State) (k : Nat) (j : CJob) (h : Memory.Canonical s.mem) :
    Memory.Canonical (cipherStep s k j).mem := by
  unfold cipherStep
  dsimp only
  split_ifs
  · exact canonical_cipherEnd _ _ _ _ h
  · exact canonical_cipherFinish _ _ _ (by simp [h])
  · simp [h]

@[simp] theorem canonical_laneFailed (s : State) (k : Nat) (j : CJob) (h : Memory.Canonical s.mem) :
    Memory.Canonical (laneFailed s k j).mem := by simp [laneFailed, h]

@[simp] theorem canonical_runUnit (s : State) (k : Nat) (lane : Option (Fin 24)) (j : CJob)
    (h : Memory.Canonical s.mem) : Memory.Canonical (runUnit s k lane j).mem := by
  unfold runUnit
  split <;> simp [h]

@[simp] theorem canonical_cipherServe (s : State) (k : Nat) (lane : Option (Fin 24)) (h : Memory.Canonical s.mem) :
    Memory.Canonical (cipherServe s k lane).mem := by
  unfold cipherServe
  split
  · exact h
  next i _ =>
    split
    · exact h
    next j _ _ =>
      have started := canonical_cipherStart s k j h
      split
      · exact canonical_runUnit _ _ _ _ h
      · split
        next t eq => rwa [eq] at started
        next t j' eq =>
          rw [eq] at started
          exact canonical_runUnit _ _ _ _ started

@[simp] theorem canonical_alarmClear (s : State) (v : Word) (h : Memory.Canonical s.mem) :
    Memory.Canonical (alarmClear s v).mem := by simp [alarmClear, h]

@[simp] theorem canonical_portUp (s : State) (n : Nat) (h : Memory.Canonical s.mem) :
    Memory.Canonical (portUp s n).mem := by simp [portUp, h]

@[simp] theorem canonical_soloRelease (s : State) (h : Memory.Canonical s.mem) :
    Memory.Canonical (soloRelease s).mem := by simp [soloRelease, h]

@[simp] theorem takeNote_mem (s : State) (n : Nat) (k : LinkNote) : (takeNote s n k).mem = s.mem := by
  cases k <;> simp [takeNote]

@[simp] theorem goodFlit_mem (s : State) (n : Nat) (f : Flit) : (goodFlit s n f).mem = s.mem := by
  unfold goodFlit
  dsimp only
  cases f.link <;> simp

@[simp] theorem canonical_receiveFlit (s : State) (n : Nat) (f : Flit) (h : Memory.Canonical s.mem) :
    Memory.Canonical (receiveFlit s n f).mem := by simp [receiveFlit, h]

@[simp] theorem canonical_laneFails (s : State) (n lane : Nat) (h : Memory.Canonical s.mem) :
    Memory.Canonical (laneFails s n lane).mem := by simp [laneFails, h]

@[simp] theorem canonical_inbound (s : State) (port : Bool) (r : PcieReq) (h : Memory.Canonical s.mem) :
    Memory.Canonical (inbound s port r).mem := by
  cases r with
  | read a n => exact h
  | write a l => simp [inbound, h]

@[simp] theorem canonical_applyBytes (s : State) (a : Nat) (l : List Byte) (h : Memory.Canonical s.mem) :
    Memory.Canonical (applyBytes s a l).mem := by
  unfold applyBytes
  dsimp only
  rw [State.foldl_mem fun t ln => (l3Insert_mem ..).trans (dropOthers_mem t 99 ln)]
  exact Memory.canonical_writes _ _ h

@[simp] theorem canonical_applySectors (mask : BitVec 8) (line : Nat) (l : List Nat) (data : List Byte) (s : State)
    (h : Memory.Canonical s.mem) : Memory.Canonical (applySectors mask line l data s).mem := by
  induction l generalizing data s with
  | nil => exact h
  | cons j l ih =>
    unfold applySectors
    split
    · exact ih _ _ (canonical_applyBytes _ _ _ h)
    · exact ih _ _ h

@[simp] theorem canonical_applyWrite (s : State) (line : Nat) (mask : BitVec 8) (data : List Byte)
    (h : Memory.Canonical s.mem) : Memory.Canonical (applyWrite s line mask data).mem := by
  have kept : Memory.Canonical (uncommit s line).mem := by simpa using h
  unfold applyWrite
  dsimp only
  split
  · rw [countApplied_mem]
    split
    · exact canonical_applyBytes _ _ _ kept
    · exact canonical_applySectors _ _ _ _ _ kept
  · simpa using h

@[simp] theorem canonical_takeSub (s : State) (sub : Nat) (h : Memory.Canonical s.mem) :
    Memory.Canonical (takeSub s sub).mem := by simp [takeSub, h]

@[simp] theorem canonical_startTakeover (s : State) (h : Memory.Canonical s.mem) :
    Memory.Canonical (startTakeover s).mem := by
  unfold startTakeover
  refine .foldl canonical_takeSub _ ?_
  rw [State.foldl_mem fun t p => State.setJour_mem ..]
  rw [sendClaims_mem]
  rwa [dupMove_mem]

@[simp] theorem canonical_finishTakeover (s : State) (h : Memory.Canonical s.mem) :
    Memory.Canonical (finishTakeover s).mem := by
  unfold finishTakeover
  dsimp only
  split <;> simp [h]

@[simp] theorem canonical_bindFails (s : State) (code : Nat) (h : Memory.Canonical s.mem) :
    Memory.Canonical (bindFails s code).mem := by
  unfold bindFails
  split <;> simp [h]

@[simp] theorem canonical_bindHeard (s : State) (role : Bool) (modid : BitVec 14) (st : BitVec 3)
    (bind : Option BindInfo) (h : Memory.Canonical s.mem) :
    Memory.Canonical (bindHeard s role modid st bind).mem := by
  unfold bindHeard
  split <;> simp [h]

@[simp] theorem canonical_partnerLoss (s : State) (h : Memory.Canonical s.mem) :
    Memory.Canonical (partnerLoss s).mem := by
  unfold partnerLoss
  split <;> simp [h]

@[simp] theorem canonical_enterSolo (s : State) (h : Memory.Canonical s.mem) :
    Memory.Canonical (enterSolo s).mem := by simp [enterSolo, h]

@[simp] theorem canonical_checkpointWrite (s : State) (c : Nat) (h : Memory.Canonical s.mem) :
    Memory.Canonical (checkpointWrite s c).mem := by simp [checkpointWrite, h]

@[simp] theorem canonical_duplexTakeover (s : State) (n : Nat) (h : Memory.Canonical s.mem) :
    Memory.Canonical (duplexTakeover s n).mem := by simp [duplexTakeover, h]

@[simp] theorem canonical_goAbort (s : State) (n : Nat) (h : Memory.Canonical s.mem) :
    Memory.Canonical (goAbort s n).mem := by
  unfold goAbort
  dsimp only
  split <;> simp [h]

@[simp] theorem canonical_goWrite (s : State) (n : Nat) (r : Req) (v : Word) (h : Memory.Canonical s.mem) :
    Memory.Canonical (goWrite s n r v).mem := by
  unfold goWrite
  split <;> simp [h]

@[simp] theorem canonical_zipSubmit (s : State) (r : Req) (n : Nat) (v : Word) (off : Nat) (h : Memory.Canonical s.mem) :
    Memory.Canonical (zipSubmit s r n v off).mem := by
  have refused (j : ZJob) : Memory.Canonical (zipWriteEnd s.drawn j 7 false 0 0 0).mem :=
    canonical_zipWriteEnd _ _ _ _ _ _ _ h
  unfold zipSubmit
  dsimp only
  split
  · simpa using h
  · split
    · split
      · rw [raiseFor_mem]
        exact refused _
      · exact refused _
    · rw [State.setZip_mem, zipJoin_mem]
      exact h

@[simp] theorem canonical_saveCtx (s : State) (j : ZJob) (h : Memory.Canonical s.mem) :
    Memory.Canonical (saveCtx s j).mem := canonical_agentStoreFor _ _ _ _ _ h

@[simp] theorem canonical_zipEndOpen (s : State) (n : Nat) (j : ZJob) (status : Nat) (h : Memory.Canonical s.mem) :
    Memory.Canonical (zipEndOpen s n j status).mem := by simp [zipEndOpen, h]

@[simp] theorem canonical_zipEndShut (s : State) (n : Nat) (j : ZJob) (status : Nat) (h : Memory.Canonical s.mem) :
    Memory.Canonical (zipEndShut s n j status).mem := by simp [zipEndShut, h]

@[simp] theorem canonical_zipFull (s : State) (n : Nat) (j : ZJob) (h : Memory.Canonical s.mem) :
    Memory.Canonical (zipFull s n j).mem := by simp [zipFull, h]

@[simp] theorem canonical_zipMemError (s : State) (n : Nat) (j : ZJob) (h : Memory.Canonical s.mem) :
    Memory.Canonical (zipMemError s n j).mem := by simp [zipMemError, h]

@[simp] theorem canonical_zipStart (s : State) (n : Nat) (j : ZJob) (h : Memory.Canonical s.mem) :
    Memory.Canonical (zipStart s n j).1.mem := by
  fun_cases zipStart s n j
  case case1 => exact canonical_zipReset _ _ _ h
  case case8 => rwa [setZJob_mem, State.setZip_mem]
  all_goals exact canonical_zipEndShut _ _ _ _ h

@[simp] theorem canonical_zipAdvance (s : State) (n : Nat) (j : ZJob) (z : ZStream) (o : ZOut)
    (consumed : Nat) (h : Memory.Canonical s.mem) :
    Memory.Canonical (zipAdvance s n j z o consumed).1.mem := by simp [zipAdvance, h]

@[simp] theorem canonical_compressChunk (s : State) (n : Nat) (j : ZJob) (t : FmtTable) (whole : Nat)
    (h : Memory.Canonical s.mem) : Memory.Canonical (compressChunk s n j t whole).mem := by simp [compressChunk, h]

@[simp] theorem canonical_compressFlush (s : State) (n : Nat) (j : ZJob) (t : FmtTable) (h : Memory.Canonical s.mem) :
    Memory.Canonical (compressFlush s n j t).mem := by simp [compressFlush, h]

@[simp] theorem canonical_compressPause (s : State) (n : Nat) (j : ZJob) (h : Memory.Canonical s.mem) :
    Memory.Canonical (compressPause s n j).mem := by simp [compressPause, h]

@[simp] theorem canonical_compressStep (s : State) (n : Nat) (j : ZJob) (h : Memory.Canonical s.mem) :
    Memory.Canonical (compressStep s n j).mem := by
  unfold compressStep
  split <;> simp [h]

@[simp] theorem canonical_formatError (s : State) (n : Nat) (j : ZJob) (h : Memory.Canonical s.mem) :
    Memory.Canonical (formatError s n j).mem := canonical_zipEndShut _ _ _ _ h

@[simp] theorem canonical_inputShort (s : State) (n : Nat) (j : ZJob) (h : Memory.Canonical s.mem) :
    Memory.Canonical (inputShort s n j).mem := by simp [inputShort, h]

@[simp] theorem canonical_inputDone (s : State) (n : Nat) (j : ZJob) (h : Memory.Canonical s.mem) :
    Memory.Canonical (inputDone s n j).mem := by simp [inputDone, h]

@[simp] theorem canonical_decodeStop (s : State) (n : Nat) (j : ZJob) (e : QErr) (h : Memory.Canonical s.mem) :
    Memory.Canonical (decodeStop s n j e).mem := by
  cases e <;> simp [decodeStop, h]

@[simp] theorem canonical_zipOutput (s : State) (n : Nat) (j : ZJob) (z : ZStream) (pos : Nat) (l : List Byte)
    (h : Memory.Canonical s.mem) : Memory.Canonical (zipOutput s n j z pos l).1.mem := by simp [zipOutput, h]

@[simp] theorem canonical_checkFail (s : State) (n : Nat) (j : ZJob) (h : Memory.Canonical s.mem) :
    Memory.Canonical (checkFail s n j).mem := by simp [checkFail, h]

@[simp] theorem canonical_decodeClose (s : State) (n : Nat) (j : ZJob) (t : FmtTable) (pos : Nat)
    (h : Memory.Canonical s.mem) : Memory.Canonical (decodeClose s n j t pos).mem := by
  unfold decodeClose
  dsimp only
  split
  · exact canonical_decodeStop _ _ _ _ h
  split
  · exact canonical_checkFail _ _ _ h
  split
  · exact canonical_zipEndOpen _ _ _ _ h
  next tail w q _ _ _ =>
    have output := canonical_zipOutput s n j j.stream q tail h
    split
    · exact canonical_inputDone _ _ _ output
    · exact output

@[simp] theorem canonical_decodeChunk (s : State) (n : Nat) (j : ZJob) (t : FmtTable) (h : Memory.Canonical s.mem) :
    Memory.Canonical (decodeChunk s n j t).mem := by
  unfold decodeChunk
  dsimp only
  split
  · exact canonical_decodeStop _ _ _ _ h
  · exact canonical_decodeClose _ _ _ _ _ h
  split
  · exact canonical_formatError _ _ _ h
  split
  · exact canonical_zipMemError _ _ _ h
  split
  · exact canonical_decodeStop _ _ _ _ h
  split
  · exact canonical_formatError _ _ _ h
  split
  · exact canonical_zipEndOpen _ _ _ _ h
  · exact canonical_zipOutput _ _ _ _ _ _ h

@[simp] theorem canonical_decodeHeader (s : State) (n : Nat) (j : ZJob) (h : Memory.Canonical s.mem) :
    Memory.Canonical (decodeHeader s n j).mem := by
  unfold decodeHeader
  split
  · exact canonical_decodeStop _ _ _ _ h
  dsimp only
  split
  · exact canonical_formatError _ _ _ h
  split
  · exact canonical_zipEndShut _ _ _ _ h
  split
  · exact canonical_zipEndShut _ _ _ _ h
  · exact canonical_decodeChunk _ _ _ _ h

@[simp] theorem canonical_decompressStep (s : State) (n : Nat) (j : ZJob) (h : Memory.Canonical s.mem) :
    Memory.Canonical (decompressStep s n j).mem := by
  unfold decompressStep
  split
  · split
    · exact canonical_zipEndShut _ _ _ _ h
    · simp [h]
  · simp [h]

@[simp] theorem canonical_zipStep (s : State) (n : Nat) (j : ZJob) (h : Memory.Canonical s.mem) :
    Memory.Canonical (zipStep s n j).mem := by simp [zipStep, h]

@[simp] theorem canonical_zipServe (s : State) (n : Nat) (internalError : Bool) (h : Memory.Canonical s.mem) :
    Memory.Canonical (zipServe s n internalError).mem := by
  unfold zipServe
  dsimp only
  split
  · exact h
  split
  · exact h
  next j _ =>
    have started := canonical_zipStart s n j h
    split
    · exact canonical_zipStep _ _ _ (by simpa using h)
    · split
      next t eq => rwa [eq] at started
      next t j' eq =>
        rw [eq] at started
        exact canonical_zipStep _ _ _ (by simpa using started)

@[simp] theorem regReadEffect_mem (s : State) (r : Req) (lo w : Nat) (g : Reg) :
    (regReadEffect s r lo w g).mem = s.mem := by
  cases g <;> simp [regReadEffect]

@[simp] theorem dropWhole_mem (s : State) (r : Req) (off : Nat) (bad : Bool) {t : State} (same : t.mem = s.mem) :
    (dropWhole s r off bad t).mem = s.mem := by
  unfold dropWhole
  split
  · exact accessCard_mem ..
  · exact same

@[simp] theorem ctxMask_mem (s : State) (v : Word) {f : State → Nat → State} (step : ∀ t c, (f t c).mem = t.mem) :
    (ctxMask s v f).mem = s.mem := State.foldl_mem step _ s

@[simp] theorem canonical_regWrite (s : State) (r : Req) (off : Nat) (v : Word) (g : Reg) (h : Memory.Canonical s.mem) :
    Memory.Canonical (regWrite s r off v g).mem := by
  cases g
  case mbGo n => exact canonical_goWrite _ _ _ _ h
  case chanBind => exact canonical_chanBindWrite _ _ h
  case chanDb n => exact canonical_doorbellWrite _ _ _ _ _ h
  case zipSubmit n => exact canonical_zipSubmit _ _ _ _ _ h
  case ciphSubmit k => exact canonical_cipherSubmit _ _ _ _ _ h
  case ciphAlarm => exact canonical_alarmClear _ _ h
  case crpBrst => exact canonical_soloRelease _ (.foldl (fun _ _ => canonical_blockReset _ _) _ h)
  case crpCtxrst => exact .foldl canonical_ctxCReset _ h
  case crpCtxstart => exact (ctxMask_mem s v releaseCtx_mem).symm ▸ h
  case crpCtxwake => exact (ctxMask_mem s v wakeLatchSet_mem).symm ▸ h
  case ertEoi => cases r <;> simp [regWrite, h]
  case ertCstat => cases r <;> simp [regWrite, h]
  all_goals simp [regWrite, dropWhole, h]

@[simp] theorem canonical_lkStore (s : State) (r : Req) (off : Nat) (v : Word) (g : Reg) (h : Memory.Canonical s.mem) :
    Memory.Canonical (lkStore s r off v g).mem := by
  cases g
  case dupxCfg =>
    unfold lkStore
    dsimp only
    split
    · exact canonical_enterSolo _ h
    · exact h
  all_goals simp [lkStore, dropWhole, h]

@[simp] theorem canonical_ctlWrite (s : State) (r : Req) (off w : Nat) (v : Word) (h : Memory.Canonical s.mem) :
    Memory.Canonical (ctlWrite s r off w v).mem := by
  unfold ctlWrite
  split
  · rwa [accessCard_mem]
  · exact canonical_regWrite _ _ _ _ _ h

theorem canonical_asIssued {s : State} (a : CtlAcc) {f : State → State}
    (run : ∀ t, Memory.Canonical t.mem → Memory.Canonical (f t).mem) (h : Memory.Canonical s.mem) :
    Memory.Canonical (asIssued s a f).mem := by
  fun_cases asIssued s a f
  case case2 => exact Memory.canonical_mk (run _ h)
  all_goals exact run _ h

theorem ctlRead_mem {s t : State} {r : Req} {off w : Nat} {v : Word} (read : ctlRead s r off w = some (t, v)) :
    t.mem = s.mem := by
  unfold ctlRead at read
  split at read
  · rw [← (Prod.mk.inj (Option.some.inj read)).1, accessCard_mem]
  · split at read
    · cases read
    · rw [← (Prod.mk.inj (Option.some.inj read)).1, regReadEffect_mem]

@[simp] theorem readNow_mem (s : State) (r : Req) (off w : Nat) : (readNow s r off w).mem = s.mem := by
  unfold readNow
  split
  next read => rw [readDone_mem, ctlRead_mem read]
  · exact keepRead_mem ..

@[simp] theorem canonical_performAcc (s : State) (a : CtlAcc) (h : Memory.Canonical s.mem) :
    Memory.Canonical (performAcc s a).mem := by
  unfold performAcc
  split
  · exact h
  split
  · rw [writeDone_mem]
    exact canonical_asIssued a (fun t => canonical_ctlWrite t _ _ _ _) h
  · refine canonical_asIssued a (fun t before => ?_) h
    rwa [readNow_mem]

@[simp] theorem canonical_flushAcc (k : Nat) (s : State) (h : Memory.Canonical s.mem) :
    Memory.Canonical (flushAcc k s).mem := by
  induction k generalizing s with
  | zero => exact h
  | succ k ih =>
    unfold flushAcc
    split
    · exact h
    · exact ih _ (canonical_performAcc _ _ h)

@[simp] theorem canonical_flushCtl (s : State) (h : Memory.Canonical s.mem) : Memory.Canonical (flushCtl s).mem :=
  canonical_flushAcc _ _ h

@[simp] theorem canonical_sendAcc (s : State) (a : CtlAcc) (h : Memory.Canonical s.mem) :
    Memory.Canonical (sendAcc s a).mem := by simp [sendAcc, h]

@[simp] theorem canonical_access (s : State) (r : Req) (write : Bool) (off w : Nat) (v : Word)
    (h : Memory.Canonical s.mem) : Memory.Canonical (access s r write off w v).mem := by simp [access, h]

@[simp] theorem canonical_cardEffect (s : State) (f : FaultRec) (h : Memory.Canonical s.mem) :
    Memory.Canonical (cardEffect s f).mem := by simp [cardEffect, h]

@[simp] theorem canonical_consume (s : State) (p : Payload) (h : Memory.Canonical s.mem) :
    Memory.Canonical (consume s p).mem := by
  cases p
  case event => simpa [consume] using h
  case card => exact canonical_cardEffect _ _ h
  case ctlWrite => exact canonical_performAcc _ _ h
  case ctlRead => exact canonical_performAcc _ _ h
  all_goals exact h

@[simp] theorem canonical_dropEntry (s : State) (q : QueueId) (p : Payload) (h : Memory.Canonical s.mem) :
    Memory.Canonical (dropEntry s q p).mem := by
  unfold dropEntry
  split
  · rwa [letUnnamed_mem]
  · rwa [letUnnamed_mem]
  · exact canonical_consume _ _ (by rwa [queueCard_mem])

@[simp] theorem canonical_releaseWaits (s : State) (q : QueueId) (h : Memory.Canonical s.mem) :
    Memory.Canonical (releaseWaits s q).mem := by
  unfold releaseWaits
  split <;> simp [h]

@[simp] theorem canonical_switchPoint (s : State) (n : Nat) (h : Memory.Canonical s.mem) :
    Memory.Canonical (switchPoint s n).mem := by simp [switchPoint, h]

@[simp] theorem canonical_drainCheck (s : State) (h : Memory.Canonical s.mem) :
    Memory.Canonical (drainCheck s).mem := by
  unfold drainCheck
  split <;> simp [h]

@[simp] theorem canonical_fwActivateStart (s : State) (x : Mailbox) (n : Nat) (h : Memory.Canonical s.mem) :
    Memory.Canonical (fwActivateStart s x n).mem := by
  unfold fwActivateStart
  split
  · rwa [badArg_mem]
  split
  · split
    · rwa [already_mem]
    · rwa [mbFail_mem]
  · exact canonical_drainCheck _ h

@[simp] theorem canonical_keyEraseStart (s : State) (x : Mailbox) (n : Nat) (h : Memory.Canonical s.mem) :
    Memory.Canonical (keyEraseStart s x n).mem := by simp [keyEraseStart, h]

@[simp] theorem canonical_formatDone (s : State) (n : Nat) (b : List Byte) (h : Memory.Canonical s.mem) :
    Memory.Canonical (formatDone s n b).mem := by simp [formatDone, h]

@[simp] theorem canonical_squashWork (s : State) (i : Nat) (h : Memory.Canonical s.mem) :
    Memory.Canonical (squashWork s i).mem := by
  have engines (t : State) (z : Nat) (before : Memory.Canonical t.mem) :
      Memory.Canonical ((zipJobs t z i).foldl (fun u j => zipReset u z j) t).mem :=
    .foldl (fun u j => canonical_zipReset u z j) _ before
  unfold squashWork
  exact canonical_cancelRecvs _ _ (canonical_cipherStopAll _ _ _ (.foldl engines _ h))

@[simp] theorem canonical_instanceResetStart (s : State) (x : Mailbox) (n : Nat) (h : Memory.Canonical s.mem) :
    Memory.Canonical (instanceResetStart s x n).mem := by
  fun_cases instanceResetStart s x n
  case case5 => exact h
  case case6 =>
    rw [drainDone_mem]
    split
    · exact canonical_squashWork _ _ h
    · exact h
  all_goals simpa using h

@[simp] theorem canonical_todSteerStart (s : State) (x : Mailbox) (n : Nat) (h : Memory.Canonical s.mem) :
    Memory.Canonical (todSteerStart s x n).mem := by simp [todSteerStart, h]

@[simp] theorem canonical_moveSubs (s : State) (q : Nat) (home : Bool) (h : Memory.Canonical s.mem) :
    Memory.Canonical (moveSubs s q home).mem := by
  have move (t : State) (sub : Nat) (w : Word) (before : MemoryCanonical t) : MemoryCanonical (setSd t sub 6 w) :=
    memoryCanonical_iff.2 (canonical_setSd _ _ _ _ (memoryCanonical_iff.1 before))
  refine memoryCanonical_iff.1 (.foldl (fun t sub before => ?_) _ (memoryCanonical_iff.2 h))
  dsimp only
  split_ifs
  · exact before
  · exact before
  · exact move _ _ _ before
  · exact move _ _ _ before
  · exact before

@[simp] theorem canonical_sequencerStep (s : State) (n : Nat) (h : Memory.Canonical s.mem) :
    Memory.Canonical (sequencerStep s n).mem := by
  have ends (t : State) (q : Nat) (before : MemoryCanonical t) : MemoryCanonical
      (if q + 1 < 8 then mbProgress t n (q + 1) else activateDone (moveSubs (mbProgress t n (q + 1)) 0 true) n) := by
    split <;> simp [memoryCanonical_iff, memoryCanonical_iff.1 before]
  have raised : Memory.Canonical (raise (moveSubs s s.sp.seqDone false) 315).mem := by
    rw [raise_mem]
    exact canonical_moveSubs _ _ _ h
  exact memoryCanonical_iff.1 (ends _ s.sp.seqDone (memoryCanonical_iff.2 (Memory.canonical_mk raised)))

@[simp] theorem canonical_lkWriteStart (s : State) (x : Mailbox) (n : Nat) (h : Memory.Canonical s.mem) :
    Memory.Canonical (lkWriteStart s x n).mem := by
  fun_cases lkWriteStart s x n
  case case6 written _ =>
    rw [mbDone_mem, measure_mem]
    simp only [written]
    split
    · exact h
    · exact canonical_lkStore _ _ _ _ _ h
  all_goals simpa using h

@[simp] theorem canonical_uncachedStore (s : State) (a : Nat) (l : List Byte) (h : Memory.Canonical s.mem) :
    Memory.Canonical (uncachedStore s a l).mem := by
  have stored := canonical_store s a l h
  unfold uncachedStore
  dsimp only
  split
  · exact .foldl (fun _ _ => Memory.canonical_writes _ _) _ stored
  · split
    · exact Memory.canonical_mk (Memory.canonical_writes _ _ stored)
    · exact stored

@[simp] theorem canonical_tamperAgain (s : State) (h : Memory.Canonical s.mem) :
    Memory.Canonical (tamperAgain s).mem :=
  .foldl canonical_alarmIfEnabled _ h

@[simp] theorem canonical_resumeBoot (s : State) (img : BootImage) (h : Memory.Canonical s.mem) :
    Memory.Canonical (resumeBoot s img).mem := by simp [resumeBoot, h]

@[simp] theorem canonical_thermalTrip (s : State) (h : Memory.Canonical s.mem) :
    Memory.Canonical (thermalTrip s).mem := by simp [thermalTrip, h]

@[simp] theorem canonical_sensorFires (s : State) (n : Nat) (h : Memory.Canonical s.mem) :
    Memory.Canonical (sensorFires s n).mem := by simp [sensorFires, h]

end Sys2Proof.Machine
end

section
/-! PROOFS. The accesses, entries and units: the state in whatever they answer keeps the canonical form. -/
namespace Sys2Proof.Machine

theorem MemoryCanonical.of_mem {s t : State} (h : MemoryCanonical s) (same : t.mem = s.mem) : MemoryCanonical t := by
  rwa [MemoryCanonical, same]

/-- The state that the end of a unit keeps, where it keeps one, has its memory in canonical form. -/
def Stop.Canonical : Stop → Prop
  | .ended t => MemoryCanonical t
  | _ => True

/-- Whatever an operation answers, the state in the answer has its memory in canonical form. -/
def Leaves {α : Type} (state : α → State) : Except Stop α → Prop
  | .ok x => MemoryCanonical (state x)
  | .error e => e.Canonical

theorem Leaves.of_ok {α : Type} {state : α → State} {r : Except Stop α} {x : α} (h : Leaves state r) (eq : r = .ok x) :
    MemoryCanonical (state x) := by
  rwa [eq] at h

theorem Leaves.of_ok_fst {α : Type} {r : Except Stop (State × α)} {t : State} {a : α} (h : Leaves Prod.fst r)
    (eq : r = .ok (t, a)) : MemoryCanonical t := h.of_ok eq

theorem Leaves.of_error {α β : Type} {state : α → State} {state' : β → State} {r : Except Stop α} {e : Stop}
    (h : Leaves state r) (eq : r = .error e) : Leaves state' (.error e : Except Stop β) := by
  rwa [eq] at h

theorem leaves_poisonLineRead (s : State) (c ln : Nat) (h : MemoryCanonical s) :
    Leaves id (poisonLineRead s c ln) := by
  have taken : MemoryCanonical (takeAll (boundCard s (pairOf s c) c (s.owner c) (copyOf s c) ln)) :=
    memoryCanonical_iff.2 (canonical_takeAll _ (by rwa [boundCard_mem]))
  unfold poisonLineRead
  dsimp only
  split <;> exact taken

theorem leaves_meetLines (c : Nat) (cached : Bool) (a n : Nat) (l : List Nat) (s : State) (h : MemoryCanonical s) :
    Leaves id (meetLines c cached a n l s) := by
  fun_induction meetLines c cached a n l s
  case case1 => exact h
  case case2 => exact trivial
  case case3 eq => exact (leaves_poisonLineRead _ _ _ h).of_error eq
  case case4 eq ih => exact ih ((leaves_poisonLineRead _ _ _ h).of_ok eq)
  case case5 ih => exact ih h

theorem leaves_meetTable (c : Nat) (k : Acc) (a : Nat) (s : State) (h : MemoryCanonical s) :
    Leaves id (meetTable c k a s) := by
  unfold meetTable
  split
  · exact h.of_mem (poisonEntry_mem ..)
  · exact leaves_meetLines _ _ _ _ _ _ h

theorem leaves_walk (c : Nat) (k : Acc) (va : Nat) (l : List Nat) (base : Nat) (s : State) (h : MemoryCanonical s) :
    Leaves Prod.fst (walk c k va l base s) := by
  fun_induction walk c k va l base s
  case case3 eq => exact (leaves_meetTable _ _ _ _ h).of_error eq
  case case5 eq _ _ _ _ => exact ((leaves_meetTable _ _ _ _ h).of_ok eq).of_mem (touch_mem ..)
  case case6 eq _ _ _ _ ih => exact ih (((leaves_meetTable _ _ _ _ h).of_ok eq).of_mem (touch_mem ..))
  all_goals exact trivial

theorem leaves_leafFor (c : Nat) (k : Acc) (va : Nat) (s : State) (h : MemoryCanonical s) :
    Leaves Prod.fst (leafFor c k va s) := by
  unfold leafFor
  extract_lets x fresh
  obtain ⟨again, same, walked⟩ : ∃ f, f = fresh ∧ ∀ t, MemoryCanonical t → Leaves Prod.fst (f t) := by
    refine ⟨fresh, rfl, fun t before => ?_⟩
    have reads := leaves_walk c k va [48, 39, 30, 21, 12] (frameOf x.ttb) t before
    unfold fresh
    split
    next eq => exact reads.of_error eq
    next eq => exact (reads.of_ok_fst eq).of_mem (State.setCtx_mem ..)
  rw [← same]
  split
  · exact walked s h
  · split
    · exact h.of_mem (State.drawn_mem s)
    · exact walked _ (h.of_mem (State.drawn_mem s))

theorem leaves_translate (c : Nat) (k : Acc) (va : Nat) (s : State) (h : MemoryCanonical s) :
    Leaves Prod.fst (translate c k va s) := by
  fun_cases translate c k va s
  case case1 => exact h
  case case4 eq => exact (leaves_leafFor _ _ _ _ h).of_error eq
  case case6 eq _ => exact (leaves_leafFor _ _ _ _ h).of_ok eq
  all_goals exact trivial

theorem leaves_spanOf (c : Nat) (k : Acc) (q : Nat × Nat) (s : State) (h : MemoryCanonical s) :
    Leaves Prod.fst (spanOf c k q s) := by
  fun_cases spanOf c k q s
  case case1 eq => exact (leaves_translate _ _ _ _ h).of_error eq
  case case2 => exact trivial
  case case3 eq _ => exact (leaves_translate _ _ _ _ h).of_ok eq

theorem leaves_spansOf (c : Nat) (k : Acc) (l : List (Nat × Nat)) (s : State) (h : MemoryCanonical s) :
    Leaves Prod.fst (spansOf c k l s) := by
  fun_induction spansOf c k l s
  case case1 => exact h
  case case2 eq => exact (leaves_spanOf _ _ _ _ h).of_error eq
  case case3 eq _ rest ih => exact (ih ((leaves_spanOf _ _ _ _ h).of_ok eq)).of_error rest
  case case4 eq _ _ rest ih => exact (ih ((leaves_spanOf _ _ _ _ h).of_ok eq)).of_ok_fst rest

theorem fetchTrap_canonical {k : Acc} {sp : Span} {e : Stop} (eq : fetchTrap k sp = some e) : e.Canonical := by
  unfold fetchTrap at eq
  split at eq
  · cases eq
  · cases eq
    trivial

theorem privTrap_canonical {mode : Nat} {k : Acc} {sp : Span} {e : Stop} (eq : privTrap mode k sp = some e) :
    e.Canonical := by
  unfold privTrap at eq
  split at eq
  · split at eq
    · cases eq
      trivial
    · cases eq
  · cases eq

theorem placeTrap_canonical {k : Acc} {sp : Span} {e : Stop} (eq : placeTrap k sp = some e) : e.Canonical := by
  unfold placeTrap at eq
  repeat' split at eq
  all_goals cases eq
  all_goals trivial

theorem findSome_canonical {f : Span → Option Stop} (each : ∀ sp e, f sp = some e → e.Canonical) {l : List Span} {e : Stop}
    (eq : l.findSome? f = some e) : e.Canonical := by
  obtain ⟨sp, _, found⟩ := List.exists_of_findSome?_eq_some eq
  exact each sp e found

theorem leaves_codeSpans (c : Nat) (k : Acc) (l : List (Nat × Nat)) (s : State) (h : MemoryCanonical s) :
    Leaves Prod.fst (codeSpans c k l s) := by
  fun_induction codeSpans c k l s
  case case1 => exact h
  case case2 eq => exact (leaves_spanOf _ _ _ _ h).of_error eq
  case case3 eq => exact fetchTrap_canonical eq
  case case4 eq _ _ rest ih => exact (ih ((leaves_spanOf _ _ _ _ h).of_ok eq)).of_error rest
  case case5 eq _ _ _ rest ih =>
    exact (ih ((leaves_spanOf _ _ _ _ h).of_ok eq)).of_ok_fst rest


theorem leaves_checkSpans (c : Nat) (k : Acc) (va n : Nat) (s : State) (h : MemoryCanonical s) :
    Leaves Prod.fst (checkSpans c k va n s) := by
  have spans := leaves_spansOf c k (pieces va n) s h
  unfold checkSpans
  split
  · exact leaves_codeSpans _ _ _ _ h
  split
  next eq => exact spans.of_error eq
  next eq =>
    split
    next trapped => exact findSome_canonical (fun _ _ => privTrap_canonical) trapped
    · split
      next trapped => exact findSome_canonical (fun _ _ => placeTrap_canonical) trapped
      · exact spans.of_ok_fst eq

theorem leaves_checkRmw (c : Nat) (lock : Bool) (va n : Nat) (s : State) (h : MemoryCanonical s) :
    Leaves Prod.fst (checkRmw c lock va n s) := by
  have reads := leaves_spansOf c .read (pieces va n) s h
  unfold checkRmw
  split
  next eq => exact reads.of_error eq
  next eq =>
    have stores := leaves_spansOf c .store (pieces va n) _ (reads.of_ok_fst eq)
    split
    next eq => exact stores.of_error eq
    next eq =>
      split
      next trapped => exact findSome_canonical (fun _ _ => privTrap_canonical) trapped
      · split
        next trapped => exact findSome_canonical (fun _ _ => placeTrap_canonical) trapped
        · exact stores.of_ok_fst eq

theorem leaves_meetSlots (c : Nat) (l : List (Nat × Nat)) (s : State) (h : MemoryCanonical s) :
    Leaves id (meetSlots c l s) := by
  fun_induction meetSlots c l s
  case case1 => exact h
  case case2 ih => exact ih h
  case case3 eq => exact (leaves_meetLines _ _ _ _ _ _ h).of_error eq
  case case4 eq ih => exact ih ((leaves_meetLines _ _ _ _ _ _ h).of_ok eq)

theorem leaves_meetSpans (c : Nat) (l : List Span) (s : State) (h : MemoryCanonical s) :
    Leaves id (meetSpans c l s) := by
  have met (t : State) (sp : Span) (before : MemoryCanonical t) : Leaves id
      (if sp.region = .memory then meetLines c (!sp.nc) sp.pa sp.len (linesOf sp.pa sp.len) t else .ok t) := by
    split
    · exact leaves_meetLines _ _ _ _ _ _ before
    · exact before
  fun_induction meetSpans c l s
  case case1 => exact h
  case case2 eq => exact (met _ _ h).of_error eq
  case case3 eq ih => exact ih ((met _ _ h).of_ok eq)

theorem leaves_controlReadBy (c off n : Nat) (s : State) (h : MemoryCanonical s) :
    Leaves Prod.fst (controlReadBy c off n s) := by
  have flushed : MemoryCanonical (flushCtl s) := memoryCanonical_iff.2 (canonical_flushCtl s h)
  unfold controlReadBy
  dsimp only
  split
  · trivial
  split
  · split
    · exact flushed.of_mem (askCount_mem _)
    · trivial
  next read => exact flushed.of_mem (ctlRead_mem read)

theorem leaves_controlStoreBy (c off n v : Nat) (s : State) (h : MemoryCanonical s) :
    Leaves id (controlStoreBy c off n v s) := by
  have flushed : MemoryCanonical (flushCtl s) := memoryCanonical_iff.2 (canonical_flushCtl s h)
  unfold controlStoreBy
  dsimp only
  split
  · trivial
  · exact memoryCanonical_iff.2 (canonical_ctlWrite _ _ _ _ _ (memoryCanonical_iff.1 flushed))

theorem leaves_unitsRead {f : Nat → Nat → State → Except Stop (State × List Byte)}
    (each : ∀ o k t, MemoryCanonical t → Leaves Prod.fst (f o k t)) (u k off : Nat) (s : State) (h : MemoryCanonical s) :
    Leaves Prod.fst (unitsRead f u k off s) := by
  fun_induction unitsRead f u k off s
  case case1 => exact h
  case case2 eq => exact (each _ _ _ h).of_error eq
  case case3 eq _ rest ih => exact (ih ((each _ _ _ h).of_ok_fst eq)).of_error rest
  case case4 eq _ _ rest ih => exact (ih ((each _ _ _ h).of_ok_fst eq)).of_ok_fst rest

theorem leaves_unitsStore {f : Nat → Nat → Nat → State → Except Stop State}
    (each : ∀ o k v t, MemoryCanonical t → Leaves id (f o k v t)) (u k off : Nat) (l : List Byte) (s : State)
    (h : MemoryCanonical s) : Leaves id (unitsStore f u k off l s) := by
  fun_induction unitsStore f u k off l s
  case case1 => exact h
  case case2 eq => exact (each _ _ _ _ h).of_error eq
  case case3 eq ih => exact ih ((each _ _ _ _ h).of_ok eq)

theorem leaves_windowStore (c off n v : Nat) (s : State) (h : MemoryCanonical s) :
    Leaves id (windowStore c off n v s) := by
  fun_cases windowStore c off n v s
  case case1 => exact h.of_mem (windowReport_mem ..)
  case case2 => exact trivial
  case case3 => exact h.of_mem (State.setCtx_mem ..)

theorem leaves_readSpan (c n : Nat) (sp : Span) (s : State) (h : MemoryCanonical s) :
    Leaves Prod.fst (readSpan c n sp s) := by
  have lines := leaves_meetLines c (!sp.nc) sp.pa sp.len (linesOf sp.pa sp.len) s h
  have window (o k : Nat) (t : State) (before : MemoryCanonical t) :
      Leaves Prod.fst (.ok (windowRead c o k t) : Except Stop (State × List Byte)) := before.of_mem (windowRead_mem ..)
  unfold readSpan
  dsimp only
  split
  · split
    next eq => exact lines.of_error eq
    next eq =>
      split
      · exact (lines.of_ok eq).of_mem (uncachedBytes_mem ..)
      · exact (lines.of_ok eq).of_mem (touch_mem ..)
  · split
    · exact leaves_unitsRead (leaves_controlReadBy c) _ _ _ _ h
    · exact h.of_mem (accessCard_mem ..)
  · split
    · exact leaves_unitsRead window _ _ _ _ h
    · exact h.of_mem (windowReport_mem ..)
  · exact h.of_mem (State.drawn_mem s)
  · exact h

theorem leaves_storeSpan (c n : Nat) (sp : Span) (l : List Byte) (s : State) (h : MemoryCanonical s) :
    Leaves id (storeSpan c n sp l s) := by
  have stored : Memory.Canonical
      (if sp.nc then uncachedStore s sp.pa l else (touch s c false true sp.pa sp.len).store sp.pa l).mem := by
    split
    · exact canonical_uncachedStore _ _ _ h
    · exact canonical_store _ _ _ (by rwa [touch_mem])
  unfold storeSpan
  dsimp only
  split
  · exact (memoryCanonical_iff.2 stored).of_mem (State.setCtx_mem ..)
  · split
    · exact leaves_unitsStore (leaves_controlStoreBy c) _ _ _ _ _ h
    · exact h.of_mem (accessCard_mem ..)
  · split
    · exact leaves_unitsStore (leaves_windowStore c) _ _ _ _ _ h
    · exact h.of_mem (windowReport_mem ..)
  · exact h
  · exact h

theorem leaves_readSpans (c n : Nat) (l : List Span) (s : State) (h : MemoryCanonical s) :
    Leaves Prod.fst (readSpans c n l s) := by
  fun_induction readSpans c n l s
  case case1 => exact h
  case case2 eq => exact (leaves_readSpan _ _ _ _ h).of_error eq
  case case3 eq _ rest ih => exact (ih ((leaves_readSpan _ _ _ _ h).of_ok_fst eq)).of_error rest
  case case4 eq _ _ rest ih => exact (ih ((leaves_readSpan _ _ _ _ h).of_ok_fst eq)).of_ok_fst rest

theorem leaves_storeSpans (c n : Nat) (l : List Span) (b : List Byte) (s : State) (h : MemoryCanonical s) :
    Leaves id (storeSpans c n l b s) := by
  fun_induction storeSpans c n l b s
  case case1 => exact h
  case case2 eq => exact (leaves_storeSpan _ _ _ _ _ h).of_error eq
  case case3 eq ih => exact ih ((leaves_storeSpan _ _ _ _ _ h).of_ok eq)

theorem leaves_loadSpans (c : Nat) (stack : Bool) (k : Acc) (va n : Nat) (l : List Span) (s : State)
    (h : MemoryCanonical s) : Leaves Prod.fst (loadSpans c stack k va n l s) := by
  fun_cases loadSpans c stack k va n l s
  case case1 eq => exact (leaves_meetSlots _ _ _ h).of_error eq
  case case2 eq _ => exact ((leaves_meetSlots _ _ _ h).of_ok eq).of_mem (fillSlots_mem ..)
  case case3 => exact leaves_readSpans _ _ _ _ h

theorem leaves_putSpans (c : Nat) (stack met : Bool) (k : Acc) (va n : Nat) (l : List Span) (b : List Byte) (s : State)
    (h : MemoryCanonical s) : Leaves id (putSpans c stack met k va n l b s) := by
  have lines : Leaves id (if met then .ok s else meetSpans c l s) := by
    split
    · exact h
    · exact leaves_meetSpans _ _ _ h
  unfold putSpans
  split
  next eq => exact lines.of_error eq
  next eq =>
    have stored := leaves_storeSpans c n l b _ (lines.of_ok eq)
    split
    next eq => exact stored.of_error eq
    next eq =>
      split
      · exact (stored.of_ok eq).of_mem (fillSlots_mem ..)
      · exact stored.of_ok eq

theorem leaves_load (c va n : Nat) (s : State) (h : MemoryCanonical s) : Leaves Prod.fst (load c va n s) := by
  have checked := leaves_checkSpans c .read va n s h
  unfold load
  split
  next eq => exact checked.of_error eq
  next l eq =>
    have loaded := leaves_loadSpans c false .read va n l _ (checked.of_ok_fst eq)
    split
    next eq => exact loaded.of_error eq
    next eq => exact loaded.of_ok_fst eq

theorem leaves_put (c va n v : Nat) (s : State) (h : MemoryCanonical s) : Leaves id (put c va n v s) := by
  have checked := leaves_checkSpans c .store va n s h
  unfold put
  split
  next eq => exact checked.of_error eq
  next eq => exact leaves_putSpans _ _ _ _ _ _ _ _ _ (checked.of_ok_fst eq)

theorem leaves_fetchUnit (c va n : Nat) (s : State) (h : MemoryCanonical s) : Leaves id (fetchUnit c va n s) := by
  have checked := leaves_checkSpans c .code va n s h
  unfold fetchUnit
  split
  next eq => exact checked.of_error eq
  next t l eq =>
    refine List.foldlRecOn l _ (motive := Leaves id) (checked.of_ok_fst eq) fun r before sp _ => ?_
    split
    · exact before
    · have lines := leaves_meetLines c (!sp.nc) sp.pa sp.len (linesOf sp.pa sp.len) _ before
      split
      next eq => exact lines.of_error eq
      next eq =>
        split
        · exact lines.of_ok eq
        · exact (lines.of_ok eq).of_mem (touch_mem ..)


/-- The state in which an entry, or a vector read, ends has its memory in canonical form. -/
def Entered.Canonical : Entered → Prop
  | .done t _ => MemoryCanonical t
  | .fail t _ _ => MemoryCanonical t
  | .wait => True

theorem leaves_frameStore (c : Nat) (l : List Span) (b : List Byte) (s : State) (h : MemoryCanonical s) :
    Leaves id (frameStore c l b s) := by
  have lines := leaves_meetSpans c l s h
  unfold frameStore
  split
  next eq => exact lines.of_error eq
  next eq => exact leaves_storeSpans _ _ _ _ _ (lines.of_ok eq)

theorem canonical_frameWrite (c : Nat) (b : List Byte) (s : State) (h : MemoryCanonical s) :
    (frameWrite c b s).Canonical := by
  have checked := leaves_checkSpans c .frame ((s.ctx c).s - 32).toNat 32 s h
  unfold frameWrite
  dsimp only
  split
  · exact h
  next eq => rw [eq] at checked; exact checked
  · trivial
  next t l eq =>
    have kept := checked.of_ok_fst eq
    split
    · exact kept.of_mem (poisonEntry_mem ..)
    · have stored := leaves_frameStore c l b (t.setCtx c ((t.ctx c).setS ((s.ctx c).s - 32)))
        (kept.of_mem (State.setCtx_mem ..))
      split
      · trivial
      · exact h
      next eq => rw [eq] at stored; exact stored
      next eq => exact stored.of_ok eq

theorem canonical_vectorRead (c a : Nat) (s : State) (h : MemoryCanonical s) : (vectorRead c a s).Canonical := by
  unfold vectorRead
  split
  · exact h
  split
  · exact h
  · split
    · trivial
    · split
      · exact h.of_mem (poisonEntry_mem ..)
      · exact h.of_mem (touch_mem ..)
  · split
    next eq => exact (leaves_controlReadBy _ _ _ _ h).of_ok_fst eq
    · trivial
  · exact h.of_mem (windowRead_mem ..)
  · exact h.of_mem (State.drawn_mem s)

theorem canonical_tryEnter (c : Nat) (e : Entry) (s : State) (h : MemoryCanonical s) :
    (tryEnter c e s).Canonical := by
  have framed := canonical_frameWrite c (frameBytes s c e) (s.setCtx c ((s.ctx c).inMode e.mode))
    (h.of_mem (State.setCtx_mem ..))
  unfold tryEnter
  dsimp only
  split
  next eq => rw [eq] at framed; exact MemoryCanonical.of_mem framed (backOut_mem ..)
  · trivial
  next t _ eq =>
    rw [eq] at framed
    have read := canonical_vectorRead c ((s.ctx c).vbase e.mode + 8 * e.vec) t framed
    split
    next eq => rw [eq] at read; exact MemoryCanonical.of_mem read (backOut_mem ..)
    · trivial
    next eq => rw [eq] at read; exact MemoryCanonical.of_mem read (landEntry_mem ..)

theorem leaves_enter (c : Nat) (e : Entry) (s : State) (h : MemoryCanonical s) : Leaves id (enter c e s) := by
  have tried := canonical_tryEnter c e s h
  unfold enter
  split
  next eq => rw [eq] at tried; exact tried
  · trivial
  next t a w eq =>
    rw [eq] at tried
    have kept : MemoryCanonical (if e.deliv then withdraw t c else t) := by
      split
      · exact MemoryCanonical.of_mem tried (withdraw_mem ..)
      · exact tried
    dsimp only
    split
    · exact kept.of_mem (stopContext_mem ..)
    · have again := canonical_tryEnter c (stackEntry e a w) _ kept
      split
      next eq => rw [eq] at again; exact again
      · trivial
      next eq => rw [eq] at again; exact MemoryCanonical.of_mem again (stopContext_mem ..)

theorem leaves_takeInterrupt (c : Nat) (s : State) (h : MemoryCanonical s) : Leaves id (takeInterrupt c s) := by
  unfold takeInterrupt
  split
  · exact h
  · exact leaves_enter _ _ _ h

theorem leaves_resetEntry (c : Nat) (s : State) (h : MemoryCanonical s) : Leaves id (resetEntry c s) := by
  unfold resetEntry
  extract_lets x y
  have read := canonical_vectorRead c x.vbaseH.toNat (s.setCtx c y) (h.of_mem (State.setCtx_mem ..))
  split
  next eq => rw [eq] at read; exact MemoryCanonical.of_mem read (State.setCtx_mem ..)
  next eq => rw [eq] at read; exact MemoryCanonical.of_mem read (stopContext_mem ..)
  · trivial

theorem leaves_takeSecond (c n : Nat) (s : State) (h : MemoryCanonical s) : Leaves id (takeSecond c n s) := by
  have first := leaves_takeInterrupt c s h
  unfold takeSecond
  split
  next eq => exact first.of_error eq
  next eq =>
    split
    · exact leaves_takeInterrupt _ _ ((first.of_ok eq).of_mem (reached_mem ..))
    · exact first.of_ok eq

theorem leaves_returnFrom (c : Nat) (s : State) (h : MemoryCanonical s) : Leaves id (returnFrom c s) := by
  have loaded := leaves_load c (s.ctx c).s.toNat 16 s h
  unfold returnFrom
  dsimp only
  split
  next eq => exact loaded.of_error eq
  next eq =>
    split
    · trivial
    · split
      · trivial
      · exact (loaded.of_ok_fst eq).of_mem (State.setCtx_mem ..)

theorem leaves_rmwSpans (k : Call) (stack lock : Bool) (ea n : Nat) (s : State) (h : MemoryCanonical s) :
    Leaves Prod.fst (rmwSpans k stack lock ea n s) := by
  have checked := leaves_checkSpans k.c { Acc.read with lock := true } ea n s h
  unfold rmwSpans
  split
  · split
    next eq => exact checked.of_error eq
    next l eq =>
      have loaded := leaves_loadSpans k.c stack { Acc.store with lock := true } ea n l _ (checked.of_ok_fst eq)
      split
      next eq => exact loaded.of_error eq
      · split
        · exact leaves_checkRmw _ _ _ _ _ h
        · exact checked.of_ok_fst eq
  · exact leaves_checkRmw _ _ _ _ _ h

theorem alignTrap_canonical {k : Call} {lock write : Bool} {ea n : Nat} {e : Stop}
    (eq : alignTrap k lock write ea n = some e) : e.Canonical := by
  unfold alignTrap at eq
  split at eq
  · cases eq
    trivial
  · cases eq

theorem leaves_operand (k : Call) (use : Use) (lock : Bool) (s : State) (h : MemoryCanonical s) :
    Leaves Prod.fst (operand k use lock s) := by
  fun_cases operand k use lock s
  case case1 => exact h
  case case2 => exact h
  case case3 => exact h
  case case4 eq _ => exact alignTrap_canonical eq
  case case5 eq _ => exact (leaves_checkSpans _ _ _ _ _ h).of_error eq
  case case6 checked _ eq _ =>
    exact (leaves_loadSpans _ _ _ _ _ _ _ ((leaves_checkSpans _ _ _ _ _ h).of_ok_fst checked)).of_error eq
  case case7 checked _ _ eq _ =>
    exact (leaves_loadSpans _ _ _ _ _ _ _ ((leaves_checkSpans _ _ _ _ _ h).of_ok_fst checked)).of_ok_fst eq
  case case8 eq _ => exact alignTrap_canonical eq
  case case9 eq _ => exact (leaves_checkSpans _ _ _ _ _ h).of_error eq
  case case10 eq _ => exact (leaves_checkSpans _ _ _ _ _ h).of_ok_fst eq
  case case11 eq _ => exact alignTrap_canonical eq
  case case12 eq _ => exact (leaves_rmwSpans _ _ _ _ _ _ h).of_error eq
  case case13 checked _ eq _ =>
    exact (leaves_loadSpans _ _ _ _ _ _ _ ((leaves_rmwSpans _ _ _ _ _ _ h).of_ok_fst checked)).of_error eq
  case case14 checked _ _ eq _ =>
    exact (leaves_loadSpans _ _ _ _ _ _ _ ((leaves_rmwSpans _ _ _ _ _ _ h).of_ok_fst checked)).of_ok_fst eq

theorem leaves_valueBody (use : Use) (eff : Eff) (lock : Bool) (k : Call) (s : State) (h : MemoryCanonical s) :
    Leaves id (valueBody use eff lock k s) := by
  have loaded := leaves_operand k use lock s h
  unfold valueBody
  dsimp only
  split
  next eq => exact loaded.of_error eq
  next t l m eq =>
    have kept (x : Ctx) : MemoryCanonical (t.setCtx k.c x) := (loaded.of_ok_fst eq).of_mem (State.setCtx_mem ..)
    split
    · trivial
    · split
      · exact kept _
      · exact leaves_putSpans _ _ _ _ _ _ _ _ _ (kept _)

/-- A meaning over the whole state keeps memory in canonical form; one over values always does. -/
def Sem.Canonical : Sem → Prop
  | .val _ _ => True
  | .sys _ body => ∀ k s, MemoryCanonical s → Leaves id (body k s)

theorem leaves_body {m : Sem} (keeps : m.Canonical) (lock : Bool) (k : Call) (s : State) (h : MemoryCanonical s) :
    Leaves id (m.body lock k s) := by
  cases m with
  | val use eff =>
    unfold Sem.body
    dsimp only
    split
    · exact leaves_valueBody _ _ _ _ _ (h.of_mem (fenced_mem ..))
    · exact leaves_valueBody _ _ _ _ _ h
  | sys own body => exact keeps k s h

theorem leaves_unitBody (pre : Pre) (k : Call) {m : Sem} (keeps : m.Canonical) (s : State) (h : MemoryCanonical s) :
    Leaves id (unitBody pre k m s) := by
  have body := leaves_body keeps pre.isLock k s h
  unfold unitBody
  dsimp only
  split
  · trivial
  split
  · trivial
  split
  · exact h.of_mem (State.setCtx_mem ..)
  split
  · exact h.of_mem (passOver_mem ..)
  split
  next eq => exact body.of_error eq
  next eq =>
    split
    · exact body.of_ok eq
    · exact (body.of_ok eq).of_mem (retire_mem ..)

theorem leaves_beginUnit (c len : Nat) (rep : Bool) (s : State) (h : MemoryCanonical s) :
    Leaves id (beginUnit c len rep s) := by
  have fetched := leaves_fetchUnit c (s.ctx c).pc.toNat len s h
  unfold beginUnit
  dsimp only
  split
  · exact h
  split
  next eq => exact fetched.of_error eq
  next eq =>
    split
    · exact fetched.of_ok eq
    · exact (fetched.of_ok eq).of_mem (State.setCtx_mem ..)
    · trivial

theorem leaves_wholeUnit (c len : Nat) (rep : Bool) {body : State → Except Stop State}
    (keeps : ∀ s, MemoryCanonical s → Leaves id (body s)) (s : State) (h : MemoryCanonical s) :
    Leaves id (wholeUnit c len rep body s) := by
  have begun := leaves_beginUnit c len rep s h
  unfold wholeUnit
  split
  next eq => exact begun.of_error eq
  next eq => exact keeps _ (begun.of_ok eq)

theorem Leaves.map_groupDone {r : Except Stop State} (h : Leaves id r) (c : Nat) :
    Leaves id (r.map (groupDone c)) := by
  cases r with
  | ok t => exact MemoryCanonical.of_mem h (groupDone_mem ..)
  | error e => exact h

/-! ### Outcomes of commands -/

/-- Where a command answers a next state, that state has its memory in canonical form. -/
def ResCanonical : Res → Prop
  | .next t => MemoryCanonical t
  | _ => True

theorem canonical_settled {t : State} (h : MemoryCanonical t) : MemoryCanonical (settle t) :=
  memoryCanonical_iff.2 (canonical_settle t h)

theorem res_entryRes {s : State} {r : Except Stop State} (h : MemoryCanonical s) (left : Leaves id r) :
    ResCanonical (entryRes s r) := by
  unfold entryRes
  split
  · exact canonical_settled (MemoryCanonical.of_mem left (warmStops_mem _))
  · exact canonical_settled (MemoryCanonical.of_mem left (warmStops_mem _))
  · exact h

theorem res_unitCmd (c : Nat) (words : List HWord) (rep : Bool) {body : State → Except Stop State}
    (keeps : ∀ s, MemoryCanonical s → Leaves id (body s)) (s : State) (h : MemoryCanonical s) :
    ResCanonical (unitCmd c words rep body s) := by
  have ran := leaves_wholeUnit c (2 * words.length) rep keeps s h
  unfold unitCmd
  split
  · exact h
  split
  · exact canonical_settled (h.of_mem (haltNow_mem ..))
  split
  · exact res_entryRes h ((leaves_enter _ _ _ h).map_groupDone c)
  · exact res_entryRes h (ran.map_groupDone c)

theorem res_unitOp (c : Nat) (pre : Pre) (op : QOp) (f : Form) {m : Sem} (keeps : m.Canonical) (s : State)
    (h : MemoryCanonical s) : ResCanonical (unitOp c pre op f m s) := by
  unfold unitOp
  split
  · trivial
  · exact res_unitCmd _ _ _ (leaves_unitBody _ _ keeps) _ h

/-! ### The operations over the whole state -/

theorem leaves_callTo (k : Call) (s : State) (h : MemoryCanonical s) : Leaves id (callTo k s) := by
  unfold callTo
  extract_lets x target y sp
  have stored := leaves_put k.c sp.toNat 8 k.next.toNat (s.setCtx k.c y) (h.of_mem (State.setCtx_mem ..))
  split
  next eq => exact stored.of_error eq
  next eq => exact ((stored.of_ok eq).of_mem (noteTaken_mem ..)).of_mem (State.setCtx_mem ..)

theorem leaves_returnTo (k : Call) (s : State) (h : MemoryCanonical s) : Leaves id (returnTo k s) := by
  have loaded := leaves_load k.c (s.ctx k.c).s.toNat 8 s h
  unfold returnTo
  dsimp only
  split
  next eq => exact loaded.of_error eq
  next eq => exact (loaded.of_ok_fst eq).of_mem (State.setCtx_mem ..)

theorem leaves_branch (k : Call) (s : State) (h : MemoryCanonical s) : Leaves id (branch k s) :=
  (h.of_mem (noteTaken_mem ..)).of_mem (State.setCtx_mem ..)

theorem leaves_retiBody (k : Call) (s : State) (h : MemoryCanonical s) : Leaves id (retiBody k s) := by
  unfold retiBody
  split
  · exact leaves_takeInterrupt _ _ h
  · exact leaves_returnFrom _ _ h

theorem leaves_rndaBody (k : Call) (s : State) (h : MemoryCanonical s) : Leaves id (rndaBody k s) := by
  unfold rndaBody
  dsimp only
  split
  · exact h.of_mem (State.setCtx_mem ..)
  · exact h.of_mem (State.setCtx_mem ..)

theorem leaves_cflushBody (k : Call) (s : State) (h : MemoryCanonical s) : Leaves id (cflushBody k s) := by
  have checked := leaves_checkSpans k.c .read (k.ea (s.ctx k.c)).toNat 1 s h
  unfold cflushBody
  dsimp only
  split
  next eq => exact checked.of_error eq
  next eq =>
    split
    · trivial
    · exact ((checked.of_ok_fst eq).of_mem (State.foldl_mem flushLine_mem ..)).of_mem (State.setCtx_mem ..)

theorem leaves_cinvrSpans (c : Nat) (l : List (Nat × Nat)) (s : State) (h : MemoryCanonical s) :
    Leaves Prod.fst (cinvrSpans c l s) := by
  have spans := leaves_spansOf c .read l s h
  unfold cinvrSpans
  split
  next eq => exact spans.of_error eq
  next eq =>
    split
    next trapped => exact findSome_canonical (fun _ _ => privTrap_canonical) trapped
    · split
      next trapped => exact findSome_canonical (fun _ _ => placeTrap_canonical) trapped
      · exact spans.of_ok_fst eq

theorem leaves_cinvrBody (k : Call) (s : State) (h : MemoryCanonical s) : Leaves id (cinvrBody k s) := by
  have spans := leaves_cinvrSpans k.c (cinvrRange (k.ea (s.ctx k.c)).toNat (s.ctx k.c).a.toNat) s h
  unfold cinvrBody
  split
  · exact h.of_mem (cinvrLines_mem ..)
  split
  next eq => exact spans.of_error eq
  next eq =>
    split
    · trivial
    · exact (spans.of_ok_fst eq).of_mem (cinvrLines_mem ..)

theorem canonical_semOf (op : QOp) : (semOf op).Canonical := by
  cases op
  case br => exact leaves_branch
  case call => exact leaves_callTo
  case ret => exact leaves_returnTo
  case reti => exact leaves_retiBody
  case trap => exact fun _ _ h => leaves_enter _ _ _ h
  case wait => exact fun _ _ h => h.of_mem (State.setCtx_mem ..)
  case cflush => exact leaves_cflushBody
  case cinvr => exact leaves_cinvrBody
  case fence => exact fun _ _ h => h.of_mem (fenced_mem ..)
  case pflush => exact fun _ _ h => (h.of_mem (mapPred_mem ..)).of_mem (State.setCtx_mem ..)
  case rnda => exact leaves_rndaBody
  all_goals trivial

theorem canonical_wrongRead (c : Nat) (s : State) (q : Bool × Word) (h : MemoryCanonical s) :
    MemoryCanonical (wrongRead c s q) := by
  have checked := leaves_checkSpans c { (if q.1 then Acc.code else Acc.read) with spec := true } q.2.toNat 1 s h
  unfold wrongRead
  split
  · exact h
  split
  · exact h
  next t l eq =>
    refine (checked.of_ok_fst eq).of_mem (State.foldl_mem (fun t sp => ?_) l t)
    split
    · exact touch_mem ..
    · rfl

end Sys2Proof.Machine
end

section
/-! PROOFS. The commands and the step keep the canonical form. -/
namespace Sys2Proof.Machine

theorem res_act {s t : State} (h : Memory.Canonical s.mem) (kept : Memory.Canonical t.mem) :
    ResCanonical (act s t) := by
  unfold act
  split
  · exact canonical_settle _ kept
  · exact h

theorem res_done {t : State} (kept : Memory.Canonical t.mem) : ResCanonical (done t) := canonical_settle _ kept

theorem res_actSub {s t : State} (sub : Nat) (h : Memory.Canonical s.mem) (kept : Memory.Canonical t.mem) :
    ResCanonical (actSub s sub t) := by
  refine res_act h ?_
  unfold drawIf
  split
  · rwa [State.drawn_mem]
  · exact kept

theorem res_takeUp {s : State} (n op : Nat) {f : State → Mailbox → State}
    (keeps : ∀ t x, Memory.Canonical t.mem → Memory.Canonical (f t x).mem) (h : Memory.Canonical s.mem) :
    ResCanonical (takeUp s n op f) := by
  refine res_act h ?_
  split
  · exact keeps _ _ (by rwa [State.setMb_mem])
  · exact h

theorem res_plain (c : Fin 32) (u : QUnit) (op : QOp) (s : State) (h : Memory.Canonical s.mem) :
    ResCanonical (plain c u op (semOf op) s) := res_unitOp _ _ _ _ (canonical_semOf op) _ h

theorem res_ctlCmd {s : State} (r : Req) (off : Nat) (v : Word) (h : Memory.Canonical s.mem) :
    ResCanonical (ctlCmd s r off v) := res_act h (canonical_access _ _ _ _ _ _ h)

theorem res_workCmd {s : State} (r : Req) (off : Nat) (v : Word) (issued : Option Issue) (h : Memory.Canonical s.mem) :
    ResCanonical (workCmd s r off v issued) := res_act h (canonical_sendAcc _ _ h)

theorem res_readCmd {s : State} (r : Req) (off w : Nat) (h : Memory.Canonical s.mem) :
    ResCanonical (readCmd s r off w) :=
  res_act h (canonical_access _ _ _ _ _ _ h)

theorem canonical_consumeChunk {s : State} (n : Nat) {f : State → State}
    (keeps : ∀ t, Memory.Canonical t.mem → Memory.Canonical (f t).mem) (h : Memory.Canonical s.mem) :
    Memory.Canonical (consumeChunk s n f).mem := by
  unfold consumeChunk
  split
  · exact keeps _ h
  · simpa using h

theorem canonical_inputChunk {s : State} (n k : Nat) {finish : State → List Byte → State}
    (keeps : ∀ t b, Memory.Canonical t.mem → Memory.Canonical (finish t b).mem) (h : Memory.Canonical s.mem) :
    Memory.Canonical (inputChunk s n k finish).mem := by
  unfold inputChunk
  dsimp only
  split
  · simpa using h
  · simpa using h
  · exact keeps _ _ (by simpa using h)

theorem canonical_outputChunk {s : State} (n size : Nat) (progress : Nat → Nat) {finish : State → State}
    (keeps : ∀ t, Memory.Canonical t.mem → Memory.Canonical (finish t).mem) (h : Memory.Canonical s.mem) :
    Memory.Canonical (outputChunk s n size progress finish).mem := by
  unfold outputChunk
  dsimp only
  split
  · rw [mbDone_mem]
    exact keeps _ (by simpa using h)
  · simpa using h

theorem res_repIteration (c : Fin 32) (op : QOp) (low : BitVec 8) (f : Form) (s : State) (h : Memory.Canonical s.mem) :
    ResCanonical (execRepIteration c op low f s) := res_unitOp _ _ _ _ (canonical_semOf op) _ h

theorem res_lock (c : Fin 32) (op : QOp) (low : BitVec 8) (f : Form) (s : State) (h : Memory.Canonical s.mem) :
    ResCanonical (execLock c op low f s) := res_unitOp _ _ _ _ (canonical_semOf op) _ h

theorem res_interruptEntry (c : Fin 32) (s : State) (h : Memory.Canonical s.mem) :
    ResCanonical (execInterruptEntry c s) := by
  unfold execInterruptEntry
  split
  · exact res_entryRes h (leaves_takeInterrupt _ _ h)
  · exact h

theorem res_entryTakeover (c : Fin 32) (source : Fin 1024) (cycle : Fin 15) (s : State) (h : Memory.Canonical s.mem) :
    ResCanonical (execEntryTakeover c source cycle s) := by
  have taken : MemoryCanonical (reached s source c) := MemoryCanonical.of_mem h (reached_mem ..)
  unfold execEntryTakeover
  split
  · exact h
  split
  · exact h
  split
  · exact h
  split
  · refine res_entryRes h ?_
    split
    · exact taken
    · exact leaves_enter _ _ _ taken
  · exact res_entryRes h (leaves_takeSecond _ _ _ h)

theorem res_mctEntry (c : Fin 32) (s : State) (h : Memory.Canonical s.mem) : ResCanonical (execMctEntry c s) := by
  unfold execMctEntry
  split
  · exact res_entryRes h (leaves_enter _ _ _ h)
  · exact h

theorem res_resetEntry (c : Fin 32) (s : State) (h : Memory.Canonical s.mem) : ResCanonical (execResetEntry c s) := by
  unfold execResetEntry
  split
  · exact res_entryRes h (leaves_resetEntry _ _ h)
  · exact h

theorem res_mispredictResolve (c : Fin 32) (branch target : Word) (indirect : Bool) (s : State)
    (wrong : List (Bool × Word)) (h : Memory.Canonical s.mem) :
    ResCanonical (execMispredictResolve c branch target indirect s wrong) := by
  refine res_act h ?_
  split
  · rw [mispredict_mem]
    exact memoryCanonical_iff.1 (.foldl (canonical_wrongRead c) _ h)
  · exact h

theorem res_lineFill (c : Fin 32) (line : Line) (way : Fin 16) (sector : Fin 8) (ecc : Ecc) (s : State) (code : Bool)
    (h : Memory.Canonical s.mem) : ResCanonical (execLineFill c line way sector ecc s code) := by
  refine res_act h ?_
  split
  · exact h
  dsimp only
  split
  · exact h
  · split
    · split <;> [skip; split] <;> simpa using h
    · split <;> simpa using h

theorem res_cacheDrainComplete (d : DrainId) (s : State) (h : Memory.Canonical s.mem) :
    ResCanonical (execCacheDrainComplete d s) := by
  refine res_act h ?_
  cases d with
  | l2 p =>
    dsimp only
    split
    · rwa [State.setPctl_mem, drainL2_mem]
    · exact h
  | l3 =>
    dsimp only
    split
    · rwa [emptyL3_mem, setCaches_mem]
    · exact h

theorem res_patrolScrub (errs : List (Line × MemErr)) (s : State) (h : Memory.Canonical s.mem) :
    ResCanonical (execPatrolScrub errs s) := by
  refine res_act h ?_
  split
  · exact h
  · refine memoryCanonical_iff.1 (.foldl (fun t e before => ?_) _ h)
    split
    · exact before.of_mem (memError_mem ..)
    · exact before

theorem res_queueEntry (q : QueueId) (ecc : Ecc) (pl : Payload) (s : State) (h : Memory.Canonical s.mem) :
    ResCanonical (execQueueEntry q ecc pl s) := by
  have taken : Memory.Canonical (takeCredit s q pl).mem := by rwa [takeCredit_mem]
  unfold execQueueEntry
  split
  · trivial
  · refine res_act h ?_
    split
    · exact h
    split
    · rwa [dropResponse_mem]
    · cases ecc with
      | good => exact canonical_consume _ _ taken
      | corrected => exact canonical_consume _ _ (by rwa [queueCard_mem])
      | uncorrectable => exact canonical_dropEntry _ _ _ taken

theorem res_creditReturn (q : QueueId) (s : State) (h : Memory.Canonical s.mem) :
    ResCanonical (execCreditReturn q s) := by
  refine res_act h ?_
  split
  · exact h
  · exact canonical_releaseWaits _ _ (by rwa [setQueue_mem])

theorem res_benchSelfTestDone (b : Fin 18) (pass : Bool) (s : State) (h : Memory.Canonical s.mem) :
    ResCanonical (execBenchSelfTestDone b pass s) := by
  refine res_act h ?_
  split
  · exact h
  · dsimp only
    split
    · simpa using h
    · rw [serveSubsts_mem, State.setPair_mem, gateTo_mem]
      simpa using h

theorem res_substitutionResume (p : Fin 18) (pauseNs : Nat) (s : State) (h : Memory.Canonical s.mem) :
    ResCanonical (execSubstitutionResume p pauseNs s) := by
  refine res_act h ?_
  split
  · exact h
  split
  · exact h
  next b _ =>
    have resumed := canonical_resumeOn s p b h
    split
    · exact h
    · dsimp only
      rw [serveSubsts_mem]
      split
      · exact resumed
      · simpa using resumed

theorem res_handoverComplete (p : Fin 18) (s : State) (h : Memory.Canonical s.mem) :
    ResCanonical (execHandoverComplete p s) := by
  refine res_act h ?_
  split
  · exact h
  next x _ =>
    have drained : (if x.toSplit then splitL2 s p else drainL2 s p).mem = s.mem := by
      split <;> simp
    dsimp only
    split <;> simpa [drained] using h

theorem res_ertSelection (s : State) (h : Memory.Canonical s.mem) : ResCanonical (execErtSelection s) :=
  res_act h (by rwa [ertCycle_mem])

theorem res_faultCard (f : FaultRec) (s : State) (h : Memory.Canonical s.mem) : ResCanonical (execFaultCard f s) := by
  unfold execFaultCard
  split
  · exact res_act h (canonical_cardEffect _ _ (by rwa [sendCard_mem]))
  · trivial

theorem res_commandCheck (mb : Fin 64) (s : State) (h : Memory.Canonical s.mem) :
    ResCanonical (execCommandCheck mb s) := by
  refine res_act h ?_
  split
  · exact h
  · split <;> simpa using h

theorem res_commandDispatch (s : State) (h : Memory.Canonical s.mem) : ResCanonical (execCommandDispatch s) := by
  refine res_act h ?_
  split
  · exact h
  split
  · exact h
  split
  · rw [warmCheck_mem]
    exact canonical_drainCheck _ h
  · rwa [startCommand_mem]

theorem res_substitute (mb : Fin 64) (s : State) (h : Memory.Canonical s.mem) :
    ResCanonical (execSubstitute mb s) := by
  unfold execSubstitute
  split
  · exact res_act h h
  · exact res_takeUp _ _ (fun t x before => by rwa [substituteStart_mem]) h

theorem res_splitPair (mb : Fin 64) (s : State) (h : Memory.Canonical s.mem) : ResCanonical (execSplitPair mb s) := by
  refine res_takeUp _ _ (fun t x before => ?_) h
  split
  · rwa [badArg_mem]
  · split <;> simpa using before

theorem res_joinPair (mb : Fin 64) (s : State) (h : Memory.Canonical s.mem) : ResCanonical (execJoinPair mb s) := by
  refine res_takeUp _ _ (fun t x before => ?_) h
  split
  · rwa [badArg_mem]
  · split <;> simpa using before

theorem res_memChannelRebuild (mb : Fin 64) (ev : RebuildEv) (s : State) (h : Memory.Canonical s.mem) :
    ResCanonical (execMemChannelRebuild mb ev s) := by
  unfold execMemChannelRebuild
  split
  · exact res_takeUp _ _ (fun t x before => by rwa [rebuildEvent_mem, rebuildStart_mem]) h
  · exact res_act h (by rwa [rebuildEvent_mem])

theorem res_keyErase (mb : Fin 64) (s : State) (h : Memory.Canonical s.mem) : ResCanonical (execKeyErase mb s) :=
  res_takeUp _ _ (fun t x before => canonical_keyEraseStart t x mb before) h

theorem res_formatLoad (mb : Fin 64) (s : State) (h : Memory.Canonical s.mem) :
    ResCanonical (execFormatLoad mb s) := by
  have ends (t : State) (b : List Byte) := canonical_formatDone t mb b
  unfold execFormatLoad
  split
  · refine res_takeUp _ _ (fun t x before => ?_) h
    split
    · rwa [badArg_mem]
    split
    · rwa [mbFail_mem]
    · exact canonical_inputChunk _ _ ends (by rwa [State.setMb_mem])
  · refine res_act h ?_
    split
    · exact canonical_consumeChunk _ (fun t => canonical_inputChunk _ _ ends) h
    · exact h

theorem res_instanceReset (mb : Fin 64) (s : State) (h : Memory.Canonical s.mem) :
    ResCanonical (execInstanceReset mb s) := by
  unfold execInstanceReset
  split
  · exact res_takeUp _ _ (fun t x before => canonical_instanceResetStart t x mb before) h
  · exact res_act h (by split <;> simpa using h)

theorem res_todSteer (mb : Fin 64) (s : State) (h : Memory.Canonical s.mem) : ResCanonical (execTodSteer mb s) :=
  res_takeUp _ _ (fun t x before => canonical_todSteerStart t x mb before) h

theorem res_fwStage (mb : Fin 64) (s : State) (h : Memory.Canonical s.mem) : ResCanonical (execFwStage mb s) := by
  have ends (t : State) (b : List Byte) (before : Memory.Canonical t.mem) : Memory.Canonical (stageDone t mb b).mem := by
    rwa [stageDone_mem]
  unfold execFwStage
  split
  · refine res_takeUp _ _ (fun t x before => ?_) h
    split
    · rwa [mbFail_mem]
    · exact canonical_inputChunk _ _ ends (by rwa [State.setMb_mem])
  · refine res_act h ?_
    split
    · exact canonical_consumeChunk _ (fun t => canonical_inputChunk _ _ ends) h
    · exact h

theorem res_fwActivate (mb : Fin 64) (s : State) (h : Memory.Canonical s.mem) :
    ResCanonical (execFwActivate mb s) := by
  unfold execFwActivate
  split
  · exact res_takeUp _ _ (fun t x before => canonical_fwActivateStart t x mb before) h
  · exact res_act h (canonical_drainCheck _ h)

theorem res_fwDrainLimitExpiry (s : State) (h : Memory.Canonical s.mem) :
    ResCanonical (execFwDrainLimitExpiry s) := by
  refine res_act h ?_
  split
  · exact h
  · split
    · exact canonical_switchPoint _ _ h
    · exact h

theorem res_fwImageSwitchDone (ok : Bool) (s : State) (h : Memory.Canonical s.mem) :
    ResCanonical (execFwImageSwitchDone ok s) := by
  refine res_act h ?_
  split
  · exact h
  · split
    · rwa [imageSwitched_mem]
    · exact h

theorem res_sequencerUpdateStep (s : State) (h : Memory.Canonical s.mem) :
    ResCanonical (execSequencerUpdateStep s) := by
  refine res_act h ?_
  split
  · exact h
  · split
    · exact canonical_sequencerStep _ _ h
    · exact h

theorem res_attest (mb : Fin 64) (s : State) (h : Memory.Canonical s.mem) : ResCanonical (execAttest mb s) := by
  have next (t : State) (before : Memory.Canonical t.mem) :
      Memory.Canonical (outputChunk t mb 63 (fun k => 8 * k) fun u => u).mem :=
    canonical_outputChunk _ _ _ (fun _ before => before) before
  unfold execAttest
  dsimp only
  split
  · exact res_takeUp _ _ (fun t _ => next t) h
  · refine res_act h ?_
    split
    · exact canonical_consumeChunk _ next h
    · exact h

theorem res_faultLogRead (mb : Fin 64) (s : State) (h : Memory.Canonical s.mem) :
    ResCanonical (execFaultLogRead mb s) := by
  have next (t : State) (before : Memory.Canonical t.mem) :
      Memory.Canonical (outputChunk t mb 60 (fun k => k / 12) fun u => logClear u mb).mem :=
    canonical_outputChunk _ _ _ (fun t before => by rwa [logClear_mem]) before
  unfold execFaultLogRead
  dsimp only
  split
  · refine res_takeUp _ _ (fun t x before => ?_) h
    split
    · rwa [badArg_mem]
    · exact next _ (by rwa [State.setMb_mem])
  · refine res_act h ?_
    split
    · exact canonical_consumeChunk _ next h
    · exact h

theorem res_warmReset (mb : Fin 64) (s : State) (h : Memory.Canonical s.mem) : ResCanonical (execWarmReset mb s) := by
  unfold execWarmReset
  split
  · exact res_takeUp _ _ (fun t _ before => by rwa [warmCheck_mem]) h
  · exact res_act h (by rwa [warmStops_mem, warmCheck_mem])

theorem res_warmResetWaitExpiry (s : State) (h : Memory.Canonical s.mem) :
    ResCanonical (execWarmResetWaitExpiry s) := by
  refine res_act h ?_
  split
  · exact h
  · dsimp only
    rw [warmBegin_mem]
    refine canonical_soloRelease _ ?_
    rwa [State.foldl_mem fun t m => mbEnd_mem t m 10]

theorem res_duplexBindTimeout (s : State) (h : Memory.Canonical s.mem) : ResCanonical (execDuplexBindTimeout s) := by
  refine res_act h ?_
  split
  · exact h
  · split
    · exact canonical_bindFails _ _ h
    · exact h

theorem res_duplexSyncComplete (s : State) (h : Memory.Canonical s.mem) :
    ResCanonical (execDuplexSyncComplete s) := by
  refine res_act h ?_
  split
  · exact h
  · split
    · rwa [syncDone_mem]
    · exact h

theorem res_duplexTakeover (mb : Fin 64) (s : State) (h : Memory.Canonical s.mem) :
    ResCanonical (execDuplexTakeover mb s) :=
  res_takeUp _ _ (fun t _ before => canonical_duplexTakeover t mb before) h

theorem res_lkWrite (mb : Fin 64) (s : State) (h : Memory.Canonical s.mem) : ResCanonical (execLkWrite mb s) :=
  res_takeUp _ _ (fun t x before => canonical_lkWriteStart t x mb before) h

theorem res_dataMessage (port : Fin 4) (m : MsgHdr) (payload : List Byte) (s : State) (h : Memory.Canonical s.mem) :
    ResCanonical (execDataMessage port m payload s) := by
  unfold execDataMessage
  dsimp only
  split
  · exact res_actSub _ h (canonical_dataMsg _ _ _ _ h)
  · exact res_act h h

theorem res_ackMessage (m : MsgHdr) (s : State) (h : Memory.Canonical s.mem) : ResCanonical (execAckMessage m s) := by
  unfold execAckMessage
  dsimp only
  split
  · refine res_actSub _ h ?_
    split
    · exact h
    · split
      · exact h
      · exact canonical_endSend _ _ _ _ _ _ h
  · exact res_act h h

theorem res_nakMessage (m : MsgHdr) (reason : NakReason) (s : State) (h : Memory.Canonical s.mem) :
    ResCanonical (execNakMessage m reason s) := by
  unfold execNakMessage
  dsimp only
  split
  · refine res_actSub _ h ?_
    split
    · exact h
    · split
      · exact canonical_nakSend _ _ _ h
      · exact h
  · exact res_act h h

theorem res_syncReq (port : Fin 4) (m : MsgHdr) (s : State) (h : Memory.Canonical s.mem) :
    ResCanonical (execSyncReq port m s) := by
  unfold execSyncReq
  dsimp only
  split
  · exact res_actSub _ h (by split <;> simpa using h)
  · exact res_act h h

theorem res_syncRsp (m : MsgHdr) (rx : BitVec 48) (map : BitVec 64) (opids : List Word) (s : State)
    (h : Memory.Canonical s.mem) : ResCanonical (execSyncRsp m rx map opids s) := by
  unfold execSyncRsp
  dsimp only
  split
  · refine res_actSub _ h ?_
    split
    · exact canonical_synchronise _ _ _ _ _ h
    · exact h
  · exact res_act h h

theorem res_syncSkip (m : MsgHdr) (s : State) (h : Memory.Canonical s.mem) : ResCanonical (execSyncSkip m s) := by
  unfold execSyncSkip
  dsimp only
  split
  · exact res_actSub _ h (canonical_syncSkip _ _ _ h)
  · exact res_act h h

theorem res_e2eTimeout (sub : BitVec 16) (seq : BitVec 48) (s : State) (h : Memory.Canonical s.mem) :
    ResCanonical (execE2eTimeout sub seq s) := by
  refine res_actSub _ h ?_
  split
  · exact h
  · split
    · exact canonical_attemptFailed _ _ h
    · exact h

theorem res_rnrRetryTimer (sub : BitVec 16) (seq : BitVec 48) (s : State) (h : Memory.Canonical s.mem) :
    ResCanonical (execRnrRetryTimer sub seq s) := by
  refine res_actSub _ h ?_
  split
  · exact h
  · split
    · rw [setSend_mem]
      exact (writes_chanJoin ..).canonical h
    · exact h

theorem res_nopathTimeout (sub : BitVec 16) (seq : BitVec 48) (s : State) (h : Memory.Canonical s.mem) :
    ResCanonical (execNopathTimeout sub seq s) := by
  refine res_actSub _ h ?_
  split
  · exact h
  · split
    · exact canonical_definiteFailure _ _ _ h
    · exact h

theorem res_syncTimeout (sub : BitVec 16) (s : State) (h : Memory.Canonical s.mem) :
    ResCanonical (execSyncTimeout sub s) := by
  refine res_actSub _ h ?_
  split
  · exact canonical_setSdState _ _ _ (by rwa [dropReq_mem])
  · exact h

theorem res_laneFailure (port : Fin 5) (lane : Fin 9) (s : State) (h : Memory.Canonical s.mem) :
    ResCanonical (execLaneFailure port lane s) := by
  unfold execLaneFailure
  split
  · exact res_act h (canonical_laneFails _ _ _ h)
  · trivial

theorem res_pcieInboundRequest (port : Bool) (req : PcieReq) (s : State) (h : Memory.Canonical s.mem) :
    ResCanonical (execPcieInboundRequest port req s) := by
  unfold execPcieInboundRequest
  split
  · refine res_act h ?_
    split
    · exact h
    · exact canonical_inbound _ _ _ h
  · trivial

theorem res_mirrorWrite (line : Line) (mask : BitVec 8) (data : List Byte) (s : State) (rtype : BitVec 4)
    (h : Memory.Canonical s.mem) : ResCanonical (execMirrorWrite line mask data s rtype) := by
  unfold execMirrorWrite
  split
  · trivial
  split
  · exact res_act h (by split <;> simpa using h)
  split
  · refine res_act h ?_
    split
    · exact canonical_applyWrite _ _ _ _ h
    · exact h
  · trivial

theorem res_heartbeat (role : Bool) (modid : BitVec 14) (st : BitVec 3) (s : State) (bind : Option BindInfo)
    (h : Memory.Canonical s.mem) : ResCanonical (execHeartbeat role modid st s bind) := by
  refine res_act h ?_
  split
  · rwa [queueCtl_mem]
  · split
    · rwa [queueCtl_mem]
    · exact h
  · exact canonical_bindHeard _ _ _ _ _ h
  · split
    · exact canonical_startTakeover _ h
    · exact h
  · exact h

theorem res_checkpoint (c : Fin 32) (boundary : Bool) (s : State) (h : Memory.Canonical s.mem) :
    ResCanonical (execCheckpoint c boundary s) := by
  unfold execCheckpoint
  split
  · exact res_act h h
  split
  · exact res_act h h
  · exact res_act h (canonical_checkpointWrite _ _ h)

theorem res_tamperAlarm (j : Fin 4) (level : Bool) (cycles : Nat) (s : State) (h : Memory.Canonical s.mem) :
    ResCanonical (execTamperAlarm j level cycles s) := by
  unfold execTamperAlarm
  split
  · exact res_done h
  · refine res_done ?_
    split
    · exact canonical_alarmIfEnabled _ _ h
    · exact h

theorem res_sensorAlarm (a : AlarmKind) (s : State) (h : Memory.Canonical s.mem) :
    ResCanonical (execSensorAlarm a s) := by
  refine res_done ?_
  split
  · exact h
  · cases a with
    | voltage => exact canonical_alarmIfEnabled _ _ h
    | temperature n v =>
      dsimp only
      split
      · exact canonical_thermalTrip _ (canonical_alarmIfEnabled _ _ h)
      · exact canonical_alarmIfEnabled _ _ h
    | glitch => exact canonical_alarmIfEnabled _ _ h

theorem res_timeNowfRead (r : Req) (lag : Fin 3) (s : State) (h : Memory.Canonical s.mem) :
    ResCanonical (execTimeNowfRead r lag s) := by
  refine res_act h ?_
  split
  · exact canonical_access _ _ _ _ _ _ h
  · split <;> simpa using h

theorem res_entropyStartTest (raw : BitVec 4096) (s : State) (h : Memory.Canonical s.mem) :
    ResCanonical (execEntropyStartTest raw s) := by
  refine res_act h ?_
  split
  · exact h
  · exact canonical_healthTest _ _ (fun _ before => before) h

theorem res_healthTestFailure (raw : List Bool) (s : State) (h : Memory.Canonical s.mem) :
    ResCanonical (execHealthTestFailure raw s) := by
  refine res_act h ?_
  split
  · exact canonical_healthTest _ _ (fun _ before => before) h
  · exact h

theorem res_drbgReseed (s : State) (raw : BitVec 1024) (h : Memory.Canonical s.mem) :
    ResCanonical (execDrbgReseed s raw) := by
  refine res_act h ?_
  split
  · exact canonical_healthTest _ _ (fun t => canonical_drbgSeed t raw) h
  · exact h

theorem res_blockReset (b : Blk) (s : State) (h : Memory.Canonical s.mem) : ResCanonical (execBlockReset b s) :=
  res_act h (canonical_flushCtl _ (canonical_soloRelease _ (canonical_blockReset _ _ h)))

theorem res_railFailure (rail : Fin 6) (s : State) (h : Memory.Canonical s.mem) :
    ResCanonical (execRailFailure rail s) := by
  have fired := canonical_alarmIfEnabled s 4 h
  unfold execRailFailure
  dsimp only
  split
  · exact res_done h
  · refine res_done ?_
    split
    · exact fired
    · exact Memory.canonical_mk fired

theorem res_sensorUpdate (n : Fin 32) (raw : BitVec 16) (selfCheck : Bool) (s : State) (h : Memory.Canonical s.mem) :
    ResCanonical (execSensorUpdate n raw selfCheck s) := by
  unfold execSensorUpdate
  dsimp only
  split
  · exact res_done h
  · refine res_done (canonical_sensorFires _ _ ?_)
    split_ifs <;> simpa using h

theorem res_i3cRead (off : BitVec 16) (s : State) (h : Memory.Canonical s.mem) :
    ResCanonical (execI3cRead off s) := by
  refine res_done ?_
  split
  · exact h
  · split <;> simpa using h

theorem res_undefinedEncoding (c : Fin 32) (h0 h1 h2 : HWord) (s : State) (h : Memory.Canonical s.mem) :
    ResCanonical (execUndefinedEncoding c h0 h1 h2 s) := by
  unfold execUndefinedEncoding
  split
  · exact res_unitOp _ _ _ _ (canonical_semOf _) _ h
  · refine res_unitCmd _ _ _ (fun _ _ => ?_) _ h
    exact trivial

/-- Every command: the units of an operation, the writes and reads of a register, and the commands that have a lemma of
their own; the others change no byte, or are one operation that keeps the form. -/
theorem canonical_exec (i : Instr) (s : State) (h : Memory.Canonical s.mem) : ResCanonical (exec i s) := by
  cases i
  case nerrPulseEnd | mgperst | jtagInstruction => exact res_done h
  case operandEntryAgeOut | ctxTlbinvWrite | ctxTtbWrite | ppsOutPulseEnd =>
    exact res_act h h
  case powerOn | nreset | thermalTripRelease | vstbyLoss | i3cAddressAssign | nresetRelease =>
    exact res_done (by simp [h])
  case ld | st | ldx | stx | ldy | sty | leax | leay | xchg | add | adc | sub | sbb | and | or | xor | shl | shr |
      sar | rol | ror | tst | cmp | cmpu | mul | mulh | mulhu | div | divu | rem | remu | br | call | cflush |
      cinvr | fcmp | fadd | fsub | fmul | fdiv | fsqrt | fma | fmin | fmax | dad | dsb | dmul | drnd | dcmp | dval |
      dadExt | dsbExt | dmulExt | drndExt | dcmpExt | dvalExt | ret | reti | wait | trap | fence | pflush | pbar |
      punbar | rnda | mvax | mvxa | mvay | mvya | not | neg | xchgX | xchgY | fcvt | fcvti | icvtf | dcvb | dcvbExt |
      bcvd | ctOn | ctOff =>
    exact res_plain _ _ _ _ h
  case snoop | cachePctlWrite | cacheL3ctlWrite | cacheScrub | memoryRequest | controlWrite | mgmtBar0Request |
      letRollback | umpireCodeError | slotWindowWrite | eventArrival | evtBallChange | msixWrite | deliveryArrival |
      deliveryWithdrawal | ertMasksetWrite | ertMaskclrWrite | ertPendWrite | ertSwraise | ertSrcWrite | ertEoi |
      ertEoic | fcrClose | fcrPinWrite | mbGoStart | mbGoContinue | mbGoAbort | wayDelete | memChannelOffline |
      keyLoad | instanceCreate | instanceDrainComplete | todSet | todSetNoPps | sensorCalibrate | duplexBind |
      chanDoorbell | chanBindFresh | chanBindSync | chanUnbind | unbindComplete | chanJtailWrite | sendSchedule |
      flitWindow | flitReceived | linkReplayTimeout | linkSilenceTimeout | trainingComplete | retrainTimer |
      rootPortLinkEvent | mirrorJhead | mirrorCkptCommit | appliedCount | dupxSyncRead | heartbeatSend |
      partnerLoss | fenceFlit | relinquish | takeoverComplete | zipSubmit | zipChunk | ciphSubmit | cipherUnit |
      keyErasureComplete | ciphAlarmClear | instCtxownWrite | bucketRefill | todTick | deadlineReached |
      timeDlarmWrite | timeRead | ppsEdge | holdoverEntry | holdoverCorrection | entropyRestart | drbgSeedTimeout |
      contextReset | contextRelease | contextWakeWrite | napWake | gateEntry | gateExit | pllLockLoss | railCheck |
      dbgCtlWrite | dbgHaltWrite | csacc | controlRead | relinquishTimeout | watchdogRestart | mgmtLinkError =>
    exact res_act h (by simp [h])
  case repIteration => exact res_repIteration _ _ _ _ _ h
  case lock => exact res_lock _ _ _ _ _ h
  case interruptEntry => exact res_interruptEntry _ _ h
  case entryTakeover => exact res_entryTakeover _ _ _ _ h
  case mctEntry => exact res_mctEntry _ _ h
  case resetEntry => exact res_resetEntry _ _ h
  case mispredictResolve => exact res_mispredictResolve _ _ _ _ _ _ h
  case lineFill => exact res_lineFill _ _ _ _ _ _ _ h
  case cacheDrainComplete => exact res_cacheDrainComplete _ _ h
  case patrolScrub => exact res_patrolScrub _ _ h
  case queueEntry => exact res_queueEntry _ _ _ _ h
  case creditReturn => exact res_creditReturn _ _ h
  case benchSelfTestDone => exact res_benchSelfTestDone _ _ _ h
  case substitutionResume => exact res_substitutionResume _ _ _ h
  case handoverComplete => exact res_handoverComplete _ _ h
  case ertSelection => exact res_ertSelection _ h
  case faultCard => exact res_faultCard _ _ h
  case commandCheck => exact res_commandCheck _ _ h
  case commandDispatch => exact res_commandDispatch _ h
  case substitute => exact res_substitute _ _ h
  case splitPair => exact res_splitPair _ _ h
  case joinPair => exact res_joinPair _ _ h
  case memChannelRebuild => exact res_memChannelRebuild _ _ _ h
  case keyErase => exact res_keyErase _ _ h
  case formatLoad => exact res_formatLoad _ _ h
  case instanceReset => exact res_instanceReset _ _ h
  case todSteer => exact res_todSteer _ _ h
  case fwStage => exact res_fwStage _ _ h
  case fwActivate => exact res_fwActivate _ _ h
  case fwDrainLimitExpiry => exact res_fwDrainLimitExpiry _ h
  case fwImageSwitchDone => exact res_fwImageSwitchDone _ _ h
  case sequencerUpdateStep => exact res_sequencerUpdateStep _ h
  case attest => exact res_attest _ _ h
  case faultLogRead => exact res_faultLogRead _ _ h
  case warmReset => exact res_warmReset _ _ h
  case warmResetWaitExpiry => exact res_warmResetWaitExpiry _ h
  case duplexBindTimeout => exact res_duplexBindTimeout _ h
  case duplexSyncComplete => exact res_duplexSyncComplete _ h
  case duplexTakeover => exact res_duplexTakeover _ _ h
  case lkWrite => exact res_lkWrite _ _ h
  case dataMessage => exact res_dataMessage _ _ _ _ h
  case ackMessage => exact res_ackMessage _ _ h
  case nakMessage => exact res_nakMessage _ _ _ h
  case syncReq => exact res_syncReq _ _ _ h
  case syncRsp => exact res_syncRsp _ _ _ _ _ h
  case syncSkip => exact res_syncSkip _ _ h
  case e2eTimeout => exact res_e2eTimeout _ _ _ h
  case rnrRetryTimer => exact res_rnrRetryTimer _ _ _ h
  case nopathTimeout => exact res_nopathTimeout _ _ _ h
  case syncTimeout => exact res_syncTimeout _ _ h
  case laneFailure => exact res_laneFailure _ _ _ h
  case pcieInboundRequest => exact res_pcieInboundRequest _ _ _ h
  case mirrorWrite => exact res_mirrorWrite _ _ _ _ _ h
  case heartbeat => exact res_heartbeat _ _ _ _ _ h
  case checkpoint => exact res_checkpoint _ _ _ h
  case tamperAlarm => exact res_tamperAlarm _ _ _ _ h
  case sensorAlarm => exact res_sensorAlarm _ _ h
  case timeNowfRead => exact res_timeNowfRead _ _ _ h
  case entropyStartTest => exact res_entropyStartTest _ _ h
  case healthTestFailure => exact res_healthTestFailure _ _ h
  case drbgReseed => exact res_drbgReseed _ _ h
  case blockReset => exact res_blockReset _ _ h
  case railFailure => exact res_railFailure _ _ h
  case sensorUpdate => exact res_sensorUpdate _ _ _ _ h
  case i3cRead => exact res_i3cRead _ _ h
  case undefinedEncoding => exact res_undefinedEncoding _ _ _ _ _ h

theorem canonical_step {s t : State} (h : MemoryCanonical s) (next : step s = .next t) : MemoryCanonical t := by
  have kept : ResCanonical (step s) := by
    unfold step
    split
    · exact h
    · exact canonical_exec _ _ h
  rwa [next] at kept

end Sys2Proof.Machine
end

section
namespace Sys2Proof.Proofs
open Sys2Proof.Machine

/-- Settles O29: by the command in front of the queue, each of which keeps the form. -/
theorem memoryStaysCanonical : Obligations.MemoryStaysCanonical := by
  unfold Obligations.MemoryStaysCanonical
  exact fun _ _ => canonical_step

end Sys2Proof.Proofs
end

section
/-! PROOFS. The entropy source and the DRBG. -/
namespace Sys2Proof.Machine

/-- With events and cards flowing, an event sent beside a card is pending. -/
theorem card_raise_pend {s : State} (flows : Flows s) {n : Nat} (used : reservedSource n = false) (inside : n < 1024)
    (i k g x d : Nat) : bitOf (card (raise s n) i k g x d).ert.pend n = true := by
  rw [card_ert, flows.raise used, bitOf_setPend _ inside, if_pos rfl]

theorem healthTest_pass {s : State} {l : List Bool} {h : Health} (pass : State → State)
    (passes : s.time.health.run' l = (h, none)) :
    healthTest s l pass = pass { s with time := { s.time with health := h } } := by
  rw [healthTest, passes]

theorem healthTest_fail {s : State} {l : List Bool} {h : Health} {a : Bool} (pass : State → State)
    (fails : s.time.health.run' l = (h, some a)) : healthTest s l pass = entropyFail (entropyCount s a) := by
  rw [healthTest, fails]

/-- The instants of the failures within the last second, this one's before them. -/
def recentFails (s : State) : List Nat := (s.crp.us :: s.time.entFails).filter fun t => decide (s.crp.us < t + 1000000)

/-- The entropy source as a failed health test stops it. -/
def entropyStopped (s : State) : State := { s with time := { s.time with
  srcOk := false
  entFails := recentFails s
  health := .reset
  ent := if 3 ≤ (recentFails s).length then .failedForGood else .waitRestart } }

theorem entropyFail_eq (s : State) : entropyFail s = card (raise (entropyStopped s) 259) 311 1 0 0 0 := rfl

theorem entropyFail_time (s : State) : (entropyFail s).time = (entropyStopped s).time := by
  rw [entropyFail_eq, card_time, raise_time]

theorem entropyFail_pend {s : State} (flows : Flows s) : bitOf (entropyFail s).ert.pend 259 = true := by
  have flows' : Flows (entropyStopped s) := flows.of_bus rfl
  rw [entropyFail_eq]
  exact card_raise_pend flows' (by decide) (by decide) ..

theorem entropyFail_ent_ne_starting (s : State) : (entropyFail s).time.ent ≠ .starting := by
  rw [entropyFail_time]
  change (if _ then EntSt.failedForGood else EntSt.waitRestart) ≠ _
  split <;> decide

/-- The first failure within a second lets the source restart. -/
theorem entropyFail_ent_first {s : State} (first : s.time.entFails = []) : (entropyFail s).time.ent = .waitRestart := by
  have few : (recentFails s).length ≤ 1 := by
    rw [recentFails, first]
    exact List.length_filter_le _ _
  rw [entropyFail_time]
  exact if_neg (by omega)

theorem drbgSeed_drbg (s : State) (raw : BitVec 1024) :
    (drbgSeed s raw).time.drbg = (if s.time.seeded then s.time.drbg.update (blockDf (seedBytes raw))
      else Drbg.reset.update (blockDf (seedBytes raw ++ leBytes 4 s.crp.kept.serial.toNat))) := by
  cases seeded : s.time.seeded <;> simp [drbgSeed, seeded]

theorem exec_entropyStartTest {s : State} (raw : BitVec 4096) (starting : s.time.ent = .starting) :
    exec (.entropyStartTest raw) s = act s (healthTest { s with time := { s.time with health := .reset } } (rawBits raw)
      fun t => { t with time := { t.time with ent := .ok, srcOk := true } }) :=
  congrArg (act s) (if_neg (not_not_intro starting))

theorem exec_healthTestFailure {s : State} (raw : List Bool) (ok : s.time.ent = .ok) :
    exec (.healthTestFailure raw) s = act s (healthTest s raw id) :=
  congrArg (act s) (if_pos (.inl ok))

theorem exec_drbgReseed {s : State} (raw : BitVec 1024) (ok : s.time.ent = .ok) :
    exec (.drbgReseed raw) s = act s (healthTest s (rawBits raw) fun t => drbgSeed t raw) :=
  congrArg (act s) (if_pos ok)

theorem exec_drbgSeedTimeout (s : State) : exec .drbgSeedTimeout s =
    act s (if seedDue s && !s.time.drbgFail then
      card (raise { s with time := { s.time with drbgOk := false, drbgFail := true } } 260) 312 1 0 0 0 else s) := rfl

end Sys2Proof.Machine

namespace Sys2Proof.Proofs
open Sys2Proof.Machine

/-- Settles O58: each command by the outcome of the health tests. -/
theorem entropy : Obligations.Entropy := by
  unfold Obligations.Entropy
  refine ⟨?startPasses, ?startFails, ?runFails, ?runPasses, ?restart, ?reseed, ?timeout, ?notDue⟩
  case startPasses =>
    intro s raw h calm starting passes
    rw [exec_entropyStartTest raw starting, healthTest_pass (s := { s with time := { s.time with health := .reset } }) _ passes]
    exact calm.act rfl rfl
  case startFails =>
    intro s raw h a live starting fails
    refine ⟨entropyFail (entropyCount { s with time := { s.time with health := .reset } } a), ?_, ?_⟩
    · rw [exec_entropyStartTest raw starting, healthTest_fail (s := { s with time := { s.time with health := .reset } }) _ fails]
      exact act_live _ _ live
    rw [entropyFail_time]
    exact ⟨rfl, entropyFail_time _ ▸ entropyFail_ent_ne_starting _, rfl, rfl, fun flows => entropyFail_pend (flows.of_bus rfl)⟩
  case runFails =>
    intro s raw h a live ok fails
    refine ⟨entropyFail (entropyCount s a), ?_, ?_⟩
    · rw [exec_healthTestFailure raw ok, healthTest_fail _ fails]
      exact act_live _ _ live
    rw [entropyFail_time]
    exact ⟨rfl, rfl, rfl, fun flows => entropyFail_pend (flows.of_bus rfl),
      fun first => entropyFail_time _ ▸ entropyFail_ent_first first⟩
  case runPasses =>
    intro s raw h calm ok passes
    rw [exec_healthTestFailure raw ok, healthTest_pass _ passes]
    exact calm.act rfl rfl
  case restart =>
    intro s calm waits
    exact (congrArg (act s) (if_pos waits)).trans (calm.act rfl rfl)
  case reseed =>
    intro s raw h calm ok passes
    refine ⟨drbgSeed { s with time := { s.time with health := h } } raw, ?_, rfl, rfl, rfl, rfl, rfl, rfl, drbgSeed_drbg _ _⟩
    rw [exec_drbgReseed raw ok, healthTest_pass _ passes]
    exact calm.act rfl rfl
  case timeout =>
    intro s live due up
    refine ⟨card (raise { s with time := { s.time with drbgOk := false, drbgFail := true } } 260) 312 1 0 0 0, ?_, ?_, ?_, ?_⟩
    · rw [exec_drbgSeedTimeout, due, up]
      exact act_live _ _ live
    · rw [card_time, raise_time]
    · rw [card_time, raise_time]
    · intro flows
      have flows' : Flows { s with time := { s.time with drbgOk := false, drbgFail := true } } := flows.of_bus rfl
      exact card_raise_pend flows' (by decide) (by decide) ..
  case notDue =>
    intro s calm notDue
    rw [exec_drbgSeedTimeout, notDue]
    exact calm.act rfl rfl
end Sys2Proof.Proofs
end

section
/-! PROOFS. Debug, JTAG and I3C. -/
namespace Sys2Proof.Machine

/-! ## Contexts beside a halt or a release -/

/-- What the debug commands say of a context: whether it runs, enters or was halted, its PC and its A. -/
def Ctx.core (x : Ctx) : Run × Bool × Bool × Word × Word := (x.run, x.entering, x.dbgHalted, x.pc, x.a)

/-- A step on the way of a halt leaves the debug registers, the waiting accesses, the places of contexts and the pairs out of
GATE; and a context out of NAP goes on as it was. -/
structure KeepsRun (c : Nat) (s t : State) : Prop where
  aud : t.aud = s.aud
  waits : t.bus.waitCtl = s.bus.waitCtl
  place : placeOf t c = placeOf s c
  awake : ∀ p, (s.pair p).gated = false → (t.pair p).gated = false
  runs : (s.ctx c).run ≠ .nap → (t.ctx c).core = (s.ctx c).core

namespace KeepsRun
variable {c : Nat} {s t u : State}

theorem refl (c : Nat) (s : State) : KeepsRun c s s := ⟨rfl, rfl, rfl, fun _ h => h, fun _ => rfl⟩

theorem trans (h : KeepsRun c s t) (k : KeepsRun c t u) : KeepsRun c s u where
  aud := k.aud.trans h.aud
  waits := k.waits.trans h.waits
  place := k.place.trans h.place
  awake p g := k.awake p (h.awake p g)
  runs g := by
    have run : (t.ctx c).run = (s.ctx c).run := congrArg Prod.fst (h.runs g)
    exact (k.runs (run ▸ g)).trans (h.runs g)

theorem foldl {α : Type} {f : State → α → State} (l : List α) (step : ∀ t, ∀ x ∈ l, KeepsRun c t (f t x)) (s : State) :
    KeepsRun c s (l.foldl f s) :=
  List.foldlRecOn l f (motive := KeepsRun c s) (refl c s) fun t h x i => h.trans (step t x i)

/-- What changes neither a context nor a pair. -/
theorem of_same (ctxs : t.ctxs = s.ctxs) (pairs : t.pairs = s.pairs) (aud : t.aud = s.aud)
    (waits : t.bus.waitCtl = s.bus.waitCtl) : KeepsRun c s t where
  aud := aud
  waits := waits
  place := by unfold placeOf State.pair; rw [pairs]
  awake p g := by simpa only [State.pair, pairs] using g
  runs _ := by simp only [State.ctx, ctxs]

/-- A context is replaced by one that goes on as it did. -/
theorem setCtx {m : Nat} {x : Ctx} (same : (s.ctx m).run ≠ .nap → x.core = (s.ctx m).core) : KeepsRun c s (s.setCtx m x) where
  aud := rfl
  waits := rfl
  place := rfl
  awake _ g := g
  runs g := by
    by_cases e : c = m
    · subst e
      rw [State.ctx_setCtx, same g]
    · rw [State.ctx_setCtx_other _ _ _ _ e]

theorem setCtx_other {m : Nat} (x : Ctx) (h : c ≠ m) : KeepsRun c s (s.setCtx m x) where
  aud := rfl
  waits := rfl
  place := rfl
  awake _ g := g
  runs _ := by rw [State.ctx_setCtx_other _ _ _ _ h]

end KeepsRun

theorem placeOf_setPair {s : State} {p : Nat} {x : Pair} (h0 : x.slot0 = (s.pair p).slot0) (h1 : x.slot1 = (s.pair p).slot1)
    (c : Nat) : placeOf (s.setPair p x) c = placeOf s c := by
  have slots (q : Nat) : ((s.setPair p x).pair q).slot0 = (s.pair q).slot0 ∧ ((s.setPair p x).pair q).slot1 = (s.pair q).slot1 := by
    by_cases e : q = p
    · rw [e, State.pair_setPair]
      exact ⟨h0, h1⟩
    · rw [State.pair_setPair_other _ _ _ _ e]
      exact ⟨rfl, rfl⟩
  simp only [placeOf, slots]

theorem Ctx.wake_of_ne_nap {x : Ctx} (h : x.run ≠ .nap) : x.wake = x := if_neg h

theorem keepsRun_wakeCtx (c : Nat) (s : State) (m : Nat) : KeepsRun c s (wakeCtx s m) := by
  unfold wakeCtx
  split
  · split
    · exact .refl c s
    · exact .setCtx fun g => by rw [Ctx.wake_of_ne_nap g]
  · exact .refl c s

@[simp] theorem raise_waitCtl (s : State) (n : Nat) : (raise s n).bus.waitCtl = s.bus.waitCtl := by
  unfold raise sendEvent
  split
  · rfl
  · split <;> rfl

theorem keepsRun_raise (c : Nat) (s : State) (n : Nat) : KeepsRun c s (raise s n) :=
  .of_same (raise_ctxs s n) (raise_pairs s n) (raise_aud s n) (raise_waitCtl s n)

theorem keepsRun_gateExit (c : Nat) (s : State) (p : Nat) : KeepsRun c s (gateExit s p) := by
  have leaves : KeepsRun c s (s.setPair p { s.pair p with gated := false, pred := [], predT := [] }) :=
    { aud := rfl
      waits := rfl
      place := placeOf_setPair (x := { s.pair p with gated := false, pred := [], predT := [] }) rfl rfl c
      awake := fun q g => by
        by_cases e : q = p
        · rw [e, State.pair_setPair]
        · rwa [State.pair_setPair_other _ _ _ _ e]
      runs := fun _ => rfl }
  unfold gateExit
  dsimp only
  split
  · exact .refl c s
  · refine leaves.trans ?_
    generalize s.setPair p _ = s1
    have empties : KeepsRun c s1 (emptyL2 s1 p) := .of_same rfl rfl rfl rfl
    refine empties.trans ?_
    generalize emptyL2 s1 p = s2
    have loses : KeepsRun c s2 ((pairCtxs s2 p).foldl (fun t c => t.setCtx c (t.ctx c).gateLoss) s2) :=
      .foldl _ (fun t m _ => .setCtx (x := (t.ctx m).gateLoss) fun _ => rfl) s2
    refine loses.trans ?_
    generalize (pairCtxs s2 p).foldl (fun t c => t.setCtx c (t.ctx c).gateLoss) s2 = s3
    have wakes : KeepsRun c s3 ((pairCtxs s3 p).foldl (fun t c => if wakeSource t c then wakeCtx t c else t) s3) := by
      refine .foldl _ (fun t m _ => ?_) s3
      split
      · exact keepsRun_wakeCtx c t m
      · exact .refl c t
    refine wakes.trans ?_
    split
    · exact keepsRun_raise c _ 307
    · exact .refl c _

theorem keepsRun_slotTouch (c : Nat) (s : State) (p : Nat) : KeepsRun c s (slotTouch s p) := by
  unfold slotTouch
  split
  · exact keepsRun_gateExit c s p
  · exact .refl c s

theorem haltRequest_eq {s : State} {c p : Nat} {k : Bool} (placed : placeOf s c = some (p, k)) :
    haltRequest s c = haltNow (slotTouch s p) c := by rw [haltRequest, placed]

/-- A halt request of another context. -/
theorem keepsRun_haltRequest {c m : Nat} (s : State) (other : c ≠ m) : KeepsRun c s (haltRequest s m) := by
  unfold haltRequest
  split
  · exact .refl c s
  · next p _ _ =>
    refine (keepsRun_slotTouch c s p).trans ?_
    unfold haltNow
    dsimp only
    split
    · exact .setCtx_other _ other
    · exact .refl c _

theorem keepsRun_haltRelease {c m : Nat} (s : State) (other : c ≠ m) : KeepsRun c s (haltRelease s m) := by
  unfold haltRelease
  dsimp only
  split
  · exact .refl c s
  · exact .setCtx_other _ other

/-! ## Halting a context -/

/-- Context c runs on a pair out of GATE with a halt due, at the PC and the A that x holds. -/
structure HaltsNext (c : Nat) (x : Ctx) (s : State) : Prop where
  due : haltDue s c = true
  place : ∃ p k, placeOf s c = some (p, k) ∧ (s.pair p).gated = false
  core : (s.ctx c).core = (.run, false, (s.ctx c).dbgHalted, x.pc, x.a)

/-- Context c stands halted, at the PC and the A that x holds. -/
def Halted (c : Nat) (x : Ctx) (s : State) : Prop := (s.ctx c).core = (.stopped, (s.ctx c).entering, true, x.pc, x.a)

theorem KeepsRun.haltsNext {c : Nat} {x : Ctx} {s t : State} (keeps : KeepsRun c s t) (h : HaltsNext c x s) :
    HaltsNext c x t := by
  obtain ⟨due, ⟨p, k, placed, awake⟩, core⟩ := h
  have same := keeps.runs (by rw [show (s.ctx c).run = .run from congrArg Prod.fst core]; decide)
  have halted : (t.ctx c).dbgHalted = (s.ctx c).dbgHalted := congrArg (·.2.2.1) same
  refine ⟨?_, ⟨p, k, keeps.place.trans placed, keeps.awake p awake⟩, ?_⟩
  · rwa [haltDue, keeps.aud]
  · rw [same, core, halted]

theorem KeepsRun.halted {c : Nat} {x : Ctx} {s t : State} (keeps : KeepsRun c s t) (h : Halted c x s) : Halted c x t := by
  have same := keeps.runs (by rw [show (s.ctx c).run = .stopped from congrArg Prod.fst h]; decide)
  have entering : (t.ctx c).entering = (s.ctx c).entering := congrArg (·.2.1) same
  rw [Halted, same, entering]
  exact h

/-- The request stops the context at once. -/
theorem halted_haltRequest {c : Nat} {x : Ctx} {s : State} (h : HaltsNext c x s) : Halted c x (haltRequest s c) := by
  obtain ⟨due, ⟨p, k, placed, awake⟩, core⟩ := h
  have touched : slotTouch s p = s := by rw [slotTouch, awake]; rfl
  rw [Ctx.core] at core
  obtain ⟨run, entering, -, pc, a⟩ : (s.ctx c).run = .run ∧ (s.ctx c).entering = false ∧ True ∧ (s.ctx c).pc = x.pc ∧
      (s.ctx c).a = x.a := by simpa using core
  have stays : (s.ctx c).wake = s.ctx c := Ctx.wake_of_ne_nap (by rw [run]; decide)
  rw [haltRequest_eq placed, touched, haltNow, stays]
  simp [due, run, entering, Halted, Ctx.core, pc, a]

/-- A context that stands halted stays so through every further request. -/
theorem halted_haltRequest_any {c m : Nat} {x : Ctx} {s : State} (h : Halted c x s) : Halted c x (haltRequest s m) := by
  by_cases e : c = m
  · subst e
    unfold haltRequest
    split
    · exact h
    · next p k placed =>
      have touched := (keepsRun_slotTouch c s p).halted h
      have run : ((slotTouch s p).ctx c).run = .stopped := congrArg Prod.fst touched
      have stays : ((slotTouch s p).ctx c).wake = (slotTouch s p).ctx c := Ctx.wake_of_ne_nap (by rw [run]; decide)
      rw [haltNow, stays]
      simpa [run] using touched
  · exact (keepsRun_haltRequest s e).halted h

theorem halted_foldl_haltRequest {c : Nat} {x : Ctx} (l : List Nat) (named : c ∈ l) {s : State} (h : HaltsNext c x s) :
    Halted c x (l.foldl haltRequest s) := by
  induction l generalizing s with
  | nil => exact absurd named List.not_mem_nil
  | cons m l ih =>
    rw [List.foldl_cons]
    by_cases e : c = m
    · exact List.foldlRecOn l haltRequest (motive := Halted c x) (e ▸ halted_haltRequest h) fun t k m' _ => halted_haltRequest_any k
    · exact ih ((List.mem_cons.1 named).resolve_left e) ((keepsRun_haltRequest s e).haltsNext h)

/-! ## DBG_CTL and DBG_HALT -/

/-- The debug requests of a write leave the debug registers and the waiting accesses. -/
theorem foldl_haltRequest_keeps (l : List Nat) (s : State) :
    (l.foldl haltRequest s).aud = s.aud ∧ (l.foldl haltRequest s).bus.waitCtl = s.bus.waitCtl := by
  refine List.foldlRecOn l haltRequest (motive := fun t => t.aud = s.aud ∧ t.bus.waitCtl = s.bus.waitCtl) ⟨rfl, rfl⟩
    fun t h m _ => ?_
  have keeps := keepsRun_haltRequest (c := m + 1) t (by omega : m + 1 ≠ m)
  exact ⟨keeps.aud.trans h.1, keeps.waits.trans h.2⟩

theorem foldl_haltRelease_keeps (l : List Nat) (s : State) :
    (l.foldl haltRelease s).aud = s.aud ∧ (l.foldl haltRelease s).bus.waitCtl = s.bus.waitCtl := by
  refine List.foldlRecOn l haltRelease (motive := fun t => t.aud = s.aud ∧ t.bus.waitCtl = s.bus.waitCtl) ⟨rfl, rfl⟩
    fun t h m _ => ?_
  have keeps := keepsRun_haltRelease (c := m + 1) t (by omega : m + 1 ≠ m)
  exact ⟨keeps.aud.trans h.1, keeps.waits.trans h.2⟩

theorem dbgCtlStore_dbgEn (s : State) (v : Word) : (dbgCtlStore s v).aud.dbgEn = bitOf v 0 := by
  rw [dbgCtlStore, (foldl_haltRequest_keeps _ _).1]

theorem dbgCtlStore_waitCtl (s : State) (v : Word) : (dbgCtlStore s v).bus.waitCtl = s.bus.waitCtl := by
  rw [dbgCtlStore, (foldl_haltRequest_keeps _ _).2]
  dsimp only
  split <;> rfl

theorem dbgHaltStore_off {s : State} (v : Word) (off : s.aud.dbgEn = false) :
    dbgHaltStore s v = { s with aud := { s.aud with halt := v.extractLsb' 0 32 } } := by
  simp [dbgHaltStore, off]

theorem dbgHaltStore_waitCtl (s : State) (v : Word) : (dbgHaltStore s v).bus.waitCtl = s.bus.waitCtl := by
  unfold dbgHaltStore
  dsimp only
  split
  · rfl
  · rw [(foldl_haltRequest_keeps _ _).2, (foldl_haltRelease_keeps _ _).2]

/-- A context that DBG_HALT names, that runs and whose pair is out of GATE, stands halted after the write. -/
theorem halted_dbgHaltStore {s : State} {v : Word} {c : Nat} {x : Ctx} (on : s.aud.dbgEn = true) (lt : c < 32)
    (named : bitOf v c = true)
    (next : HaltsNext c x { s with aud := { s.aud with halt := v.extractLsb' 0 32 } }) :
    Halted c x (dbgHaltStore s v) := by
  have listed : c ∈ ctxNums := List.mem_range.2 lt
  unfold dbgHaltStore
  dsimp only
  rw [if_neg (by rw [on]; decide)]
  refine halted_foldl_haltRequest _ (List.mem_filter.2 ⟨listed, named⟩) (KeepsRun.haltsNext ?_ next)
  refine .foldl _ (fun t m h => keepsRun_haltRelease t fun e => ?_) _
  have gone := (List.mem_filter.1 h).2
  rw [← e, named] at gone
  simp at gone

theorem bitOf_extractLsb'_zero (v : Word) {w c : Nat} (h : c < w) : bitOf (v.extractLsb' 0 w) c = bitOf v c := by
  simp [bitOf, h]

theorem Reg.isDbg_cases {g : Reg} (h : g.isDbg = true) :
    g = .dbgCtl ∨ g = .dbgHalt ∨ g = .dbgHstat ∨ (∃ b, g = .dbgBpaddr b) ∨ ∃ b, g = .dbgBpctl b := by
  unfold Reg.isDbg at h
  split at h <;> simp_all

/-- The DBG registers answer only while the audit unit is not SEALED (R388). -/
theorem permitted_dbg_not_sealed {s : State} {r : Req} {write : Bool} {g : Reg} (dbg : g.isDbg = true)
    (h : permitted s r write g = true) : s.aud.sealed = false := by
  obtain rfl | rfl | rfl | ⟨b, rfl⟩ | ⟨b, rfl⟩ := Reg.isDbg_cases dbg <;>
    cases r <;> simp_all [permitted, granted, Reg.isDbg, Reg.isAud]

theorem Reaches.not_sealed {s : State} {r : Req} {off : Nat} {g : Reg} (h : Reaches s r off g) (dbg : g.isDbg = true) :
    s.aud.sealed = false := permitted_dbg_not_sealed dbg (ctlCheck_passes h.passes).2

/-! ## CSACC -/

/-- A CSACC has been measured, and its access is on its way. -/
def csaccReady (s : State) : State := { csaccFirst s with aud := { (csaccFirst s).aud with csDone := false } }

/-- The measurement of the first CSACC touches the audit unit alone, and none of its debug registers. -/
structure CsaccReady (s t : State) : Prop where
  rest : t = { s with aud := t.aud }
  seen : t.aud.csaccSeen = true
  dbgEn : t.aud.dbgEn = s.aud.dbgEn
  bps : t.aud.bps = s.aud.bps
  isSealed : t.aud.sealed = s.aud.sealed

theorem csaccReady_spec (s : State) : CsaccReady s (csaccReady s) := by
  unfold csaccReady csaccFirst
  cases seen : s.aud.csaccSeen
  · exact ⟨rfl, rfl, rfl, rfl, rfl⟩
  · exact ⟨rfl, seen, rfl, rfl, rfl⟩

theorem exec_csacc {s : State} (write : Bool) (off : BitVec 40) (v : Word) (ir : s.aud.ir = .csacc)
    (opened : s.aud.sealed = false) :
    exec (.csacc write off v) s = act s (access (csaccReady s) .jtag write off.toNat 8 v) :=
  congrArg (act s) (if_neg (by simp [ir, opened]))

theorem CsaccReady.issues {s t : State} (h : CsaccReady s t) {r : Req} {off : Nat} (i : Issues s r off) : Issues t r off := by
  have bus : t.bus = s.bus := by rw [h.rest]
  exact ⟨by rw [noCredit, bus]; exact i.credit, bus ▸ i.noneWait⟩

theorem ctlCheck_jtag_dbg {s : State} (write : Bool) {off : Nat} {g : Reg} (aligned : off % 8 = 0) (reg : regAt off = some g)
    (dbg : g.isDbg = true) (opened : s.aud.sealed = false) : ctlCheck s .jtag write off 8 = .ok g := by
  have mapped : regMapped s g = true := by
    obtain rfl | rfl | rfl | ⟨b, rfl⟩ | ⟨b, rfl⟩ := Reg.isDbg_cases dbg <;> rfl
  rw [ctlCheck_of_some s .jtag write off g aligned reg]
  simp [mapped, permitted, dbg, opened]

/-- A read issued with a credit and none before it is performed; the word it carries is not used. -/
theorem access_read_any (s : State) (r : Req) (off w : Nat) (v : Word) (h : Issues s r off) :
    access s r false off w v = flushCtl (readNow s r off w) := by
  have now (f : State → State) : asIssued s (newAcc s r none false off w v) f = f s :=
    asIssued_now s _ f (by cases r <;> rfl)
  have fresh : (newAcc s r none false off w v).stale s = false := by simp [CtlAcc.stale, newAcc]
  have sent : accWaits s (newAcc s r none false off w v).req (newAcc s r none false off w v).off = false := by
    simp [accWaits, newAcc, h.credit, h.noneWait]
  unfold access sendAcc
  simp only [sent, performAcc, fresh, now]
  rfl

/-- What the JTAG port reads of DBG_CTL. -/
theorem readNow_jtag_dbgCtl {s : State} {off : Nat} (aligned : off % 8 = 0) (passes : ctlCheck s .jtag false off 8 = .ok .dbgCtl) :
    readNow s .jtag off 8 = { s with aud := { s.aud with csData := w64 (b2n s.aud.dbgEn), csDone := true } } := by
  have read : ctlRead s .jtag off 8 = some (s, w64 (b2n s.aud.dbgEn)) := by
    unfold ctlRead
    rw [passes, aligned]
    change some (s, bytesOfReg (w64 (b2n s.aud.dbgEn)) 0 8) = _
    rw [bytesOfReg_whole]
  rw [readNow, read]
  rfl

end Sys2Proof.Machine

namespace Sys2Proof.Proofs
open Sys2Proof.Machine

/-- Settles O60: each access by the register that it reaches, and a halt by what it keeps of every other context. -/
theorem debugCommands : Obligations.DebugCommands := by
  unfold Obligations.DebugCommands
  refine ⟨?ctl, ?haltOff, ?halt, ?csaccWrite, ?csaccRead, ?instruction, ?sealed, ?i3cHeld, ?i3cNone, ?i3cAddress⟩
  case ctl =>
    intro s r v h
    refine ⟨writeDone (dbgCtlStore s v) r, ctlCmd_reaches s r 0xF000000 v _ h ?_, ?_, ?_⟩
    · exact (dbgCtlStore_waitCtl s v).trans h.issues.noneWait
    · cases r <;> exact dbgCtlStore_dbgEn s v
    · rw [writeDone_mem, dbgCtlStore_mem]
  case haltOff =>
    intro s r v h off
    have write : regWrite s r 0xF000008 v .dbgHalt = { s with aud := { s.aud with halt := v.extractLsb' 0 32 } } :=
      dbgHaltStore_off v off
    have run := ctlCmd_quiet s r 0xF000008 v .dbgHalt h (by rw [write]; exact h.issues.noneWait)
      (by rw [write]; exact quiet_of s _ h.calm.quiet rfl rfl)
    rwa [write] at run
  case halt =>
    intro s r v c p k h on lt named placed awake run entering
    have next : HaltsNext c (s.ctx c) { s with aud := { s.aud with halt := v.extractLsb' 0 32 } } :=
      { due := by
          rw [haltDue, bitOf_extractLsb'_zero v lt, named, on, h.not_sealed rfl]
          rfl
        place := ⟨p, k, placed, awake⟩
        core := by
          change (s.ctx c).core = (Run.run, false, (s.ctx c).dbgHalted, (s.ctx c).pc, (s.ctx c).a)
          rw [Ctx.core, run, entering] }
    have halted := halted_dbgHaltStore on lt named next
    rw [Halted, Ctx.core] at halted
    obtain ⟨stopped, isHalted, pc, a⟩ : ((dbgHaltStore s v).ctx c).run = .stopped ∧ ((dbgHaltStore s v).ctx c).dbgHalted = true ∧
        ((dbgHaltStore s v).ctx c).pc = (s.ctx c).pc ∧ ((dbgHaltStore s v).ctx c).a = (s.ctx c).a := by simpa using halted
    refine ⟨writeDone (dbgHaltStore s v) r, ctlCmd_reaches s r 0xF000008 v _ h ?_, ?_⟩
    · exact (dbgHaltStore_waitCtl s v).trans h.issues.noneWait
    · have same : (writeDone (dbgHaltStore s v) r).ctx c = (dbgHaltStore s v).ctx c := by cases r <;> rfl
      rw [same]
      exact ⟨stopped, isHalted, pc, a⟩
  case csaccWrite =>
    intro s v calm issues ir opened
    have ready := csaccReady_spec s
    have passes := ctlCheck_jtag_dbg (s := csaccReady s) true (off := 0xF000100) (by decide)
      (show regAt 0xF000100 = some (.dbgBpaddr 0) by decide) rfl (ready.isSealed.trans opened)
    refine ⟨writeDone (regWrite (csaccReady s) .jtag 0xF000100 v (.dbgBpaddr 0)) .jtag, ?_, rfl, ready.seen, ?_, ?_⟩
    · rw [exec_csacc true _ v ir opened]
      change act s (access (csaccReady s) .jtag true 0xF000100 8 v) = _
      rw [access_write _ _ _ _ _ (ready.issues issues), ctlWrite, passes]
      dsimp only
      rw [flushCtl_none _ (by rw [writeDone_bus]; exact (ready.issues issues).noneWait)]
      exact calm.act (by rw [writeDone_fcr, ready.rest]; rfl) (by rw [writeDone_chan, ready.rest]; rfl)
    · change (((csaccReady s).aud.bps.set 0 _).get 0 _).addr = _
      rw [Tab.get_set_self]
    · rw [writeDone_mem, regWrite]
      change (csaccReady s).mem = s.mem
      rw [ready.rest]
  case csaccRead =>
    intro s v calm issues ir opened
    have ready := csaccReady_spec s
    have passes := ctlCheck_jtag_dbg (s := csaccReady s) false (off := 0xF000000) (by decide)
      (show regAt 0xF000000 = some .dbgCtl by decide) rfl (ready.isSealed.trans opened)
    have read := readNow_jtag_dbgCtl (by decide) passes
    refine ⟨readNow (csaccReady s) .jtag 0xF000000 8, ?_, ?_⟩
    · rw [exec_csacc false _ v ir opened]
      change act s (access (csaccReady s) .jtag false 0xF000000 8 v) = _
      rw [access_read_any _ _ _ _ _ (ready.issues issues), flushCtl_none _ (by rw [read]; exact (ready.issues issues).noneWait), read]
      exact calm.act (by rw [ready.rest]) (by rw [ready.rest])
    · rw [read]
      exact ⟨rfl, ready.seen, congrArg (w64 <| b2n ·) ready.dbgEn, by rw [ready.rest]⟩
  case instruction =>
    intro s x quiet opened drives
    have leaves : (if s.aud.sealed && !(decide (x = .bypass) || decide (x = .idcode)) then JtagIr.bypass
        else if (decide (x = .extest) || decide (x = .clamp) || decide (x = .highz)) && !s.crp.nresetLow then .sample else x) = x := by
      rw [if_neg (by rcases opened with h | h | h <;> simp [h]), if_neg (by rcases drives with ⟨a, b, c⟩ | h <;> simp [*])]
    exact (congrArg (fun e => done { s with aud := { s.aud with ir := e } }) leaves).trans
      (done_quiet _ (quiet_of s _ quiet rfl rfl))
  case sealed =>
    intro s x quiet isSealed notBypass notIdcode
    have falls : (if s.aud.sealed && !(decide (x = .bypass) || decide (x = .idcode)) then JtagIr.bypass
        else if (decide (x = .extest) || decide (x = .clamp) || decide (x = .highz)) && !s.crp.nresetLow then .sample else x) =
        .bypass := if_pos (by simp [isSealed, notBypass, notIdcode])
    exact (congrArg (fun e => done { s with aud := { s.aud with ir := e } }) falls).trans
      (done_quiet _ (quiet_of s _ quiet rfl rfl))
  case i3cHeld =>
    intro s off v quiet vstby held
    change done (if !s.crp.vstby then s else _) = _
    rw [vstby, held]
    exact done_quiet _ (quiet_of s _ quiet rfl rfl)
  case i3cNone =>
    intro s off quiet vstby held
    change done (if !s.crp.vstby then s else _) = _
    rw [vstby, held]
    exact done_quiet _ (quiet_of s _ quiet rfl rfl)
  case i3cAddress =>
    intro s a quiet vstby
    exact (congrArg done (if_pos vstby)).trans (done_quiet _ (quiet_of s _ quiet rfl rfl))
end Sys2Proof.Proofs
end

section
/-! PROOFS. The time unit and the token buckets. -/
namespace Sys2Proof.Machine

/-! ## Parity -/

theorem foldl_parity_xor (a b : BitVec 160) (l : List Nat) (x y : Bool) :
    l.foldl (fun p i => p != bitOf (a ^^^ b) i) (x != y) =
      (l.foldl (fun p i => p != bitOf a i) x != l.foldl (fun p i => p != bitOf b i) y) := by
  induction l generalizing x y with
  | nil => rfl
  | cons i l ih =>
    have bit : bitOf (a ^^^ b) i = (bitOf a i != bitOf b i) := by simp [bitOf]
    rw [List.foldl_cons, List.foldl_cons, List.foldl_cons, ← ih, bit]
    congr 1
    cases x <;> cases y <;> cases bitOf a i <;> cases bitOf b i <;> rfl

/-- The parity of a sum modulo 2 of two copies is that of their parities. -/
theorem parityOf_xor (a b : BitVec 160) : parityOf (a ^^^ b) = (parityOf a != parityOf b) :=
  foldl_parity_xor a b (List.range 160) false false

theorem parityOf_zero : parityOf 0#160 = false := by
  have twice := parityOf_xor 0#160 0#160
  simpa using twice

/-! ## What the pieces of a TOD cycle leave -/

/-- The count, its copy and CLKFAULT stay, and no card is sent. -/
structure KeepsCount (s t : State) : Prop where
  count : t.time.count = s.time.count
  copy1 : t.time.copy1 = s.time.copy1
  clkfault : t.time.clkfault = s.time.clkfault
  fcr : t.fcr = s.fcr
  chan : t.chan = s.chan

namespace KeepsCount
variable {s t u : State}

theorem refl (s : State) : KeepsCount s s := ⟨rfl, rfl, rfl, rfl, rfl⟩

theorem trans (h : KeepsCount s t) (k : KeepsCount t u) : KeepsCount s u :=
  ⟨k.count.trans h.count, k.copy1.trans h.copy1, k.clkfault.trans h.clkfault, k.fcr.trans h.fcr, k.chan.trans h.chan⟩

theorem tod (h : KeepsCount s t) : t.tod = s.tod := by rw [State.tod, State.tod, h.count]

end KeepsCount

/-- The comparators stay: their instants, what is armed in this cycle, and the deadline bits. -/
structure KeepsComparators (s t : State) : Prop where
  armed : t.time.armed = s.time.armed
  arming : t.time.arming = s.time.arming
  dlbits : t.time.dlbits = s.time.dlbits

namespace KeepsComparators
variable {s t u : State}

theorem refl (s : State) : KeepsComparators s s := ⟨rfl, rfl, rfl⟩

theorem trans (h : KeepsComparators s t) (k : KeepsComparators t u) : KeepsComparators s u :=
  ⟨k.armed.trans h.armed, k.arming.trans h.arming, k.dlbits.trans h.dlbits⟩

end KeepsComparators

theorem keepsCount_raise (s : State) (n : Nat) : KeepsCount s (raise s n) :=
  ⟨by rw [raise_time], by rw [raise_time], by rw [raise_time], raise_fcr s n, raise_chan s n⟩

theorem keepsCount_mbDone (s : State) (n k : Nat) (l : List Word) : KeepsCount s (mbDone s n k l) :=
  ⟨by rw [mbDone_time], by rw [mbDone_time], by rw [mbDone_time], mbDone_fcr s n k l, mbDone_chan s n k l⟩

theorem keepsCount_mbProgress (s : State) (n v : Nat) : KeepsCount s (mbProgress s n v) :=
  ⟨by rw [mbProgress_time], by rw [mbProgress_time], by rw [mbProgress_time], mbProgress_fcr s n v, mbProgress_chan s n v⟩

theorem keepsComparators_mbDone (s : State) (n k : Nat) (l : List Word) : KeepsComparators s (mbDone s n k l) :=
  ⟨by rw [mbDone_time], by rw [mbDone_time], by rw [mbDone_time]⟩

theorem keepsComparators_mbProgress (s : State) (n v : Nat) : KeepsComparators s (mbProgress s n v) :=
  ⟨by rw [mbProgress_time], by rw [mbProgress_time], by rw [mbProgress_time]⟩

theorem keepsCount_deadline (s : State) (k : Nat) : KeepsCount s (deadline s k) := by
  unfold deadline
  split
  · exact .refl s
  · split
    · refine .trans ?_ (keepsCount_raise _ _)
      exact ⟨rfl, rfl, rfl, rfl, rfl⟩
    · exact .refl s

theorem keepsCount_compareAll (s : State) : KeepsCount s (compareAll s) :=
  List.foldlRecOn _ deadline (motive := KeepsCount s) (.refl s) fun t h k _ => h.trans (keepsCount_deadline t k)

theorem keepsCount_steerReport (s : State) : KeepsCount s (steerReport s) := by
  unfold steerReport
  split
  · exact .refl s
  · refine .trans ?_ (keepsCount_mbDone _ _ _ _)
    exact ⟨rfl, rfl, rfl, rfl, rfl⟩

theorem keepsComparators_steerReport (s : State) : KeepsComparators s (steerReport s) := by
  unfold steerReport
  split
  · exact .refl s
  · refine .trans ?_ (keepsComparators_mbDone _ _ _ _)
    exact ⟨rfl, rfl, rfl⟩

/-- A slew has applied its next ns. -/
def steerApply (s : State) : State := { s with time := { s.time with slewFrac := 0, steerDone := s.time.steerDone + 1 } }

/-- The progress of a slew's mailbox. -/
def steerProgress (s : State) : State :=
  match s.time.steerMb with
  | some n => mbProgress s n s.time.steerDone.toNat
  | none => s

theorem keepsCount_steerProgress (s : State) : KeepsCount s (steerProgress s) := by
  unfold steerProgress
  split
  · exact keepsCount_mbProgress s _ _
  · exact .refl s

theorem keepsComparators_steerProgress (s : State) : KeepsComparators s (steerProgress s) := by
  unfold steerProgress
  split
  · exact keepsComparators_mbProgress s _ _
  · exact .refl s

/-- A slew's cycle applies nothing yet, or its next ns, and may be its last. -/
theorem slewCycle_cases (s : State) :
    slewCycle s = s ∨ slewCycle s = { s with time := { s.time with slewFrac := s.time.slewFrac + 1 } } ∨
    (let t := steerProgress (steerApply s)
     slewCycle s = t ∨ slewCycle s = steerReport { t with time := { t.time with slewing := false } }) := by
  unfold slewCycle
  split
  · exact .inl rfl
  · split
    · exact .inr (.inl rfl)
    · refine .inr (.inr ?_)
      dsimp only
      split
      · exact .inl rfl
      · exact .inr rfl

theorem keepsCount_slewCycle (s : State) : KeepsCount s (slewCycle s) := by
  have next : KeepsCount s (steerApply s) := ⟨rfl, rfl, rfl, rfl, rfl⟩
  have applied := next.trans (keepsCount_steerProgress (steerApply s))
  obtain e | e | e | e := slewCycle_cases s <;> rw [e]
  · exact .refl s
  · exact ⟨rfl, rfl, rfl, rfl, rfl⟩
  · exact applied
  · refine applied.trans (.trans ?_ (keepsCount_steerReport _))
    exact ⟨rfl, rfl, rfl, rfl, rfl⟩

theorem keepsComparators_slewCycle (s : State) : KeepsComparators s (slewCycle s) := by
  have next : KeepsComparators s (steerApply s) := ⟨rfl, rfl, rfl⟩
  have applied := next.trans (keepsComparators_steerProgress (steerApply s))
  obtain e | e | e | e := slewCycle_cases s <;> rw [e]
  · exact .refl s
  · exact ⟨rfl, rfl, rfl⟩
  · exact applied
  · refine applied.trans (.trans ?_ (keepsComparators_steerReport _))
    exact ⟨rfl, rfl, rfl⟩

theorem keepsCount_discCycle (s : State) : KeepsCount s (discCycle s) := by
  unfold discCycle
  split
  · exact .refl s
  · split <;> exact ⟨rfl, rfl, rfl, rfl, rfl⟩

theorem keepsComparators_discCycle (s : State) : KeepsComparators s (discCycle s) := by
  unfold discCycle
  split
  · exact .refl s
  · split <;> exact ⟨rfl, rfl, rfl⟩

theorem keepsCount_ppsOutStart (s : State) (before : Word) : KeepsCount s (ppsOutStart s before) := by
  unfold ppsOutStart
  split <;> exact ⟨rfl, rfl, rfl, rfl, rfl⟩

theorem keepsComparators_ppsOutStart (s : State) (before : Word) : KeepsComparators s (ppsOutStart s before) := by
  unfold ppsOutStart
  split <;> exact ⟨rfl, rfl, rfl⟩

/-! ## A TOD cycle in its three parts -/

/-- A TOD cycle up to the count: the comparators written before are armed and the latches move on. -/
def cycleStart (s : State) : State :=
  { armNow s with time := { (armNow s).time with
      prev1 := (armNow s).tod, prev2 := (armNow s).time.prev1, sinceEdge := (armNow s).time.sinceEdge.map (· + 1) } }

/-- The count and its comparison. -/
def cycleCount (s : State) (u : TodUpset) : State :=
  compareCopies (flipCopy (setCount s (s.time.count + BitVec.ofNat 160 (incNow s))) u)

/-- The rest: slews, PPS_OUT and the comparators. -/
def cycleEnd (s : State) (before : Word) : State := compareAll (ppsOutStart (discCycle (slewCycle s)) before)

theorem todCycle_eq (s : State) (u : TodUpset) :
    todCycle s u = cycleEnd (cycleCount (cycleStart s) u) (cycleStart s).todS := rfl

theorem keepsCount_cycleEnd (s : State) (before : Word) : KeepsCount s (cycleEnd s before) :=
  (((keepsCount_slewCycle s).trans (keepsCount_discCycle _)).trans (keepsCount_ppsOutStart _ before)).trans (keepsCount_compareAll _)

/-- Nothing is left to arm; the comparators and their bits are as given. -/
def armedWith (s : State) (a : Tab (Option (BitVec 128))) (d : Word) : State :=
  { s with time := { s.time with arming := [], armed := a, dlbits := d } }

/-- Arming touches the comparators and their bits alone. -/
theorem armNow_eq (s : State) : ∃ a d, armNow s = armedWith s a d := by
  refine List.foldlRecOn s.time.arming _ (motive := fun t => ∃ a d, t = armedWith s a d)
    ⟨s.time.armed, s.time.dlbits, rfl⟩ fun t h p _ => ?_
  obtain ⟨a, d, rfl⟩ := h
  exact ⟨a.set p.1 (some p.2), setBit d p.1 false, rfl⟩

/-- The start of a cycle leaves the count, what INC is made of, and everything outside the time unit. -/
structure CycleStarts (s t : State) : Prop where
  count : t.time.count = s.time.count
  clkfault : t.time.clkfault = s.time.clkfault
  inc : incNow t = incNow s
  rest : t = { s with time := t.time }

theorem cycleStart_starts (s : State) : CycleStarts s (cycleStart s) := by
  obtain ⟨a, d, e⟩ := armNow_eq s
  unfold cycleStart
  rw [e]
  exact ⟨rfl, rfl, rfl, rfl⟩

theorem cycleCount_none (s : State) : cycleCount s .none = setCount s (s.time.count + BitVec.ofNat 160 (incNow s)) :=
  if_pos rfl

/-- A cycle without an upset goes on from the count and INC. -/
theorem keepsCount_todCycle_none (s : State) :
    KeepsCount (setCount (cycleStart s) (s.time.count + BitVec.ofNat 160 (incNow s))) (todCycle s .none) := by
  have starts := cycleStart_starts s
  have counts := keepsCount_cycleEnd (cycleCount (cycleStart s) .none) (cycleStart s).todS
  rw [cycleCount_none, starts.count, starts.inc] at counts
  rw [todCycle_eq, cycleCount_none, starts.count, starts.inc]
  exact counts

/-- What the comparison of the copies leaves after an upset: both copies agree, on the one whose parity holds; without such a
copy they agree on copy 0, and CLKFAULT is set. -/
structure Repaired (s : State) (k : Bool) (b n : BitVec 160) (u : State) : Prop where
  copy1 : u.time.copy1 = u.time.count
  count : u.time.count = if k = false ∧ parityOf b = false then n ^^^ b else n
  clkfault : u.time.clkfault = (s.time.clkfault || (decide (b ≠ 0) && !parityOf b))

theorem repaired_compareCopies (s : State) (k : Bool) (b n : BitVec 160) :
    Repaired s k b n (compareCopies (flipCopy (setCount s n) (.flip k b))) := by
  by_cases none : b = 0#160
  · subst none
    have same : compareCopies (flipCopy (setCount s n) (.flip k 0#160)) = flipCopy (setCount s n) (.flip k 0#160) := by
      cases k <;> exact if_pos (by simp [flipCopy, setCount])
    rw [same]
    cases k <;> exact ⟨by simp [flipCopy, setCount], by simp [flipCopy, setCount], by simp [flipCopy, setCount]⟩
  · have differ : n ^^^ b ≠ n := fun e => none (by simpa using e)
    have differ' : n ≠ n ^^^ b := differ.symm
    cases k <;> cases odd : parityOf b <;>
      exact ⟨by simp [compareCopies, flipCopy, setCount, differ, differ', parityOf_xor, odd],
        by simp [compareCopies, flipCopy, setCount, differ, differ', parityOf_xor, odd],
        by simp [compareCopies, flipCopy, setCount, differ, differ', parityOf_xor, odd, none]⟩

/-! ## Comparators -/

/-- Comparator k has fired: its bit is set, and it is disarmed. -/
def fired (s : State) (k : Nat) : State :=
  { s with time := { s.time with dlbits := setBit s.time.dlbits k true, armed := s.time.armed.set k none } }

theorem deadline_of {s : State} {k : Nat} {i : BitVec 128} (armed : s.time.armed.get k none = some i) :
    deadline s k = if i ≤ s.tod then raise (fired s k) (192 + k) else s := by
  rw [deadline, armed]
  rfl

theorem reservedSource_deadline {k : Nat} (h : k < 64) : reservedSource (192 + k) = false := by
  simp [reservedSource]
  omega

theorem raise_pend {s : State} (flows : Flows s) {n : Nat} (used : reservedSource n = false) (inside : n < 1024) :
    bitOf (raise s n).ert.pend n = true := by
  rw [flows.raise used, bitOf_setPend _ inside, if_pos rfl]

/-- The one comparator that is armed compares. -/
theorem compareAll_one {s : State} {k : Nat} {i : BitVec 128} (armed : s.time.armed = [(k, some i)]) :
    compareAll s = deadline s k := by
  rw [compareAll, armed]
  rfl

theorem armNow_one {s : State} {k : Nat} {i : BitVec 128} (arming : s.time.arming = [(k, i)]) (armed : s.time.armed = []) :
    armNow s = armedWith s [(k, some i)] (setBit s.time.dlbits k false) := by
  have steps : armNow s = armedWith s (s.time.armed.set k (some i)) (setBit s.time.dlbits k false) := by
    rw [armNow, arming]
    rfl
  rw [steps, armed]
  rfl

/-! ## Token buckets -/

/-- What one bucket gains (R314). -/
def refilledTokens (s : State) (i k : Nat) : Int := min (tokensOf s i k + (rateOf s i k : Int)) (burstOf s i k)

/-- Instance i's tokens, rates and bursts rest on its own entry. -/
theorem refilledTokens_of_inst {s t : State} {i : Nat} (same : t.inst i = s.inst i) (k : Nat) :
    refilledTokens t i k = refilledTokens s i k := by
  simp only [refilledTokens, tokensOf, rateOf, burstOf, bucketReg, same]

theorem tokensOf_refillOne_self (s : State) (i k : Nat) : tokensOf (refillOne s i k) i k = refilledTokens s i k := by
  simp [refillOne, setTokens, tokensOf, refilledTokens]

theorem tokensOf_refillOne_other (s : State) (i : Nat) {k m : Nat} (other : m ≠ k) :
    tokensOf (refillOne s i k) i m = tokensOf s i m := by
  simp [refillOne, setTokens, tokensOf, Tab.get_set_other _ _ _ _ _ other]

theorem bucketReg_refillOne (s : State) (i k m : Nat) : bucketReg (refillOne s i k) i m = bucketReg s i m := by
  simp [refillOne, setTokens, bucketReg]

theorem refilledTokens_refillOne_other (s : State) (i : Nat) {k m : Nat} (other : m ≠ k) :
    refilledTokens (refillOne s i k) i m = refilledTokens s i m := by
  simp only [refilledTokens, tokensOf_refillOne_other s i other, rateOf, burstOf, bucketReg_refillOne]

/-- A bucket outside the list keeps its tokens. -/
theorem tokensOf_foldl_refillOne_other (l : List Nat) (i : Nat) {k : Nat} (out : k ∉ l) (s : State) :
    tokensOf (l.foldl (fun t key => refillOne t i key) s) i k = tokensOf s i k :=
  List.foldlRecOn l _ (motive := fun t => tokensOf t i k = tokensOf s i k) rfl fun t h _ mem =>
    (tokensOf_refillOne_other t i (ne_of_mem_of_not_mem mem out).symm).trans h

/-- Every bucket of the list gains its rate, up to its burst. -/
theorem tokensOf_foldl_refillOne (l : List Nat) (nodup : l.Nodup) (i : Nat) {k : Nat} (named : k ∈ l) (s : State) :
    tokensOf (l.foldl (fun t key => refillOne t i key) s) i k = refilledTokens s i k := by
  induction l generalizing s with
  | nil => exact absurd named List.not_mem_nil
  | cons m l ih =>
    obtain ⟨fresh, rest⟩ := List.nodup_cons.1 nodup
    rw [List.foldl_cons]
    by_cases e : k = m
    · subst e
      rw [tokensOf_foldl_refillOne_other l i fresh, tokensOf_refillOne_self]
    · rw [ih rest ((List.mem_cons.1 named).resolve_left e), refilledTokens_refillOne_other s i e]

theorem refillOne_inst_other (s : State) (k : Nat) {i j : Nat} (other : j ≠ i) : (refillOne s i k).inst j = s.inst j :=
  State.inst_setInst_other _ _ _ _ other

theorem refillInst_inst_other (s : State) {i j : Nat} (other : j ≠ i) : (refillInst s i).inst j = s.inst j := by
  unfold refillInst
  exact List.foldlRecOn _ _ (motive := fun t => State.inst t j = s.inst j) (State.inst_setInst_other _ _ _ _ other)
    fun t h k _ => (refillOne_inst_other t k other).trans h

theorem tokensOf_refillInst (s : State) (i : Nat) {k : Nat} (h : k < 7) : tokensOf (refillInst s i) i k = refilledTokens s i k := by
  have named : k ∈ [0, 1, 2, 3, 4, 5, 6] := by
    simp only [List.mem_cons, List.not_mem_nil, or_false]
    omega
  unfold refillInst
  dsimp only
  rw [tokensOf_foldl_refillOne _ (by decide) i named]
  simp [refilledTokens, tokensOf, rateOf, burstOf, bucketReg]

/-- A state with other entries of the instances. -/
def withInsts (s : State) (x : Insts) : State := { s with insts := x }

theorem refillInst_rest (s : State) (i : Nat) : ∃ x, refillInst s i = withInsts s x := by
  unfold refillInst
  refine List.foldlRecOn _ _ (motive := fun t => ∃ x, t = withInsts s x) ⟨_, rfl⟩ fun t h k _ => ?_
  obtain ⟨x, rfl⟩ := h
  exact ⟨_, rfl⟩

theorem foldl_refillInst_rest (l : List Nat) (s : State) : ∃ x, l.foldl refillInst s = withInsts s x := by
  refine List.foldlRecOn l refillInst (motive := fun t => ∃ x, t = withInsts s x) ⟨s.insts, rfl⟩ fun t h i _ => ?_
  obtain ⟨x, rfl⟩ := h
  exact refillInst_rest (withInsts s x) i

theorem foldl_refillInst_other (l : List Nat) {i : Nat} (out : i ∉ l) (s : State) : (l.foldl refillInst s).inst i = s.inst i :=
  List.foldlRecOn l refillInst (motive := fun t => State.inst t i = s.inst i) rfl fun t h _ mem =>
    (refillInst_inst_other t (ne_of_mem_of_not_mem mem out).symm).trans h

/-- A microsecond refills every bucket of every owner named. -/
theorem tokensOf_foldl_refillInst (l : List Nat) (nodup : l.Nodup) {i k : Nat} (named : i ∈ l) (lt : k < 7) (s : State) :
    tokensOf (l.foldl refillInst s) i k = refilledTokens s i k := by
  induction l generalizing s with
  | nil => exact absurd named List.not_mem_nil
  | cons m l ih =>
    obtain ⟨fresh, rest⟩ := List.nodup_cons.1 nodup
    rw [List.foldl_cons]
    by_cases e : i = m
    · subst e
      rw [tokensOf, foldl_refillInst_other l fresh]
      exact tokensOf_refillInst s i lt
    · rw [ih rest ((List.mem_cons.1 named).resolve_left e), refilledTokens_of_inst (refillInst_inst_other s e)]

theorem mem_existing {s : State} {i : Nat} (lt : i < 256) (present : (s.inst i).present = true) : i ∈ existing s :=
  List.mem_filter.2 ⟨List.mem_range.2 lt, present⟩

theorem nodup_existing (s : State) : (existing s).Nodup := List.nodup_range.filter _

/-! ## Edges, reads, holdover -/

theorem ppsEdgeAt_first {s : State} (sub : Nat) (first : s.time.sinceEdge = none) (noSet : s.time.setAtPps = none)
    (unset : s.time.set = false) :
    ppsEdgeAt s sub = acceptEdge s ((s.time.count + BitVec.ofNat 160 (incNow s * sub / 10)).extractLsb' 32 128) := by
  simp [ppsEdgeAt, first, noSet, unset]

theorem ppsEdgeAt_tooEarly {s : State} (sub : Nat) {n : Nat} (since : s.time.sinceEdge = some n) (early : n < 199800000) :
    ppsEdgeAt s sub = { s with time := { s.time with ppsRej := satInc s.time.ppsRej } } := by
  simp [ppsEdgeAt, since, Nat.not_le.2 early]

theorem acceptEdge_time (s : State) (t : BitVec 128) : (acceptEdge s t).time =
    { s.time with capF := t.extractLsb' 0 64, capS := t.extractLsb' 64 64, sinceEdge := some 0 } := by
  rw [acceptEdge, raise_time]

/-- The two words of a count of 128 bits. -/
theorem extractLsb'_append_halves (t : BitVec 128) : t.extractLsb' 64 64 ++ t.extractLsb' 0 64 = t := by
  rw [BitVec.extractLsb'_append_extractLsb'_eq_extractLsb' (by decide)]
  exact BitVec.extractLsb'_eq_self

/-- What a context's read of the count latches (R342, R343). -/
def countSeen (s : State) (c lag : Nat) : BitVec 128 :=
  let at' := if lag = 0 then s.tod else if lag = 1 then s.time.prev1 else s.time.prev2
  if at' < (s.ctx c).seen then (s.ctx c).seen else at'

theorem readNowf_ctx (s : State) (c : Fin 32) (lag : Nat) : readNowf s (.ctx c) lag =
    (s.setCtx c { s.ctx c with nows := (countSeen s c lag).extractLsb' 64 64, seen := countSeen s c lag },
      (countSeen s c lag).extractLsb' 0 64) := rfl

/-- No edge has come within 2 s. -/
def edgeLate (s : State) : Bool :=
  match s.time.sinceEdge with
  | none => true
  | some n => decide (400000000 ≤ n)

theorem exec_holdoverEntry (s : State) : exec .holdoverEntry s =
    act s (if s.time.disc && s.time.locked && edgeLate s then
      card (raise { s with time := { s.time with holdover := true, locked := false, goodEdges := 0 } } 257) 310 1 0 0 0
    else s) := rfl

/-- The one comparator written in a cycle, through the cycle. -/
theorem todCycle_arming {s : State} {k : Nat} {i : BitVec 128} (arming : s.time.arming = [(k, i)])
    (armed : s.time.armed = []) :
    ∃ t, todCycle s .none = deadline t k ∧ t.time.armed = [(k, some i)] ∧ t.time.arming = [] ∧
      t.time.dlbits = setBit s.time.dlbits k false := by
  let x := cycleCount (cycleStart s) .none
  have start : KeepsComparators (armedWith s [(k, some i)] (setBit s.time.dlbits k false)) x := by
    change KeepsComparators _ (cycleCount (cycleStart s) .none)
    rw [cycleCount_none, cycleStart, armNow_one arming armed]
    exact ⟨rfl, rfl, rfl⟩
  have keeps := ((start.trans (keepsComparators_slewCycle x)).trans (keepsComparators_discCycle _)).trans
    (keepsComparators_ppsOutStart _ (cycleStart s).todS)
  exact ⟨_, compareAll_one keeps.armed, keeps.armed, keeps.arming, keeps.dlbits⟩

end Sys2Proof.Machine

namespace Sys2Proof.Proofs
open Sys2Proof.Machine

/-- Settles O57: a TOD cycle in its three parts, each comparator and each bucket by itself. -/
theorem timeCommands : Obligations.TimeCommands := by
  unfold Obligations.TimeCommands
  refine ⟨?tick, ?upset, ?reached, ?notReached, ?arm, ?arming, ?nowf, ?monotone, ?read, ?captured, ?tooEarly, ?otherEdge,
    ?holdover, ?correction, ?pulseEnd, ?refill⟩
  case tick =>
    intro s calm
    have keeps := keepsCount_todCycle_none s
    have starts := cycleStart_starts s
    refine ⟨todCycle s .none, calm.act ?_ ?_, keeps.count, keeps.copy1.trans keeps.count.symm, ?_, todCycle_mem s _⟩
    · rw [keeps.fcr, starts.rest]; rfl
    · rw [keeps.chan, starts.rest]; rfl
    · exact keeps.clkfault.trans starts.clkfault
  case upset =>
    intro s k b n live sum
    have starts := cycleStart_starts s
    have repaired := repaired_compareCopies (cycleStart s) k b n
    have counted : cycleCount (cycleStart s) (.flip k b) = compareCopies (flipCopy (setCount (cycleStart s) n) (.flip k b)) := by
      rw [cycleCount, starts.count, starts.inc, sum]
    have keeps := keepsCount_cycleEnd (cycleCount (cycleStart s) (.flip k b)) (cycleStart s).todS
    rw [counted] at keeps
    refine ⟨todCycle s (.flip k b), act_live s _ live, ?_, ?_, ?_, todCycle_mem s _⟩
    · rw [todCycle_eq, counted, keeps.copy1, keeps.count, repaired.copy1]
    · rw [todCycle_eq, counted, keeps.count, repaired.count]
    · rw [todCycle_eq, counted, keeps.clkfault, repaired.clkfault, starts.clkfault]
  case reached =>
    intro s k i calm armed due
    have keeps := keepsCount_deadline s k
    refine ⟨deadline s k, calm.act keeps.fcr keeps.chan, ?_, ?_, fun flows => ?_⟩
    · rw [deadline_of armed, if_pos due, raise_time]
      rfl
    · rw [deadline_of armed, if_pos due, raise_time]
      exact Tab.get_set_self _ _ _ _
    · have flows' : Flows (fired s k) := flows.of_bus rfl
      rw [deadline_of armed, if_pos due]
      exact raise_pend flows' (reservedSource_deadline k.isLt) (by omega)
  case notReached =>
    intro s k i calm armed early
    have stays : deadline s k = s := by rw [deadline_of armed, if_neg (BitVec.not_le.2 early)]
    exact (congrArg (act s) stays).trans (calm.act rfl rfl)
  case arm =>
    intro s r v h
    exact ctlCmd_leaves h rfl rfl rfl rfl rfl rfl
  case arming =>
    intro s k i calm arming armed
    obtain ⟨t, cycle, armed', arming', dlbits⟩ := todCycle_arming arming armed
    have keeps := keepsCount_todCycle_none s
    have starts := cycleStart_starts s
    have one : t.time.armed.get k none = some i := by
      rw [armed']
      exact if_pos rfl
    refine ⟨todCycle s .none, calm.act ?_ ?_, ?_⟩
    · rw [keeps.fcr, starts.rest]; rfl
    · rw [keeps.chan, starts.rest]; rfl
    rw [cycle, (keepsCount_deadline t k).tod, deadline_of one]
    by_cases due : i ≤ t.tod
    · rw [if_pos due, if_pos due, raise_time]
      refine ⟨arming', ?_, Tab.get_set_self _ _ _ _⟩
      change bitOf (setBit t.time.dlbits k true) k = _
      rw [bitOf_setBit _ _ _ k.isLt, if_pos rfl, decide_eq_true due]
    · rw [if_neg due, if_neg due, dlbits, bitOf_setBit _ _ _ k.isLt, if_pos rfl, decide_eq_false due]
      exact ⟨arming', rfl, one⟩
  case nowf =>
    intro s r lag g calm issues passes
    have sent : accWaits s r 0x9008000 = false := by simp [accWaits, issues.credit, issues.noneWait]
    have run : exec (.timeNowfRead r lag) s = act s (complete (readNowf s r lag).1 (.data (readNowf s r lag).2)) := by
      change act s (if accWaits s r 0x9008000 then _ else _) = _
      rw [sent, passes]
      rfl
    exact run.trans (calm.act (by cases r <;> rfl) (by cases r <;> rfl))
  case monotone =>
    intro s c lag
    rw [readNowf_ctx, State.ctx_setCtx]
    refine ⟨?_, extractLsb'_append_halves _⟩
    change (s.ctx c).seen ≤ countSeen s c lag
    unfold countSeen
    dsimp only
    generalize (if (lag : Nat) = 0 then s.tod else if (lag : Nat) = 1 then s.time.prev1 else s.time.prev2) = at'
    split
    · exact BitVec.le_refl _
    · next below => exact BitVec.not_lt.1 below
  case read =>
    intro s who calm credit
    exact (congrArg (act s) (if_neg (by rw [credit]; decide))).trans (calm.act rfl rfl)
  case captured =>
    intro s x sub calm edge first noSet unset
    have run : exec (.ppsEdge x sub) s = act s (ppsEdgeAt s sub) := congrArg (act s) (if_pos (by simpa using edge))
    rw [run, ppsEdgeAt_first sub first noSet unset]
    refine ⟨_, calm.act (raise_fcr _ _) (raise_chan _ _), ?_, ?_, ?_, ?_⟩
    · rw [acceptEdge_time]
      exact extractLsb'_append_halves _
    · intro flows
      refine raise_pend ?_ (by decide) (by decide)
      exact flows.of_bus rfl
    · rw [acceptEdge_time]
    · rw [State.tod, acceptEdge_time]
      rfl
  case tooEarly =>
    intro s x sub n calm edge since early
    have run : exec (.ppsEdge x sub) s = act s (ppsEdgeAt s sub) := congrArg (act s) (if_pos (by simpa using edge))
    rw [run, ppsEdgeAt_tooEarly sub since early]
    exact calm.act rfl rfl
  case otherEdge =>
    intro s x sub calm edge
    exact (congrArg (act s) (if_neg (by simp [edge]))).trans (calm.act rfl rfl)
  case holdover =>
    intro s live disc locked late
    have isLate : edgeLate s = true := by
      rcases late with none | ⟨n, since, le⟩
      · rw [edgeLate, none]
      · rw [edgeLate, since]
        exact decide_eq_true le
    rw [exec_holdoverEntry, disc, locked, isLate]
    refine ⟨_, act_live s _ live, ?_, ?_, fun flows => ?_⟩
    · rw [if_pos (by rfl), card_time, raise_time]
    · rw [if_pos (by rfl), card_time, raise_time]
    · rw [if_pos (by rfl)]
      refine card_raise_pend ?_ (by decide) (by decide) ..
      exact flows.of_bus rfl
  case correction =>
    intro s calm holdover
    exact (congrArg (act s) (if_pos holdover)).trans (calm.act rfl rfl)
  case pulseEnd =>
    intro s calm
    exact calm.act rfl rfl
  case refill =>
    intro s calm
    obtain ⟨x, rest⟩ := foldl_refillInst_rest (existing s) { s with crp := { s.crp with us := s.crp.us + 1 } }
    refine ⟨(existing s).foldl refillInst { s with crp := { s.crp with us := s.crp.us + 1 } }, ?_, ?_, ?_, ?_⟩
    · exact calm.act (by rw [rest]; rfl) (by rw [rest]; rfl)
    · rw [rest]; rfl
    · rw [rest]; rfl
    · intro i k lt key present
      exact tokensOf_foldl_refillInst (existing s) (nodup_existing s) (mem_existing lt present) key _
end Sys2Proof.Proofs
end

section
/-! PROOFS. Power, resets, rails and sensors: what the jobs that a reset or an alarm ends leave alone. -/
namespace Sys2Proof.Machine

/-! ## Parts that the ends of jobs do not reach -/

/-- A part g of the state rests on nothing that a store of an agent, an event or a measurement touches. -/
def Aside {α : Type} (g : State → α) : Prop :=
  ∀ s caches mem free ports dup ert bus aud,
    g { s with caches := caches, mem := mem, free := free, ports := ports, dup := dup, ert := ert, bus := bus, aud := aud } = g s

/-- It rests on no queue of the engines either. -/
structure AsideJobs {α : Type} (g : State → α) : Prop where
  aside : Aside g
  zip : ∀ s n (z : Zip), z.tables = (s.zip n).tables → g (s.setZip n z) = g s
  ciph : ∀ s q a b, g { s with ciph := { s.ciph with queue := q, tagFail := a, keyInvalid := b } } = g s

theorem sendRecords_eq (s : State) (l : List MirRec) : ∃ p d, sendRecords s l = { s with ports := p, dup := d } := by
  unfold sendRecords
  split
  · exact ⟨_, _, rfl⟩
  · exact ⟨s.ports, s.dup, rfl⟩

theorem raiseFor_eq (s : State) (n i : Nat) (k : BitVec 12) : ∃ e b, raiseFor s n i k = { s with ert := e, bus := b } := by
  unfold raiseFor sendEvent eventLands
  split
  · exact ⟨s.ert, s.bus, rfl⟩
  · split
    · exact ⟨s.ert, _, rfl⟩
    · split
      · exact ⟨s.ert, s.bus, rfl⟩
      · exact ⟨_, s.bus, rfl⟩

theorem raise_eq (s : State) (n : Nat) : ∃ e b, raise s n = { s with ert := e, bus := b } := by
  unfold raise sendEvent eventLands
  split
  · exact ⟨s.ert, s.bus, rfl⟩
  · split
    · exact ⟨s.ert, _, rfl⟩
    · split
      · exact ⟨s.ert, s.bus, rfl⟩
      · exact ⟨_, s.bus, rfl⟩

namespace Aside
variable {α : Type} {g : State → α}

theorem records (h : Aside g) (s : State) (l : List MirRec) : g (sendRecords s l) = g s := by
  obtain ⟨p, d, e⟩ := sendRecords_eq s l
  rw [e]
  exact h s s.caches s.mem s.free p d s.ert s.bus s.aud

theorem raise (h : Aside g) (s : State) (n : Nat) : g (raise s n) = g s := by
  obtain ⟨x, b, e⟩ := raise_eq s n
  rw [e]
  exact h s s.caches s.mem s.free s.ports s.dup x b s.aud

theorem raiseFor (h : Aside g) (s : State) (n i : Nat) (k : BitVec 12) : g (raiseFor s n i k) = g s := by
  obtain ⟨x, b, e⟩ := raiseFor_eq s n i k
  rw [e]
  exact h s s.caches s.mem s.free s.ports s.dup x b s.aud

theorem drawn (h : Aside g) (s : State) : g s.drawn = g s :=
  h s s.caches s.mem (s.free + 1) s.ports s.dup s.ert s.bus s.aud

theorem measure (h : Aside g) (s : State) (kind mr detail : Nat) (digest : List Byte) : g (measure s kind mr detail digest) = g s :=
  h s s.caches s.mem s.free s.ports s.dup s.ert s.bus _

theorem agentStoreIn (h : Aside g) (s : State) (k : BitVec 2) (i : BitVec 8) (a : Nat) (l : List Byte) :
    g (agentStoreIn s k i a l) = g s :=
  agentStoreIn_keeps g (fun s k n => h s k s.mem n s.ports s.dup s.ert s.bus s.aud)
    (fun s m => h s s.caches m s.free s.ports s.dup s.ert s.bus s.aud) h.records s k i a l

theorem agentStoreFor (h : Aside g) (s : State) (i : BitVec 8) (k : BitVec 12) (a : Nat) (l : List Byte) :
    g (agentStoreFor s i k a l) = g s := by
  unfold Machine.agentStoreFor
  split
  · exact h.agentStoreIn s 2 i a l
  · rfl

theorem spoil (h : Aside g) (s : State) (i : BitVec 8) (k : BitVec 12) (a n : Nat) : g (spoil s i k a n) = g s := by
  unfold Machine.spoil
  split
  · rfl
  · rw [h.agentStoreFor, h.drawn]

theorem store (h : Aside g) (s : State) (a : Nat) (l : List Byte) : g (s.store a l) = g s :=
  (h.records _ _).trans (h s s.caches _ s.free s.ports s.dup s.ert s.bus s.aud)

end Aside

theorem foldl_keeps {α β : Type} {g : State → β} {f : State → α → State} (step : ∀ t a, g (f t a) = g t) (l : List α)
    (s : State) : g (l.foldl f s) = g s :=
  List.foldlRecOn l f (motive := fun t => g t = g s) rfl fun t h a _ => (step t a).trans h

namespace AsideJobs
variable {α : Type} {g : State → α}

theorem zipEnd (h : AsideJobs g) (s : State) (n : Nat) (j : ZJob) (status : Nat) (openB : Bool) (unverified inC outP : Nat) :
    g (zipEnd s n j status openB unverified inC outP) = g s := by
  unfold Machine.zipEnd
  dsimp only
  refine Eq.trans (h.zip _ _ _ ?_) ?_
  · rfl
  split
  · rw [h.aside.raiseFor, zipWriteEnd, h.aside.agentStoreFor, h.aside.agentStoreFor]
  · rw [zipWriteEnd, h.aside.agentStoreFor, h.aside.agentStoreFor]

theorem zipReset (h : AsideJobs g) (s : State) (n : Nat) (j : ZJob) : g (zipReset s n j) = g s := by
  unfold Machine.zipReset
  split
  · exact h.zip _ _ _ rfl
  · exact h.zipEnd ..

theorem zipResetAll (h : AsideJobs g) (s : State) (n : Nat) : g (zipResetAll s n) = g s :=
  foldl_keeps (fun t j => h.zipReset t n j) _ s

theorem zipBlockReset (h : AsideJobs g) (s : State) (n : Nat) : g (zipBlockReset s n) = g s :=
  Eq.trans (h.zip (Machine.zipResetAll s n) n { (Machine.zipResetAll s n).zip n with
    en := false, running := none, ended := 0, queue := [] } rfl) (h.zipResetAll s n)

theorem cipherWriteEnd (h : AsideJobs g) (s : State) (j : CJob) (status outP : Nat) : g (cipherWriteEnd s j status outP) = g s := by
  rw [Machine.cipherWriteEnd, h.aside.agentStoreFor, h.aside.agentStoreFor]

theorem cipherEnd (h : AsideJobs g) (s : State) (k : Nat) (j : CJob) (status : Nat) : g (cipherEnd s k j status) = g s := by
  unfold Machine.cipherEnd
  dsimp only
  rw [h.ciph]
  have spoils (t : State) : g (if j.started && decide (1 ≤ j.mode) && decide (j.mode ≤ 3) && decide (status ≠ 1) then
      spoil t j.inst j.innings (j.dst + j.pos) (j.srcLen - j.pos) else t) = g t := by
    split
    · exact h.aside.spoil ..
    · rfl
  have wipes (p : Bool) (t : State) : g (if p then agentStoreFor t j.inst j.innings j.dst (List.replicate j.pos 0#8) else t) = g t := by
    split
    · exact h.aside.agentStoreFor ..
    · rfl
  have raises (t : State) : g (if j.signal then raiseFor t (272 + k) j.inst.toNat j.innings else t) = g t := by
    split
    · exact h.aside.raiseFor ..
    · rfl
  rw [raises, h.cipherWriteEnd, wipes, spoils]

theorem cipherStop (h : AsideJobs g) (s : State) (k : Nat) (j : CJob) (status : Nat) : g (cipherStop s k j status) = g s := by
  unfold Machine.cipherStop
  split
  · exact h.ciph s _ s.ciph.tagFail s.ciph.keyInvalid
  · exact h.cipherEnd ..

theorem cipherStopAll (h : AsideJobs g) (s : State) (pick : CJob → Bool) (status : Nat) : g (cipherStopAll s pick status) = g s :=
  foldl_keeps (fun t k => foldl_keeps (fun u j => h.cipherStop u k j status) _ t) _ s

end AsideJobs

theorem asideJobs_crp : AsideJobs State.crp := ⟨fun _ _ _ _ _ _ _ _ _ => rfl, fun _ _ _ _ => rfl, fun _ _ _ _ => rfl⟩
theorem asideJobs_sp : AsideJobs State.sp := ⟨fun _ _ _ _ _ _ _ _ _ => rfl, fun _ _ _ _ => rfl, fun _ _ _ _ => rfl⟩
theorem asideJobs_fcr : AsideJobs State.fcr := ⟨fun _ _ _ _ _ _ _ _ _ => rfl, fun _ _ _ _ => rfl, fun _ _ _ _ => rfl⟩
theorem asideJobs_slots : AsideJobs (·.ciph.slots) := ⟨fun _ _ _ _ _ _ _ _ _ => rfl, fun _ _ _ _ => rfl, fun _ _ _ _ => rfl⟩

theorem asideJobs_tables (n : Nat) : AsideJobs (fun s => (s.zip n).tables) where
  aside _ _ _ _ _ _ _ _ _ := rfl
  zip s m z same := by
    by_cases e : n = m
    · rw [e, State.zip_setZip, same]
    · rw [State.zip_setZip_other _ _ _ _ e]
  ciph _ _ _ _ := rfl

/-! ## Boot -/

/-- What a boot does to the power registers beyond its own steps: an interrupt request on the I3C bus. -/
structure BootKeeps (s t : State) : Prop where
  boot : t.crp.boot = s.crp.boot
  pll : t.crp.pll = s.crp.pll
  kept : t.crp.kept = s.crp.kept
  nresetLow : t.crp.nresetLow = s.crp.nresetLow
  thermTrip : t.crp.thermTrip = s.crp.thermTrip
  sp : t.sp = s.sp

namespace BootKeeps
variable {s t u : State}

theorem of_same (crp : t.crp = s.crp) (sp : t.sp = s.sp) : BootKeeps s t :=
  ⟨by rw [crp], by rw [crp], by rw [crp], by rw [crp], by rw [crp], sp⟩

theorem refl (s : State) : BootKeeps s s := of_same rfl rfl

theorem trans (h : BootKeeps s t) (k : BootKeeps t u) : BootKeeps s u :=
  ⟨k.boot.trans h.boot, k.pll.trans h.pll, k.kept.trans h.kept, k.nresetLow.trans h.nresetLow,
    k.thermTrip.trans h.thermTrip, k.sp.trans h.sp⟩

end BootKeeps

/-- A part g of the state rests on nothing that the release of a context touches. -/
def AsideRuns {α : Type} (g : State → α) : Prop :=
  ∀ s ctxs pairs caches ert bus aud,
    g { s with ctxs := ctxs, pairs := pairs, caches := caches, ert := ert, bus := bus, aud := aud } = g s

namespace AsideRuns
variable {α : Type} {g : State → α}

theorem setCtx (h : AsideRuns g) (s : State) (c : Nat) (x : Ctx) : g (s.setCtx c x) = g s :=
  h s _ s.pairs s.caches s.ert s.bus s.aud

theorem setPair (h : AsideRuns g) (s : State) (p : Nat) (x : Pair) : g (s.setPair p x) = g s :=
  h s s.ctxs _ s.caches s.ert s.bus s.aud

theorem emptyL2 (h : AsideRuns g) (s : State) (p : Nat) : g (emptyL2 s p) = g s :=
  h s s.ctxs s.pairs _ s.ert s.bus s.aud

theorem wakeCtx (h : AsideRuns g) (s : State) (c : Nat) : g (wakeCtx s c) = g s := by
  unfold Machine.wakeCtx
  split
  · split
    · rfl
    · exact h.setCtx s c _
  · rfl

theorem raise (h : AsideRuns g) (s : State) (n : Nat) : g (raise s n) = g s := by
  obtain ⟨x, b, e⟩ := raise_eq s n
  rw [e]
  exact h s s.ctxs s.pairs s.caches x b s.aud

theorem gateExit (h : AsideRuns g) (s : State) (p : Nat) : g (gateExit s p) = g s := by
  have wakes (l : List Nat) (t : State) :
      g (l.foldl (fun t c => if wakeSource t c then Machine.wakeCtx t c else t) t) = g t :=
    foldl_keeps (fun t c => by split; exacts [h.wakeCtx t c, rfl]) l t
  have loses (l : List Nat) (t : State) : g (l.foldl (fun t c => t.setCtx c (t.ctx c).gateLoss) t) = g t :=
    foldl_keeps (fun t c => h.setCtx t c _) l t
  have notifies (t : State) : g (if t.crp.notify then Machine.raise t 307 else t) = g t := by
    split
    · exact h.raise t 307
    · rfl
  unfold Machine.gateExit
  dsimp only
  split
  · rfl
  · rw [notifies, wakes, loses, h.emptyL2, h.setPair]

theorem releaseCtx (h : AsideRuns g) (s : State) (c : Nat) : g (releaseCtx s c) = g s := by
  unfold Machine.releaseCtx
  dsimp only
  split
  · rfl
  · split
    · exact (h.setCtx _ c _).trans (h.gateExit s _)
    · generalize e : Machine.gateExit s (pairOf s c) = t
      have exits : g t = g s := e ▸ h.gateExit s _
      exact (h.setCtx _ c _).trans ((h t t.ctxs t.pairs t.caches t.ert t.bus _).trans exits)

end AsideRuns

theorem asideRuns_crp : AsideRuns State.crp := fun _ _ _ _ _ _ _ => rfl
theorem asideRuns_sp : AsideRuns State.sp := fun _ _ _ _ _ _ _ => rfl

theorem bootKeeps_loadHost (s : State) : BootKeeps s (loadHost s) := by
  have crp (t : State) (a : Nat) (l : List Byte) : (t.store a l).crp = t.crp := asideJobs_crp.aside.store t a l
  have sp (t : State) (a : Nat) (l : List Byte) : (t.store a l).sp = t.sp := asideJobs_sp.aside.store t a l
  unfold loadHost
  refine .trans ?_ (.of_same (asideRuns_crp.releaseCtx _ 0) (asideRuns_sp.releaseCtx _ 0))
  exact ⟨by simp only [crp], by simp only [crp], by simp only [crp], by simp only [crp], by simp only [crp], by simp only [sp]⟩

/-- What a boot of an image leaves (R358). -/
structure BootsSlot (s : State) (n : Fin 2) (u : State) : Prop where
  boot : u.crp.boot = .running
  pll : u.crp.pll = 0x3F#6
  slot : u.crp.kept.flashSlot = n
  nresetLow : u.crp.nresetLow = s.crp.nresetLow
  thermTrip : u.crp.thermTrip = s.crp.thermTrip
  fw : u.sp.fw = .running
  version : u.sp.running = Config.imageVersion n

theorem bootKeeps_enterSealed (s : State) (byFuse : Bool) : BootKeeps s (enterSealed s byFuse) := by
  unfold enterSealed
  split
  · exact .refl s
  · exact .of_same rfl rfl

theorem bootKeeps_cards (l : List Nat) (s : State) : BootKeeps s (l.foldl (fun t k => card t k 5 0 0 0) s) :=
  .of_same (foldl_keeps (fun t k => card_crp t k 5 0 0 0) l s) (foldl_keeps (fun t k => card_sp t k 5 0 0 0) l s)

theorem BootsSlot.of_keeps {s t u : State} {n : Fin 2} (h : BootsSlot s n t) (keeps : BootKeeps t u) : BootsSlot s n u where
  boot := keeps.boot.trans h.boot
  pll := keeps.pll.trans h.pll
  slot := by rw [keeps.kept, h.slot]
  nresetLow := keeps.nresetLow.trans h.nresetLow
  thermTrip := keeps.thermTrip.trans h.thermTrip
  fw := by rw [keeps.sp, h.fw]
  version := by rw [keeps.sp, h.version]

/-- The image of a slot has been measured and started (R358, R393). -/
def imageStarted (s : State) (n : Fin 2) : State :=
  let s := { s with crp := { s.crp with pll := 0x3F#6 } }
  let s := measure s 0x01 0 0 (bytesOf Config.romDigestByte 48)
  let s := measure s 0x02 0 n (bytesOf (Config.imageDigestByte (Config.imageVersion n)) 48)
  { s with sp := { s.sp with fw := .running, running := Config.imageVersion n }
           crp := { s.crp with boot := .running, kept := { s.crp.kept with flashSlot := n } } }

/-- The audit unit seals itself where the fuse says so. -/
def sealedByFuse (s : State) : State := if s.crp.kept.sealFuse then enterSealed s true else s

/-- The ways that stand deleted in the kept state are deleted again. -/
def waysDeleted (s : State) : State :=
  { s with caches := { s.caches with l2del := s.crp.kept.l2del, l3del := s.crp.kept.l3del } }

theorem boot_slot_eq (s : State) (n : Fin 2) : boot s (.slot n) =
    loadHost ((unplaceable (waysDeleted (sealedByFuse (imageStarted s n))).crp.kept).foldl (fun t k => card t k 5 0 0 0)
      (waysDeleted (sealedByFuse (imageStarted s n)))) := rfl

theorem boot_slot (s : State) (n : Fin 2) : BootsSlot s n (boot s (.slot n)) := by
  have started : BootsSlot s n (imageStarted s n) := ⟨rfl, rfl, rfl, rfl, rfl, rfl, rfl⟩
  have seals : BootKeeps (imageStarted s n) (sealedByFuse (imageStarted s n)) := by
    rw [sealedByFuse]
    split
    · exact bootKeeps_enterSealed _ true
    · exact .refl _
  have deletes (t : State) : BootKeeps t (waysDeleted t) := .of_same rfl rfl
  rw [boot_slot_eq]
  exact started.of_keeps (((seals.trans (deletes _)).trans (bootKeeps_cards _ _)).trans (bootKeeps_loadHost _))

/-- With no good image the service processor does not start, and PIN sets HOLD. -/
theorem boot_none (s : State) : (boot s .none).crp.boot = .fwStart ∧ (boot s .none).fcr.hold = true := by
  refine ⟨?_, rfl⟩
  change (card _ 321 1 0 0 0).crp.boot = _
  rw [card_crp]

theorem alarm_keeps {α : Type} {g : State → α} (h : AsideJobs g)
    (slots : ∀ s a l e, g { s with ciph := { s.ciph with alarm := a, slots := l, erasing := e } } = g s) (s : State) (j : Nat) :
    g (alarmIfEnabled s j) = g s := by
  unfold alarmIfEnabled alarm
  split
  · split
    · rfl
    · rw [h.cipherStopAll, h.aside.measure, slots]
  · rfl

theorem alarmIfEnabled_crp (s : State) (j : Nat) : (alarmIfEnabled s j).crp = s.crp :=
  alarm_keeps asideJobs_crp (fun _ _ _ _ => rfl) s j

theorem tamperAgain_crp (s : State) : (tamperAgain s).crp = s.crp := foldl_keeps alarmIfEnabled_crp _ s

theorem tamperAgain_sp (s : State) : (tamperAgain s).sp = s.sp :=
  foldl_keeps (alarm_keeps asideJobs_sp fun _ _ _ _ => rfl) _ s

theorem tamperAgain_fcr (s : State) : (tamperAgain s).fcr = s.fcr :=
  foldl_keeps (alarm_keeps asideJobs_fcr fun _ _ _ _ => rfl) _ s

theorem logOrdering_crp (s : State) : (logOrdering s).crp = s.crp := by
  unfold logOrdering
  split <;> rfl

/-! ## M reset -/

theorem loseDirty_crp (s : State) : (loseDirty s).crp = s.crp := by
  unfold loseDirty
  dsimp only
  generalize 128 = n
  exact List.foldlRecOn _ _ (motive := fun t => State.crp t = s.crp) rfl fun t h ln _ => h

theorem closeCards_crp (s : State) : (closeCards s).crp = s.crp :=
  foldl_keeps (g := State.crp) (fun t v => by split <;> rfl) _ s

/-! ## Block resets -/

theorem blockReset_of {s : State} (b : Blk) (out : bitOf s.crp.brstat (blkBit b) = false) : blockReset s b =
    match b with
    | .ert => releaseEvents (ertBlockReset (creditReset s .ert))
    | .chan =>
      let s := { s with chan := { s.chan with quiesce := true }
                        crp := { s.crp with brstat := setBit s.crp.brstat 1 true } }
      if chanQuiesced s then chanRestore s else s
    | .zip n => zipBlockReset (creditReset s (.zip n)) n.val
    | .ciph => ciphBlockReset (creditReset s .ciph)
    | .time => entropyReset (creditReset s .time)
    | .sp => spReset (creditReset s .sp) := by
  rw [blockReset.eq_def, out]
  cases b <;> rfl

/-- Events that waited land: only pending bits change. -/
theorem releaseEvents_keeps {α : Type} {g : State → α} (bus : ∀ s b, g { s with bus := b } = g s)
    (pend : ∀ s p, g { s with ert := { s.ert with pend := p } } = g s) (s : State) : g (releaseEvents s) = g s := by
  have lands (t : State) (e : EventMsg) : g (eventLands t e) = g t := by
    unfold eventLands
    split
    · rfl
    · exact pend t _
  exact (foldl_keeps lands _ _).trans (bus s _)

/-! ## Sensors -/

/-- The check of a sensor's limits notes on which side its value lies, and leaves the FCR and the channel. -/
structure LimitsChecked (s : State) (n : Nat) (t : State) : Prop where
  sens : t.sens n = { s.sens n with outside := outOfRange (s.sens n).thr (s.sens n).value }
  fcr : t.fcr = s.fcr
  chan : t.chan = s.chan

theorem sensorLimits_checks (s : State) (n : Nat) : LimitsChecked s n (sensorLimits s n) := by
  unfold sensorLimits
  dsimp only
  split
  · refine ⟨?_, raise_fcr _ _, raise_chan _ _⟩
    rw [raise_sens]
    exact State.sens_setSens s n _
  · exact ⟨State.sens_setSens s n _, rfl, rfl⟩

/-- A sensor's value stands outside its range, and its trip bit is set. -/
def sensorOut (s : State) (n : Nat) : State :=
  let s := s.setSens n { s.sens n with outside := true }
  { s with crp := { s.crp with sensTrip := setBit s.crp.sensTrip n true } }

theorem sensorLimits_out {s : State} {n : Nat} (out : outOfRange (s.sens n).thr (s.sens n).value = true)
    (inside : (s.sens n).outside = false) : sensorLimits s n = raise (sensorOut s n) 306 := by
  unfold sensorLimits sensorOut
  dsimp only
  rw [out, inside]
  rfl

/-- A value that leaves its range trips: the bit is set and the event sent. -/
theorem sensorLimits_trips {s : State} {n : Nat} {raw : BitVec 16} (lt : n < 32)
    (out : outOfRange (s.sens n).thr (sensorValue s n raw) = true) (inside : (s.sens n).outside = false) :
    bitOf (sensorLimits (sensorRead s n raw true) n).crp.sensTrip n = true ∧
      (Flows s → bitOf (sensorLimits (sensorRead s n raw true) n).ert.pend 306 = true) := by
  have read : (sensorRead s n raw true).sens n = { s.sens n with value := sensorValue s n raw, raw := raw, valid := true } := by
    rw [sensorRead, State.sens_setSens]
  rw [sensorLimits_out (by rw [read]; exact out) (by rw [read]; exact inside)]
  refine ⟨?_, fun flows => ?_⟩
  · rw [raise_crp]
    change bitOf (setBit _ n true) n = true
    rw [bitOf_setBit _ _ _ lt, if_pos rfl]
  · have flows' : Flows (sensorOut (sensorRead s n raw true) n) := flows.of_bus rfl
    exact raise_pend flows' (by decide) (by decide)

end Sys2Proof.Machine

namespace Sys2Proof.Proofs
open Sys2Proof.Machine

/-- Settles O59: boots by the image's steps, resets by what the ends of jobs leave alone. -/
theorem powerCommands : Obligations.PowerCommands := by
  unfold Obligations.PowerCommands
  refine ⟨?onSlot, ?onNone, ?onHeld, ?nreset, ?glitch, ?release, ?cool, ?rail, ?vstby, ?zip, ?ciph, ?ert, ?chan, ?time, ?pll,
    ?railOut, ?railIn, ?sensorFails, ?sensorReads⟩
  case onSlot =>
    intro s n high
    have boots := boot_slot (pReset s) n
    refine ⟨tamperAgain (boot (pReset s) (.slot n)), ?_, ?_⟩
    · exact congrArg done (if_neg (by rw [high]; decide))
    · rw [tamperAgain_crp, tamperAgain_sp]
      exact ⟨boots.boot, boots.fw, boots.version, boots.slot, boots.pll⟩
  case onNone =>
    intro s high
    have fails := boot_none (pReset s)
    refine ⟨tamperAgain (boot (pReset s) .none), ?_, ?_⟩
    · exact congrArg done (if_neg (by rw [high]; decide))
    · rw [tamperAgain_crp, tamperAgain_fcr]
      exact fails
  case onHeld =>
    intro s img low
    refine ⟨{ pReset s with crp := { (pReset s).crp with boot := .waitRails } }, ?_, rfl, low, rfl⟩
    exact (congrArg done (if_pos low)).trans (done_quiet _ rfl)
  case nreset =>
    intro s k a live vstby taken
    have accepted : nresetTaken k a = true := by
      rcases taken with h | ⟨rfl, h⟩ <;> simp [nresetTaken, h]
    have boot : s.crp.boot = .running := of_decide_eq_true live
    refine ⟨mReset { s with crp := { s.crp with nresetLow := true } } 1, ?_, rfl, rfl, ?_, ?_, rfl⟩
    · refine congrArg done ((if_neg ?_).trans (if_pos (.inl boot)))
      rw [accepted, vstby]
      decide
    · change (closeCards (loseDirty { s with crp := { s.crp with nresetLow := true } })).crp.nresetLow = _
      rw [closeCards_crp, loseDirty_crp]
    · change (closeCards (loseDirty { s with crp := { s.crp with nresetLow := true } })).crp.resets + 1 = _
      rw [closeCards_crp, loseDirty_crp]
  case glitch =>
    intro s k a quiet short
    have ignored : nresetTaken k a = false := by
      simp only [nresetTaken, Bool.or_eq_false_iff, Bool.and_eq_false_iff, decide_eq_false_iff_not]
      omega
    exact (congrArg done (if_pos (by rw [ignored]; rfl))).trans (done_quiet s quiet)
  case release =>
    intro s n low noTrip rails vstby boot
    have boots := boot_slot (logOrdering { s with crp := { s.crp with nresetLow := false } }) n
    refine ⟨afterM { s with crp := { s.crp with nresetLow := false } } (.slot n), ?_, boots.boot, ?_, boots.version⟩
    · refine congrArg done ((if_pos low).trans ((if_neg ?_).trans (if_pos boot)))
      simp [unheld, noTrip, rails, vstby]
    · rw [afterM, boots.nresetLow, logOrdering_crp]
  case cool =>
    intro s trip cool high rails vstby boot
    let t : State := { s with crp := { s.crp with thermTrip := false } }
    obtain ⟨n, image⟩ : ∃ n, activeImage s = .slot n := ⟨_, rfl⟩
    have boots := boot_slot (logOrdering t) n
    refine ⟨afterM t (.slot n), ?_, boots.boot, ?_⟩
    · rw [← image]
      refine congrArg done ((if_pos (by rw [trip, cool]; rfl)).trans ((if_neg ?_).trans (if_pos boot)))
      simp [unheld, high, rails, vstby]
    · rw [afterM, boots.thermTrip, logOrdering_crp]
  case rail =>
    intro s j vstby lt
    let t := alarmIfEnabled s 4
    refine ⟨{ t with crp := { t.crp with railsLow := setBit t.crp.railsLow j.val true, boot := .waitRails, pll := 0 } }, ?_,
      rfl, rfl, ?_⟩
    · exact (if_neg (by rw [vstby]; decide)).trans (congrArg done (if_neg (by omega)))
    · change bitOf (setBit t.crp.railsLow j.val true) j.val = true
      rw [bitOf_setBit _ _ _ (by omega), if_pos rfl]
  case vstby =>
    intro s
    exact ⟨_, done_quiet _ rfl, rfl, rfl, rfl, rfl, rfl, rfl⟩
  case zip =>
    intro s n live out
    refine ⟨blockReset s (.zip n), act_live s _ live, ?_⟩
    rw [blockReset_of (.zip n) out]
    refine ⟨?_, ?_, (asideJobs_tables n).zipBlockReset _ _⟩
    · change ((State.setZip _ _ _).zip n).en = false
      rw [State.zip_setZip]
    · change ((State.setZip _ _ _).zip n).queue = []
      rw [State.zip_setZip]
  case ciph =>
    intro s live out
    refine ⟨blockReset s .ciph, act_live s _ live, ?_⟩
    rw [blockReset_of .ciph out]
    exact ⟨rfl, rfl, asideJobs_slots.cipherStopAll _ _ _⟩
  case ert =>
    intro s live out
    refine ⟨blockReset s .ert, act_live s _ live, ?_⟩
    rw [blockReset_of .ert out]
    exact ⟨releaseEvents_keeps (g := (·.ert.en)) (fun _ _ => rfl) (fun _ _ => rfl) _,
      releaseEvents_keeps (g := (·.ert.mask)) (fun _ _ => rfl) (fun _ _ => rfl) _,
      releaseEvents_keeps (g := (·.ert.src)) (fun _ _ => rfl) (fun _ _ => rfl) _,
      releaseEvents_keeps (g := (·.ert.prioStacks)) (fun _ _ => rfl) (fun _ _ => rfl) _,
      releaseEvents_keeps (g := (·.ert.slots)) (fun _ _ => rfl) (fun _ _ => rfl) _⟩
  case chan =>
    intro s live out sends
    refine ⟨blockReset s .chan, act_live s _ live, ?_⟩
    rw [blockReset_of .chan out]
    have waits : s.chan.sends.isEmpty = false := List.isEmpty_eq_false_iff.2 sends
    dsimp only
    rw [if_neg (by simp [chanQuiesced, waits])]
    exact ⟨rfl, by rw [bitOf_setBit _ _ _ (by decide), if_pos rfl], rfl⟩
  case time =>
    intro s live out
    refine ⟨blockReset s .time, act_live s _ live, ?_⟩
    rw [blockReset_of .time out]
    exact ⟨rfl, rfl, rfl, rfl⟩
  case pll =>
    intro s j live
    let t : State := { s with crp := { s.crp with pll := setBit s.crp.pll j.val false } }
    by_cases last : j = 5
    · refine ⟨card { t with time := { t.time with clkfault := true } } 310 3 0 0 0, ?_, ?_, ?_⟩
      · exact (congrArg (act s) (if_pos (congrArg Fin.val last))).trans (act_live s _ live)
      · rw [card_crp]
      · rw [card_time, decide_eq_true last, Bool.or_true]
    · refine ⟨card t 330 1 0 j 0, ?_, ?_, ?_⟩
      · exact (congrArg (act s) (if_neg fun e => last (Fin.ext e))).trans (act_live s _ live)
      · rw [card_crp]
      · rw [card_time, decide_eq_false last, Bool.or_false]
  case railOut =>
    intro s j live
    exact act_live s _ live
  case railIn =>
    intro s j calm
    exact calm.act rfl rfl
  case sensorFails =>
    intro s n raw live vstby
    refine ⟨sensorRead s n raw false, ?_, ?_, ?_⟩
    · refine (if_neg (by rw [vstby]; decide)).trans (congrArg (fun t => done (sensorFires t n)) ((if_neg ?_).trans (if_neg ?_)))
      · rw [live]; decide
      · decide
    · rw [sensorRead, State.sens_setSens]
    · rw [sensorRead, State.sens_setSens]
  case sensorReads =>
    intro s n raw calm vstby noAlarm
    have limits := sensorLimits_checks (sensorRead s n raw true) n
    have calmAlarm : sensorAlarms (sensorLimits (sensorRead s n raw true) n) n = false := by
      rw [sensorAlarms, limits.sens]
      exact noAlarm
    refine ⟨sensorLimits (sensorRead s n raw true) n, ?_, ?_, ?_, ?_, fun out inside => ⟨?_, fun flows => ?_⟩⟩
    · refine (if_neg (by rw [vstby]; decide)).trans ((congrArg done ?_).trans (done_quiet _ (quiet_of s _ calm.quiet ?_ ?_)))
      · refine (congrArg (fun t => sensorFires t n) ((if_neg ?_).trans (if_pos rfl))).trans (if_pos ?_)
        · rw [calm.live]
          decide
        · rw [calmAlarm]
          rfl
      · exact limits.fcr
      · exact limits.chan
    · rw [limits.sens, sensorRead, State.sens_setSens]
    · rw [limits.sens, sensorRead, State.sens_setSens]
    · rw [limits.sens, sensorRead, State.sens_setSens]
    · exact (sensorLimits_trips n.isLt out inside).1
    · exact (sensorLimits_trips n.isLt out inside).2 flows
end Sys2Proof.Proofs
end

section
/-! PROOFS. The duplex engine's states: what the channel's work leaves of the engine's own, and each move. -/
namespace Sys2Proof.Machine

/-! ## Parts that the channel's work does not reach -/

/-- A part g of the state rests on nothing that the channel's stores, reports and messages touch: of the channel only the
module ID counts, of the duplex engine all but the records sent. -/
structure AsideChan {α : Type} (g : State → α) : Prop where
  rest : ∀ s caches mem free ports sent ert bus fcr,
    g { s with caches := caches, mem := mem, free := free, ports := ports, dup := { s.dup with sent := sent }, ert := ert
               bus := bus, fcr := fcr } = g s
  chan : ∀ s (c : Chan), c.modid = s.chan.modid → g { s with chan := c } = g s

theorem sendRecords_sent (s : State) (l : List MirRec) :
    ∃ p n, sendRecords s l = { s with ports := p, dup := { s.dup with sent := n } } := by
  unfold sendRecords
  split
  · exact ⟨_, _, rfl⟩
  · exact ⟨s.ports, s.dup.sent, rfl⟩

theorem card_eq (s : State) (a b c d e : Nat) : ∃ f x, card s a b c d e = { s with fcr := f, bus := x } := by
  unfold card sendCard
  split
  · exact ⟨s.fcr, _, rfl⟩
  · exact ⟨_, s.bus, rfl⟩

namespace AsideChan
variable {α : Type} {g : State → α}

theorem records (h : AsideChan g) (s : State) (l : List MirRec) : g (sendRecords s l) = g s := by
  obtain ⟨p, n, e⟩ := sendRecords_sent s l
  rw [e]
  exact h.rest s s.caches s.mem s.free p n s.ert s.bus s.fcr

theorem raise (h : AsideChan g) (s : State) (n : Nat) : g (raise s n) = g s := by
  obtain ⟨x, b, e⟩ := raise_eq s n
  rw [e]
  exact h.rest s s.caches s.mem s.free s.ports s.dup.sent x b s.fcr

theorem card (h : AsideChan g) (s : State) (a b c d e : Nat) : g (card s a b c d e) = g s := by
  obtain ⟨f, x, e⟩ := card_eq s a b c d e
  rw [e]
  exact h.rest s s.caches s.mem s.free s.ports s.dup.sent s.ert x f

theorem setPort (h : AsideChan g) (s : State) (n : Nat) (x : Port) : g (s.setPort n x) = g s :=
  h.rest s s.caches s.mem s.free _ s.dup.sent s.ert s.bus s.fcr

theorem queueOut (h : AsideChan g) (s : State) (n : Nat) (m : OutMsg) : g (queueOut s n m) = g s := h.setPort s n _

theorem queueCtl (h : AsideChan g) (s : State) (n : Nat) (m : OutMsg) : g (queueCtl s n m) = g s := by
  unfold Machine.queueCtl
  split
  · exact h.setPort s n _
  · rfl

theorem complete (h : AsideChan g) (s : State) (c : Cpl) : g (complete s c) = g s :=
  h.rest s s.caches s.mem s.free s.ports s.dup.sent s.ert _ s.fcr

theorem setJour (h : AsideChan g) (s : State) (i : Nat) (x : Journal) : g (s.setJour i x) = g s := h.chan s _ rfl

theorem agentStoreIn (h : AsideChan g) (s : State) (k : BitVec 2) (i : BitVec 8) (a : Nat) (l : List Byte) :
    g (agentStoreIn s k i a l) = g s :=
  agentStoreIn_keeps g (fun s k n => h.rest s k s.mem n s.ports s.dup.sent s.ert s.bus s.fcr)
    (fun s m => h.rest s s.caches m s.free s.ports s.dup.sent s.ert s.bus s.fcr) h.records s k i a l

theorem agentStoreFor (h : AsideChan g) (s : State) (i : BitVec 8) (k : BitVec 12) (a : Nat) (l : List Byte) :
    g (agentStoreFor s i k a l) = g s := by
  unfold Machine.agentStoreFor
  split
  · exact h.agentStoreIn s 2 i a l
  · rfl

theorem setSd (h : AsideChan g) (s : State) (sub i : Nat) (v : Word) : g (setSd s sub i v) = g s := h.agentStoreIn ..

theorem writeRec (h : AsideChan g) (s : State) (sub : Nat) (r : Rec) : g (writeRec s sub r) = g s := by
  unfold Machine.writeRec
  dsimp only
  split
  · rw [h.raise]
    refine Eq.trans (h.chan _ _ ?_) ?_
    · rfl
    · rw [h.agentStoreFor, h.agentStoreFor]
  · rw [h.agentStoreFor, h.agentStoreFor]

theorem finishSend (h : AsideChan g) (s : State) (o : SendOp) : g (finishSend s o) = g s := by
  unfold Machine.finishSend
  dsimp only
  refine Eq.trans (h.chan _ _ ?_) (h.writeRec s _ _)
  rfl

theorem journalUpdate (h : AsideChan g) (s : State) (i idx st status : Nat) (resolved : Bool) :
    g (journalUpdate s i idx st status resolved) = g s :=
  (h.agentStoreIn ..).trans (h.agentStoreIn ..)

theorem fillRecv (h : AsideChan g) (s : State) (o : RecvOp) (m : RxMsg) : g (fillRecv s o m) = g s := by
  unfold Machine.fillRecv journalFilled journalStore
  dsimp only
  rw [h.journalUpdate, h.agentStoreIn, h.writeRec]
  refine Eq.trans (h.chan _ _ ?_) (h.agentStoreFor ..)
  rfl

theorem advanceRx (h : AsideChan g) (n : Nat) (s : State) (sub : Nat) : g (advanceRx n s sub) = g s := by
  induction n generalizing s with
  | zero => rfl
  | succ n ih =>
    unfold Machine.advanceRx
    dsimp only
    split
    · rw [ih, h.setSd, h.setSd]
    · rw [h.setSd, h.setSd]

theorem deliverReady (h : AsideChan g) (n : Nat) (s : State) (sub : Nat) : g (deliverReady n s sub) = g s := by
  induction n generalizing s with
  | zero => rfl
  | succ n ih =>
    unfold Machine.deliverReady
    split
    · rw [ih, h.advanceRx, h.fillRecv]
      refine h.chan s _ ?_
      rfl
    · rfl

theorem recordOpid (h : AsideChan g) (s : State) (sub : Nat) (seq : BitVec 48) (opid : Word) :
    g (recordOpid s sub seq opid) = g s := h.agentStoreIn ..

theorem early (h : AsideChan g) (s : State) (l : List RxMsg) : g { s with chan := { s.chan with early := l } } = g s :=
  h.chan s _ rfl

theorem waiting (h : AsideChan g) (s : State) (m : RxMsg) : g (waiting s m) = g s :=
  (h.early _ _).trans (h.recordOpid ..)

theorem noted (h : AsideChan g) (s : State) (m : RxMsg) : g (noted s m) = g s := by
  unfold Machine.noted
  split
  · exact h.waiting s m
  · exact (h.setSd ..).trans (h.waiting s m)

theorem receiveMsg (h : AsideChan g) (s : State) (m : RxMsg) : g (receiveMsg s m) = g s := by
  rw [receiveMsg_eq, h.deliverReady, h.queueOut, h.noted]

theorem releaseMirrored (h : AsideChan g) (s : State) : g (releaseMirrored s) = g s := by
  unfold Machine.releaseMirrored
  dsimp only
  split
  · rfl
  · rw [foldl_keeps (g := g) h.receiveMsg]
    refine Eq.trans (h.chan _ _ ?_) (foldl_keeps h.finishSend _ s)
    rfl

theorem sendSync (h : AsideChan g) (s : State) (sub : Nat) (m : OutMsg) : g (sendSync s sub m) = g s :=
  sendSync_cases (P := fun t => g t = g s) sub m (h.chan s _ rfl) fun n => h.queueOut s n m

theorem startSync (h : AsideChan g) (s : State) (sub : Nat) : g (startSync s sub) = g s := by
  unfold Machine.startSync bindStart
  rw [h.sendSync, h.setSd]
  refine h.chan s _ ?_
  rfl

theorem takeSub (h : AsideChan g) (s : State) (sub : Nat) : g (takeSub s sub) = g s := by
  unfold Machine.takeSub
  dsimp only
  split
  · rfl
  · split
    · exact h.startSync s sub
    · exact h.setSd s sub 6 _

theorem sendClaims (h : AsideChan g) (s : State) : g (sendClaims s) = g s :=
  foldl_keeps (fun t n => h.queueCtl t n _) _ s

end AsideChan

theorem asideChan_modid : AsideChan (·.chan.modid) := ⟨fun _ _ _ _ _ _ _ _ _ => rfl, fun _ _ e => e⟩
theorem asideChan_st : AsideChan (·.dup.st) := ⟨fun _ _ _ _ _ _ _ _ _ => rfl, fun _ _ _ => rfl⟩
theorem asideChan_takeMb : AsideChan (·.dup.takeMb) := ⟨fun _ _ _ _ _ _ _ _ _ => rfl, fun _ _ _ => rfl⟩
theorem asideChan_fromBackup : AsideChan (·.dup.fromBackup) := ⟨fun _ _ _ _ _ _ _ _ _ => rfl, fun _ _ _ => rfl⟩
theorem asideChan_ctxs : AsideChan (·.ctxs) := ⟨fun _ _ _ _ _ _ _ _ _ => rfl, fun _ _ _ => rfl⟩

theorem asideChan_ckptMask : AsideChan (·.dup.ckptMask) := ⟨fun _ _ _ _ _ _ _ _ _ => rfl, fun _ _ _ => rfl⟩

/-! ## Moves of the engine -/

theorem queueCtl_up {s : State} {n : Nat} (m : OutMsg) (up : (s.port n).isUp = true) :
    queueCtl s n m = s.setPort n { s.port n with ctl := (s.port n).ctl ++ [m] } := if_pos up

theorem flows_raise {s : State} (n : Nat) (flows : Flows s) : Flows (raise s n) := (writes_raise s n).flows flows

/-- A move before its event is sent. -/
def moved (s : State) (st : DupSt) : State :=
  let s := if st = .fenced then { s with chan := { s.chan with en := false } } else s
  { s with dup := { s.dup with st := st } }

theorem dupMove_eq (s : State) (st : DupSt) : dupMove s st = raise (moved s st) 279 := rfl

theorem moved_ert (s : State) (st : DupSt) : (moved s st).ert = s.ert := by
  unfold moved
  split <;> rfl

theorem moved_flows {s : State} (st : DupSt) (flows : Flows s) : Flows (moved s st) := by
  refine flows.of_bus ?_
  unfold moved
  split <;> rfl

theorem dupMove_flows {s : State} (st : DupSt) (flows : Flows s) : Flows (dupMove s st) := flows_raise 279 (moved_flows st flows)

theorem dupMove_pend {s : State} (st : DupSt) {n : Nat} (h : bitOf s.ert.pend n = true) : bitOf (dupMove s st).ert.pend n = true := by
  refine (writes_raise (moved s st) 279).pend n ?_
  rwa [moved_ert]

theorem dupMove_raises {s : State} (st : DupSt) (flows : Flows s) : bitOf (dupMove s st).ert.pend 279 = true :=
  raise_pend (moved_flows st flows) (by decide) (by decide)

/-- The channel stays as it is, but in FENCED. -/
theorem dupMove_chan {s : State} {st : DupSt} (h : st ≠ .fenced) : (dupMove s st).chan = s.chan := by
  rw [dupMove_eq, raise_chan, moved, if_neg h]

theorem dupMove_fenced_chan (s : State) : (dupMove s .fenced).chan = { s.chan with en := false } := by
  rw [dupMove_eq, raise_chan]
  rfl

/-! ## The partner's loss -/

theorem reportLoss_dup (s : State) : (reportLoss s).dup = s.dup := by rw [reportLoss, card_dup, raise_dup]

theorem reportLoss_pend {s : State} (flows : Flows s) : bitOf (reportLoss s).ert.pend 276 = true :=
  card_raise_pend flows (by decide) (by decide) ..

theorem syncLost_dup (s : State) : (syncLost s).dup = { s.dup with syncWaiters := [] } := by
  unfold syncLost
  split
  · next none => rw [← none]
  · rfl

theorem syncLost_flows {s : State} (flows : Flows s) : Flows (syncLost s) := by
  unfold syncLost
  split
  · exact flows
  · exact ⟨flows.credits, flows.noCards, flows.noEvents⟩

/-! ## Ends of binds -/

theorem bindEnd_syncing {s : State} (syncing : s.dup.st = .syncing) :
    bindEnd s = dupMove { s with dup := { s.dup with bindMb := none } } (if s.dup.fromSolo then .solo else .unbound) :=
  if_pos syncing

theorem bindEnd_dup {s : State} (syncing : s.dup.st = .syncing) :
    (bindEnd s).dup = { s.dup with bindMb := none, st := if s.dup.fromSolo then .solo else .unbound } := by
  rw [bindEnd_syncing syncing, dupMove_st]

theorem bindFails_eq {s : State} {n : Nat} (code : Nat) (box : s.dup.bindMb = some n) :
    bindFails s code = mbFail (soloRelease (bindEnd s)) n code [] := by
  rw [bindFails, box]

/-! ## Takeover -/

/-- The engine takes over under the partner's module ID. -/
def takeoverBegun (s : State) : State :=
  let s := dupMove { s with dup := { s.dup with fromBackup := true, relAsked := false, resolved := 0 } } .takingOver
  { s with chan := { s.chan with modid := s.dup.partner } }

theorem startTakeover_eq (s : State) : startTakeover s =
    (List.range 65536).foldl takeSub
      ((sendClaims (takeoverBegun s)).dup.jheads.foldl (fun t p => t.setJour p.1 { t.jour p.1 with head := p.2 })
        (sendClaims (takeoverBegun s))) := by
  unfold startTakeover takeoverBegun
  generalize List.range 65536 = subs
  dsimp only

theorem AsideChan.startTakeover {α : Type} {g : State → α} (h : AsideChan g) (s : State) :
    g (startTakeover s) = g (takeoverBegun s) := by
  rw [startTakeover_eq, foldl_keeps (g := g) h.takeSub, foldl_keeps (g := g) fun t p => h.setJour t _ _, h.sendClaims]

theorem takeoverBegun_dup (s : State) : (takeoverBegun s).dup =
    { s.dup with fromBackup := true, relAsked := false, resolved := 0, st := .takingOver } := dupMove_st _ _

theorem takeoverBegun_modid (s : State) : (takeoverBegun s).chan.modid = s.dup.partner :=
  congrArg (·.partner) (dupMove_st _ .takingOver)

theorem startTakeover_st (s : State) : (startTakeover s).dup.st = .takingOver := by
  rw [asideChan_st.startTakeover, takeoverBegun_dup]

theorem startTakeover_modid (s : State) : (startTakeover s).chan.modid = s.dup.partner := by
  rw [asideChan_modid.startTakeover, takeoverBegun_modid]

theorem startTakeover_fromBackup (s : State) : (startTakeover s).dup.fromBackup = true := by
  rw [asideChan_fromBackup.startTakeover, takeoverBegun_dup]

theorem startTakeover_takeMb (s : State) : (startTakeover s).dup.takeMb = s.dup.takeMb := by
  rw [asideChan_takeMb.startTakeover, takeoverBegun_dup]

theorem reports_setPort (s : State) (n : Nat) (x : Port) : Reports s (s.setPort n x) := .of_same rfl rfl rfl rfl rfl rfl rfl

theorem reports_queueCtl (s : State) (n : Nat) (m : OutMsg) : Reports s (queueCtl s n m) :=
  .ite (reports_setPort s n _) (.refl s)

theorem reports_startSync (s : State) (sub : Nat) : Reports s (startSync s sub) := by
  have starts : Reports s (bindStart s sub) := .of_same rfl rfl rfl rfl rfl rfl rfl
  exact (starts.trans (writes_setSd ..).toReports).trans (reports_sendSync ..)

theorem reports_takeSub (s : State) (sub : Nat) : Reports s (takeSub s sub) := by
  unfold takeSub
  dsimp only
  split
  · exact .refl s
  · exact .ite (reports_startSync s sub) (writes_setSd ..).toReports

theorem reports_startTakeover (s : State) : Reports (takeoverBegun s) (startTakeover s) := by
  have claims : Reports (takeoverBegun s) (sendClaims (takeoverBegun s)) :=
    Reports.foldl (fun t n => reports_queueCtl t n _) [0, 1, 2, 3] (takeoverBegun s)
  have heads (l : Tab (BitVec 24)) (t : State) :
      Reports t (l.foldl (fun t p => t.setJour p.1 { t.jour p.1 with head := p.2 }) t) :=
    Reports.foldl (fun t p => (writes_setJour t p.1 _).toReports) l t
  rw [startTakeover_eq]
  generalize List.range 65536 = subs
  exact (claims.trans (heads _ _)).trans (Reports.foldl reports_takeSub subs _)

theorem startTakeover_pend {s : State} {n : Nat} (h : bitOf s.ert.pend n = true) :
    bitOf (startTakeover s).ert.pend n = true := by
  refine (reports_startTakeover s).pend n ?_
  have same : bitOf ({ s with dup := { s.dup with fromBackup := true, relAsked := false, resolved := 0 } } : State).ert.pend n =
      true := h
  exact dupMove_pend .takingOver same

/-! ## The end of a takeover -/

theorem gateExit_of_awake {s : State} {p : Nat} (awake : (s.pair p).gated = false) : gateExit s p = s :=
  if_pos (by simp [awake])

theorem ertCtxReset_eq (s : State) (c : Nat) : ∃ e, ertCtxReset s c = { s with ert := e } := by
  unfold ertCtxReset withdraw
  split
  · exact ⟨_, rfl⟩
  · dsimp only
    split <;> exact ⟨_, rfl⟩

/-- A context that takes over keeps those beside it, while no pair is in GATE. -/
structure KeepsBeside (c : Nat) (s t : State) : Prop where
  ctx : t.ctx c = s.ctx c
  pairs : t.pairs = s.pairs

theorem keepsBeside_releaseCtx {s : State} {c m : Nat} (awake : ∀ p, (s.pair p).gated = false) (other : c ≠ m) :
    KeepsBeside c s (releaseCtx s m) := by
  unfold releaseCtx
  rw [gateExit_of_awake (awake _)]
  dsimp only
  split
  · exact ⟨rfl, rfl⟩
  · split <;> exact ⟨State.ctx_setCtx_other _ _ _ _ other, rfl⟩

/-- The registers of the checkpoint b, and the owner that it names. -/
def contextTaken (s : State) (c : Nat) (b : Bool) : State :=
  let o := fld (slotWord s c b 13) 7 0
  let s := ertCtxReset s c
  let s := s.setCtx c (loadSlot s c b)
  { s with insts := { s.insts with ctxown := s.insts.ctxown.set c (BitVec.ofNat 8 o) } }

/-- A context stays STOPPED for want of a checkpoint or of its owner, or goes on from its checkpoint. -/
theorem takeContext_cases (s : State) (c : Nat) :
    takeContext s c = { s with dup := { s.dup with leftStopped := satInc s.dup.leftStopped } } ∨
      ∃ b, takeContext s c = releaseCtx (contextTaken s c b) c := by
  unfold takeContext
  dsimp only
  split
  · exact .inl rfl
  · next b _ =>
    split
    · exact .inl rfl
    · exact .inr ⟨b, rfl⟩

theorem contextTaken_eq (s : State) (c : Nat) (b : Bool) :
    ∃ e x i, contextTaken s c b = { (s.setCtx c x) with ert := e, insts := i } := by
  obtain ⟨e, same⟩ := ertCtxReset_eq s c
  unfold contextTaken
  rw [same]
  exact ⟨e, _, _, rfl⟩

theorem keepsBeside_takeContext {s : State} {c m : Nat} (awake : ∀ p, (s.pair p).gated = false) (other : c ≠ m) :
    KeepsBeside c s (takeContext s m) := by
  obtain same | ⟨b, same⟩ := takeContext_cases s m <;> rw [same]
  · exact ⟨rfl, rfl⟩
  · obtain ⟨e, x, i, taken⟩ := contextTaken_eq s m b
    rw [taken]
    have released := keepsBeside_releaseCtx (s := { (s.setCtx m x) with ert := e, insts := i }) awake other
    exact ⟨released.ctx.trans (State.ctx_setCtx_other s m c x other), released.pairs⟩

theorem foldl_takeContext_ctx (l : List Nat) {c : Nat} (out : c ∉ l) {s : State} (awake : ∀ p, (s.pair p).gated = false) :
    (l.foldl takeContext s).ctx c = s.ctx c := by
  refine (List.foldlRecOn l takeContext (motive := KeepsBeside c s) ⟨rfl, rfl⟩ fun t h m mem => ?_).ctx
  have awake' (p : Nat) : (t.pair p).gated = false := by
    rw [State.pair, h.pairs]
    exact awake p
  have next := keepsBeside_takeContext awake' (ne_of_mem_of_not_mem mem out).symm
  exact ⟨next.ctx.trans h.ctx, next.pairs.trans h.pairs⟩

theorem gateExit_flows {s : State} (p : Nat) (flows : Flows s) : Flows (gateExit s p) := by
  have setCtx {t : State} (c : Nat) (x : Ctx) (h : Flows t) : Flows (t.setCtx c x) := h.of_bus rfl
  have wakes {t : State} (c : Nat) (h : Flows t) : Flows (wakeCtx t c) := by
    unfold wakeCtx
    split
    · split
      · exact h
      · exact setCtx c _ h
    · exact h
  unfold gateExit
  dsimp only
  split
  · exact flows
  · have empty : Flows (emptyL2 (s.setPair p { s.pair p with gated := false, pred := [], predT := [] }) p) := flows.of_bus rfl
    generalize emptyL2 _ p = t at empty
    have lost := List.foldlRecOn (pairCtxs t p) (fun t c => t.setCtx c (t.ctx c).gateLoss) (motive := Flows) empty
      fun t h c _ => setCtx c _ h
    generalize (pairCtxs t p).foldl (fun t c => t.setCtx c (t.ctx c).gateLoss) t = t at lost
    have woken := List.foldlRecOn (pairCtxs t p) (fun t c => if wakeSource t c then wakeCtx t c else t) (motive := Flows) lost
      fun t h c _ => by split; exacts [wakes c h, h]
    split
    · exact flows_raise 307 woken
    · exact woken

theorem releaseCtx_flows {s : State} (c : Nat) (flows : Flows s) : Flows (releaseCtx s c) := by
  have exits := gateExit_flows (pairOf s c) flows
  unfold releaseCtx
  dsimp only
  split
  · exact flows
  · split <;> exact exits.of_bus rfl

theorem takeContext_flows {s : State} (c : Nat) (flows : Flows s) : Flows (takeContext s c) := by
  obtain same | ⟨b, same⟩ := takeContext_cases s c <;> rw [same]
  · exact flows.of_bus rfl
  · obtain ⟨e, x, i, taken⟩ := contextTaken_eq s c b
    rw [taken]
    exact releaseCtx_flows c (flows.of_bus rfl)

theorem takeContext_takeMb (s : State) (c : Nat) : (takeContext s c).dup.takeMb = s.dup.takeMb := by
  have aside : AsideRuns (·.dup.takeMb) := fun _ _ _ _ _ _ _ => rfl
  obtain same | ⟨b, same⟩ := takeContext_cases s c <;> rw [same]
  obtain ⟨e, x, i, taken⟩ := contextTaken_eq s c b
  rw [taken, aside.releaseCtx]
  rfl

theorem reports_receiveMsg (s : State) (m : RxMsg) : Reports s (receiveMsg s m) := by
  rw [receiveMsg_eq]
  exact (writes_noted s m).toReports.trans ((reports_setPort _ _ _).trans (writes_deliverReady ..).toReports)

theorem reports_releaseMirrored (s : State) : Reports s (releaseMirrored s) := by
  unfold releaseMirrored
  dsimp only
  split
  · exact .refl s
  · have finishes := Reports.foldl reports_finishSend
      (s.chan.sends.filter fun o => decide (o.st = .heldBack) && mirrored s o.mirrorAt) s
    generalize List.foldl finishSend s _ = t at finishes ⊢
    have drops (l : List RxMsg) : Reports t { t with chan := { t.chan with rxHeld := l } } := .of_same rfl rfl rfl rfl rfl rfl rfl
    exact (finishes.trans (drops _)).trans (.foldl reports_receiveMsg _ _)

theorem reports_mbDone (s : State) (n k : Nat) (l : List Word) : Reports s (mbDone s n k l) := by
  unfold mbDone mbMove
  dsimp only
  have sets (x : Mailbox) : Reports s (s.setMb n x) := .of_same rfl rfl rfl rfl rfl rfl rfl
  exact .ite ((sets _).trans (writes_raise _ _).toReports) (sets _)

/-- The contexts have taken over, and what waited for the partner is released. -/
def takenOver (s : State) : State := releaseMirrored (raise (dupMove ((ckptCtxs s).foldl takeContext s) .solo) 277)

theorem finishTakeover_eq (s : State) : finishTakeover s =
    match (takenOver s).dup.takeMb with
    | none => takenOver s
    | some n => mbDone { takenOver s with dup := { (takenOver s).dup with takeMb := none } } n 0 [w64 (takenOver s).dup.resolved.toNat] := rfl

theorem takenOver_st (s : State) : (takenOver s).dup.st = .solo := by
  rw [takenOver, asideChan_st.releaseMirrored, raise_dup, dupMove_st]

theorem takenOver_takeMb (s : State) : (takenOver s).dup.takeMb = s.dup.takeMb := by
  rw [takenOver, asideChan_takeMb.releaseMirrored, raise_dup, dupMove_st]
  exact foldl_keeps (g := (·.dup.takeMb)) takeContext_takeMb _ s

theorem takenOver_pend {s : State} (flows : Flows s) : bitOf (takenOver s).ert.pend 277 = true := by
  have taken : Flows ((ckptCtxs s).foldl takeContext s) :=
    List.foldlRecOn _ takeContext (motive := Flows) flows fun t h c _ => takeContext_flows c h
  exact (reports_releaseMirrored _).pend 277 (raise_pend (dupMove_flows .solo taken) (by decide) (by decide))

theorem takenOver_ctx {s : State} {c : Nat} (awake : ∀ p, (s.pair p).gated = false) (out : bitOf s.dup.ckptMask c = false) :
    (takenOver s).ctx c = s.ctx c := by
  have ctxs : (takenOver s).ctxs = ((ckptCtxs s).foldl takeContext s).ctxs := by
    rw [takenOver, asideChan_ctxs.releaseMirrored, raise_ctxs, dupMove_ctxs]
  have absent : c ∉ ckptCtxs s := fun h => by
    have named := (List.mem_filter.1 h).2
    rw [out] at named
    cases named
  rw [State.ctx, ctxs]
  exact foldl_takeContext_ctx _ absent awake

/-- The takeover ends in SOLO, with its event, and ends the command that asked for it. -/
structure TakeoverEnds (s u : State) : Prop where
  st : u.dup.st = .solo
  pend : Flows s → bitOf u.ert.pend 277 = true
  box : ∀ n, s.dup.takeMb = some n → (u.mb n).st = .done
  ctx : (∀ p, (s.pair p).gated = false) → ∀ c, bitOf s.dup.ckptMask c = false → u.ctx c = s.ctx c

theorem finishTakeover_ends (s : State) : TakeoverEnds s (finishTakeover s) := by
  have st := takenOver_st s
  have box := takenOver_takeMb s
  have pend := takenOver_pend (s := s)
  have ctx {c : Nat} := takenOver_ctx (s := s) (c := c)
  rw [finishTakeover_eq]
  generalize takenOver s = t at *
  cases asked : t.dup.takeMb with
  | none =>
    refine ⟨st, pend, fun n same => ?_, fun awake c out => ctx awake out⟩
    rw [← box, asked] at same
    cases same
  | some n =>
    refine ⟨?_, fun flows => (reports_mbDone _ n 0 _).pend 277 (pend flows), fun m same => ?_, fun awake c out => ?_⟩
    · rw [mbDone_dup]
      exact st
    · rw [← box, asked] at same
      rw [← Option.some.inj same, mbDone_mb_self]
    · rw [mbDone_ctx]
      exact ctx awake out

/-! ## The end of a synchronisation -/

/-- A context that becomes a BACKUP's is held STOPPED (R333). -/
def heldStopped (s : State) (c : Nat) : State := s.setCtx c { s.ctx c with run := .stopped, entering := false }

theorem foldl_held_run (l : List Nat) {c : Nat} (named : c ∈ l) (s : State) : ((l.foldl heldStopped s).ctx c).run = .stopped := by
  have keeps (t : State) (m : Nat) (h : (t.ctx c).run = .stopped) : ((heldStopped t m).ctx c).run = .stopped := by
    by_cases e : c = m
    · rw [heldStopped, e, State.ctx_setCtx]
    · rwa [heldStopped, State.ctx_setCtx_other _ _ _ _ e]
  induction l generalizing s with
  | nil => exact absurd named List.not_mem_nil
  | cons m l ih =>
    rw [List.foldl_cons]
    by_cases e : c = m
    · refine List.foldlRecOn l heldStopped (motive := fun t => (State.ctx t c).run = .stopped) ?_ fun t h k _ => keeps t k h
      rw [heldStopped, e, State.ctx_setCtx]
    · exact ih ((List.mem_cons.1 named).resolve_left e) _

/-- The engine leaves SYNCING in its role. -/
def synced (s : State) : State :=
  let left := if s.dup.role then 0 else zoneBytes s / 128 - s.dup.copied
  let s := { s with dup := { s.dup with bindMb := none, sent := s.dup.sent + left, copied := s.dup.copied + left } }
  dupMove s (if s.dup.role then .backup else .primary)

theorem synced_dup (s : State) : (synced s).dup.st = (if s.dup.role then .backup else .primary) ∧ (synced s).dup.bindMb = none ∧
    (synced s).dup.role = s.dup.role ∧ (synced s).dup.ckptMask = s.dup.ckptMask := by
  unfold synced
  dsimp only
  rw [dupMove_st]
  exact ⟨rfl, rfl, rfl, rfl⟩

theorem synced_chan (s : State) : (synced s).chan = s.chan := by
  refine dupMove_chan ?_
  split <;> decide

theorem synced_fcr (s : State) : (synced s).fcr = s.fcr := dupMove_fcr _ _

/-- A backup holds its contexts. -/
def syncHeld (s : State) : State := if (synced s).dup.role then (ckptCtxs (synced s)).foldl heldStopped (synced s) else synced s

theorem syncDone_eq (s : State) (n : Nat) : syncDone s n =
    mbDone (mbProgress (syncHeld s) n (zoneBytes (syncHeld s) / 2 ^ 20)) n 0
      (w64 (syncHeld s).dup.partner.toNat :: todWords (syncHeld s).tod) := rfl

theorem syncHeld_keeps {α : Type} {g : State → α} (ctxs : ∀ s c x, g (State.setCtx s c x) = g s) (s : State) :
    g (syncHeld s) = g (synced s) := by
  unfold syncHeld
  split
  · exact foldl_keeps (fun t c => ctxs t c _) _ _
  · rfl

theorem syncHeld_run {s : State} {c : Nat} (lt : c < 32) (role : s.dup.role = true) (named : bitOf s.dup.ckptMask c = true) :
    ((syncHeld s).ctx c).run = .stopped := by
  obtain ⟨-, -, sameRole, mask⟩ := synced_dup s
  have listed : c ∈ ckptCtxs (synced s) := List.mem_filter.2 ⟨List.mem_range.2 lt, by rwa [mask]⟩
  rw [syncHeld, sameRole, role]
  exact foldl_held_run _ listed _

/-! ## Relinquishing -/

theorem queueCtl_eq (s : State) (n : Nat) (m : OutMsg) : ∃ p, queueCtl s n m = { s with ports := p } := by
  unfold queueCtl
  split
  · exact ⟨_, rfl⟩
  · exact ⟨s.ports, rfl⟩

/-- Nothing waits for the partner. -/
def noneHeld (s : State) : Bool := !(s.chan.sends.any (fun o => decide (o.st = .heldBack)) || !s.chan.rxHeld.isEmpty)

theorem relinquishIfQuiet_eq (s : State) : relinquishIfQuiet s =
    if s.dup.relinquishing && noneHeld s && decide (s.dup.st = .primary) then
      sendHeartbeat (dupMove { s with dup := { s.dup with relinquishing := false } } .fenced)
    else s := rfl

/-! ## Binding -/

/-- A bind from UNBOUND that passes every check begins. -/
theorem duplexBind_begins {s : State} {x : Mailbox} (n : Nat) (clean : stray x [(2, 0x3FFF#64)] = false)
    (role : (x.arg 1).toNat ≤ 1) (partner : (x.arg 2).extractLsb' 0 14 ≠ s.chan.modid) (period : x.arg 3 = 1000)
    (zones : zonesHold s = true) (unbound : s.dup.st = .unbound) (up : (s.port 4).isUp = true) :
    duplexBind s x n = bindBegin s n (decide (x.arg 1 = 1)) ((x.arg 2).extractLsb' 0 14) 1000 := by
  have ms : (if x.arg 3 = 0 then 1000 else (x.arg 3).toNat) = 1000 := by
    rw [period]
    decide
  have checks : (stray x [(2, 0x3FFF#64)] || decide (1 < (x.arg 1).toNat) || decide ((x.arg 2).extractLsb' 0 14 = s.chan.modid) ||
      decide (1000 < 100) || decide (2000 < 1000) || !zonesHold s) = false := by
    simp [clean, Nat.not_lt.2 role, partner, zones]
  unfold duplexBind
  dsimp only
  rw [ms, checks, if_neg Bool.false_ne_true, unbound, up]
  rw [if_neg fun h => ?already, if_neg (by decide), if_neg (by simp), if_neg (by decide)]
  case already =>
    have st := h.1
    split at st <;> cases st

theorem bindBegin_dup (s : State) (n : Nat) (role : Bool) (partner : BitVec 14) (period : Nat) :
    let d := (bindBegin s n role partner period).dup
    d.st = .syncing ∧ d.role = role ∧ d.partner = partner ∧ d.period = period ∧ d.bindMb = some n := by
  unfold bindBegin
  rw [dupMove_st]
  exact ⟨rfl, rfl, rfl, rfl, rfl⟩

/-- A bind that begins leaves the FCR, the channel, the mailboxes and memory, and sends its event. -/
structure BindBegins (s u : State) : Prop where
  fcr : u.fcr = s.fcr
  chan : u.chan = s.chan
  mb : ∀ n, u.mb n = s.mb n
  mem : u.mem = s.mem
  pend : Flows s → bitOf u.ert.pend 279 = true

theorem bindBegin_begins (s : State) (n : Nat) (role : Bool) (partner : BitVec 14) (period : Nat) :
    BindBegins s (bindBegin s n role partner period) where
  fcr := dupMove_fcr _ _
  chan := dupMove_chan (by decide)
  mb m := dupMove_mb _ _ m
  mem := dupMove_mem _ _
  pend flows := dupMove_raises _ (flows.of_bus rfl)

/-- A command that has been taken up runs in its mailbox. -/
theorem TakesUp.box_running {s t : State} {n op : Nat} {x : Mailbox} (h : TakesUp s n op x t) : (t.mb n).st = .running := by
  have runs := h.runs
  rw [running, Bool.and_eq_true] at runs
  rw [h.state, State.mb_setMb, h.box]
  exact of_decide_eq_true runs.1

theorem syncDone_frame (s : State) (n : Nat) :
    (syncDone s n).fcr = s.fcr ∧ (syncDone s n).chan = s.chan ∧ (syncDone s n).dup = (synced s).dup := by
  refine ⟨?_, ?_, ?_⟩
  · rw [syncDone_eq, mbDone_fcr, mbProgress_fcr, syncHeld_keeps (g := State.fcr) fun _ _ _ => rfl, synced_fcr]
  · rw [syncDone_eq, mbDone_chan, mbProgress_chan, syncHeld_keeps (g := State.chan) fun _ _ _ => rfl, synced_chan]
  · rw [syncDone_eq, mbDone_dup, mbProgress_dup, syncHeld_keeps (g := State.dup) fun _ _ _ => rfl]

/-- A command asks the partner to relinquish. -/
def relinquishAsked (s : State) (n : Nat) : State := { s with dup := { s.dup with takeMb := some n, relAsked := true } }

theorem duplexTakeover_asks {s : State} (n : Nat) (backup : s.dup.st = .backup) (heard : s.dup.lost = false) :
    duplexTakeover s n = queueCtl (relinquishAsked s n) 4 .relinquish := by
  unfold duplexTakeover
  rw [backup, if_neg (by simp), if_neg (by decide), if_neg (by decide)]
  exact if_neg (ne_true_of_eq_false heard)

theorem duplexTakeover_lost {s : State} (n : Nat) (backup : s.dup.st = .backup) (lost : s.dup.lost = true) :
    duplexTakeover s n = startTakeover { s with dup := { s.dup with takeMb := some n } } := by
  unfold duplexTakeover
  rw [backup, if_neg (by simp), if_neg (by decide), if_neg (by decide)]
  exact if_pos lost

/-! ## Heartbeats of a bind -/

/-- A heartbeat has been heard. -/
def heard (s : State) : State := { s with dup := { s.dup with lost := false } }

theorem exec_heartbeat_syncing {s : State} (role : Bool) (m : BitVec 14) (st : BitVec 3) (b : Option BindInfo)
    (syncing : s.dup.st = .syncing) : exec (.heartbeat role m st b) s = act s (bindHeard (heard s) role m st b) := by
  change act s (match s.dup.st with | _ => _) = _
  rw [syncing]
  rfl

/-- The partner's bind is compared once, with this one. -/
theorem bindHeard_first {s : State} {n : Nat} (role : Bool) (m : BitVec 14) (st : BitVec 3) (b : BindInfo)
    (box : s.dup.bindMb = some n) (step : (s.mb n).step = 1) : bindHeard s role m st (some b) =
      if bindAgrees s role m b then s.setMb n { s.mb n with step := 2 } else bindFails s 0x5B := by
  have first : bindTaken s = false := by
    rw [bindTaken, box]
    exact decide_eq_false (by rw [step]; decide)
  rw [bindHeard.eq_def, box]
  exact if_neg (by rw [first]; decide)

theorem bindHeard_differs {s : State} {n : Nat} {role : Bool} {m : BitVec 14} (st : BitVec 3) {b : BindInfo}
    (box : s.dup.bindMb = some n) (step : (s.mb n).step = 1) (differs : bindAgrees s role m b = false) :
    bindHeard s role m st (some b) = mbFail (soloRelease (bindEnd s)) n 0x5B [] := by
  rw [bindHeard_first role m st b box step, if_neg (ne_true_of_eq_false differs), bindFails_eq 0x5B box]

end Sys2Proof.Machine

namespace Sys2Proof.Proofs
open Sys2Proof.Machine

/-- Settles O55: each command by the move of the engine that it makes. -/
theorem duplexStates : Obligations.DuplexStates := by
  unfold Obligations.DuplexStates
  refine ⟨?heartbeatSend, ?fences, ?agrees, ?differs, ?relinquished, ?lostPrimary, ?lostSolo, ?lostTakes, ?lostWaits, ?lostBind,
    ?fenceFlit, ?relinquish, ?relinquishLater, ?timeout, ?complete, ?bind, ?bindTimeout, ?synced, ?takeover, ?takeoverLost⟩
  case heartbeatSend =>
    intro s calm up
    exact (congrArg (act s) (queueCtl_up _ up)).trans (calm.act rfl rfl)
  case fences =>
    intro s role m st b calm taking up
    have run : exec (.heartbeat role m st b) s = act s (queueCtl { s with dup := { s.dup with lost := false } } 4 .fenceFlit) := by
      change act s (match s.dup.st with | _ => _) = _
      rw [taking]
    rw [run]
    exact (congrArg (act s) (queueCtl_up (s := { s with dup := { s.dup with lost := false } }) .fenceFlit up)).trans (calm.act rfl rfl)
  case agrees =>
    intro s role m st b n calm syncing box step agrees
    rw [exec_heartbeat_syncing role m st (some b) syncing, bindHeard_first (s := heard s) role m st b box step]
    exact (congrArg (act s) (if_pos agrees)).trans (calm.act rfl rfl)
  case differs =>
    intro s role m st b n live syncing box step differs
    refine ⟨bindEnd (heard s), ?_, ?_, ?_⟩
    · have fails : bindHeard (heard s) role m st (some b) = mbFail (soloRelease (bindEnd (heard s))) n 0x5B [] :=
        bindHeard_differs st box step differs
      rw [exec_heartbeat_syncing role m st (some b) syncing, fails]
      exact act_live s _ live
    · rw [bindEnd_dup (s := heard s) syncing]
      rfl
    · rw [bindEnd_dup (s := heard s) syncing]
  case relinquished =>
    intro s role m b live backup asked
    refine ⟨startTakeover (heard s), ?_, startTakeover_st _, startTakeover_modid _⟩
    have run : exec (.heartbeat role m 7#3 b) s = act s (if s.dup.relAsked && decide (7#3 = 7) then startTakeover (heard s) else heard s) := by
      change act s (match s.dup.st with | _ => _) = _
      rw [backup]
      rfl
    rw [run, asked]
    exact act_live s _ live
  case lostPrimary =>
    intro s live primary waits
    let t : State := { s with dup := { s.dup with relinquishing := false } }
    have run : partnerLoss s = dupMove (reportLoss (syncLost t)) .partnerLost := by
      rw [partnerLoss, primary]
      exact if_neg (by rw [syncLost_dup]; exact ne_true_of_eq_false waits)
    refine ⟨partnerLoss s, act_live s _ live, ?_⟩
    rw [run, dupMove_st, reportLoss_dup, syncLost_dup, dupMove_mem, reportLoss_mem, syncLost_mem]
    refine ⟨rfl, rfl, fun flows => dupMove_pend _ (reportLoss_pend (syncLost_flows ?_)), rfl⟩
    exact flows.of_bus rfl
  case lostSolo =>
    intro s live primary goesOn
    let t : State := { s with dup := { s.dup with relinquishing := false } }
    have run : partnerLoss s = releaseMirrored (dupMove (reportLoss (syncLost t)) .solo) := by
      rw [partnerLoss, primary]
      exact if_pos (by rw [syncLost_dup]; exact goesOn)
    refine ⟨dupMove (reportLoss (syncLost t)) .solo, ?_, ?_, fun flows => dupMove_pend _ (reportLoss_pend (syncLost_flows ?_))⟩
    · exact (congrArg (act s) run).trans (act_live s _ live)
    · rw [dupMove_st]
    · exact flows.of_bus rfl
  case lostTakes =>
    intro s live backup heard auto
    have run : partnerLoss s = startTakeover (reportLoss s) := by
      rw [partnerLoss, backup]
      exact (if_neg (by rw [heard]; decide)).trans (if_pos auto)
    refine ⟨startTakeover (reportLoss s), (congrArg (act s) run).trans (act_live s _ live), startTakeover_st _, ?_⟩
    rw [startTakeover_modid, reportLoss_dup]
  case lostWaits =>
    intro s live backup heard manual
    have run : partnerLoss s = reportLoss { s with dup := { s.dup with lost := true } } := by
      rw [partnerLoss, backup]
      exact (if_neg (by rw [heard]; decide)).trans (if_neg (by rw [manual]; decide))
    refine ⟨partnerLoss s, act_live s _ live, ?_⟩
    rw [run, reportLoss_dup, reportLoss_mem]
    refine ⟨backup, rfl, fun flows => reportLoss_pend ?_, rfl⟩
    exact flows.of_bus rfl
  case lostBind =>
    intro s n live syncing box
    have dup : (reportLoss (syncLost s)).dup = { s.dup with syncWaiters := [] } := by rw [reportLoss_dup, syncLost_dup]
    have still : (reportLoss (syncLost s)).dup.st = .syncing := by rw [dup]; exact syncing
    have run : partnerLoss s = mbFail (soloRelease (bindEnd (reportLoss (syncLost s)))) n 0x5A [] := by
      rw [partnerLoss, syncing]
      exact bindFails_eq 0x5A (by rw [dup]; exact box)
    refine ⟨bindEnd (reportLoss (syncLost s)), (congrArg (act s) run).trans (act_live s _ live), ?_, ?_, fun flows => ?_⟩
    · rw [bindEnd_dup still, dup]
    · rw [bindEnd_dup still]
    · have reported := reportLoss_pend (syncLost_flows flows)
      rw [bindEnd_syncing still]
      exact dupMove_pend _ reported
  case fenceFlit =>
    intro s calm lost
    refine ⟨dupMove s .fenced, ?_, ?_, ?_, dupMove_raises .fenced, dupMove_mem s .fenced⟩
    · refine (congrArg (act s) (if_pos lost)).trans (act_quiet s _ calm.live ?_)
      have still := calm.quiet
      unfold quiet chanQuiesced at still ⊢
      rw [dupMove_fcr, dupMove_fenced_chan]
      exact still
    · rw [dupMove_st]
    · rw [dupMove_fenced_chan]
  case relinquish =>
    intro s calm primary none unheld
    let t : State := { s with dup := { s.dup with relinquishing := false } }
    obtain ⟨p, sent⟩ := queueCtl_eq (dupMove t .fenced) 4
      (.heartbeat (dupMove t .fenced).dup.role (dupMove t .fenced).chan.modid (BitVec.ofNat 3 (dupMove t .fenced).dup.st.code))
    have quietEngine : noneHeld s = true := by
      have free : s.chan.sends.any (fun o => decide (o.st = .heldBack)) = false :=
        List.any_eq_false.2 fun o mem => by simpa using unheld o mem
      rw [noneHeld, free, none]
      rfl
    have run : exec .relinquish s = act s (sendHeartbeat (dupMove t .fenced)) := by
      refine congrArg (act s) ((if_pos primary).trans ?_)
      rw [relinquishIfQuiet_eq]
      exact if_pos (by
        change (true && noneHeld s && decide (s.dup.st = .primary)) = true
        rw [quietEngine, primary]
        rfl)
    refine ⟨sendHeartbeat (dupMove t .fenced), ?_, ?_, ?_, ?_⟩
    · rw [run]
      refine act_quiet s _ calm.live ?_
      have still := calm.quiet
      rw [sendHeartbeat, sent]
      unfold quiet chanQuiesced at still ⊢
      dsimp only
      rw [dupMove_fcr, dupMove_fenced_chan]
      exact still
    · rw [sendHeartbeat, sent, dupMove_st]
    · rw [sendHeartbeat, sent, dupMove_st]
    · rw [sendHeartbeat, sent, dupMove_fenced_chan]
  case relinquishLater =>
    intro s o calm primary mem held
    have waits : noneHeld { s with dup := { s.dup with relinquishing := true } } = false := by
      have some : s.chan.sends.any (fun o => decide (o.st = .heldBack)) = true := List.any_eq_true.2 ⟨o, mem, decide_eq_true held⟩
      change (!(s.chan.sends.any (fun o => decide (o.st = .heldBack)) || !s.chan.rxHeld.isEmpty)) = false
      rw [some]
      rfl
    refine (congrArg (act s) ((if_pos primary).trans ?_)).trans (calm.act rfl rfl)
    rw [relinquishIfQuiet_eq, waits, Bool.and_false, Bool.false_and, if_neg Bool.false_ne_true]
  case timeout =>
    intro s live backup asked
    refine ⟨startTakeover (reportLoss s), ?_, startTakeover_st _, ?_, startTakeover_fromBackup _,
      fun flows => startTakeover_pend (reportLoss_pend flows)⟩
    · exact (congrArg (act s) (if_pos ⟨backup, asked⟩)).trans (act_live s _ live)
    · rw [startTakeover_modid, reportLoss_dup]
  case complete =>
    intro s live taking
    have ends := finishTakeover_ends s
    exact ⟨finishTakeover s, (congrArg (act s) (if_pos taking)).trans (act_live s _ live), ends.st, ends.pend, ends.box, ends.ctx⟩
  case bind =>
    intro s n x t quiet takes clean role partner period zones unbound up
    have same : t = s.setMb n x := takes.state
    have begins : duplexBind t x n = bindBegin t n (decide (x.arg 1 = 1)) ((x.arg 2).extractLsb' 0 14) 1000 := by
      rw [same]
      exact duplexBind_begins n clean role partner period zones unbound up
    obtain ⟨st, hasRole, hasPartner, hasPeriod, box⟩ :=
      bindBegin_dup t n (decide (x.arg 1 = 1)) ((x.arg 2).extractLsb' 0 14) 1000
    have flowsT (flows : Flows s) : Flows t := same ▸ flows.of_bus rfl
    have frame := bindBegin_begins t n (decide (x.arg 1 = 1)) ((x.arg 2).extractLsb' 0 14) 1000
    refine ⟨duplexBind t x n, takeUp_quiet s n 0x0701 x t (fun t x => duplexBind t x n) takes ?_, ?_⟩
    · rw [begins]
      exact quiet_of s _ quiet (frame.fcr.trans (by rw [same]; rfl)) (frame.chan.trans (by rw [same]; rfl))
    · rw [begins, frame.mb]
      exact ⟨st, hasRole, hasPartner, hasPeriod, box, takes.box_running, fun flows => frame.pend (flowsT flows),
        frame.mem.trans (by rw [same]; rfl)⟩
  case bindTimeout =>
    intro s n live box syncing step
    refine ⟨bindEnd s, ?_, ?_, ?_⟩
    · have run : exec .duplexBindTimeout s = act s (bindFails s 0x5A) := by
        change act s (match s.dup.bindMb with | none => _ | some n => _) = _
        rw [box]
        exact congrArg (act s) (if_pos ⟨syncing, step⟩)
      rw [run, bindFails_eq 0x5A box]
      exact act_live s _ live
    · rw [bindEnd_dup syncing]
    · rw [bindEnd_dup syncing]
  case synced =>
    intro s n calm box syncing step
    have taken : bindTaken s = true := by
      rw [bindTaken, box]
      exact decide_eq_true step
    have run : exec .duplexSyncComplete s = act s (syncDone s n) := by
      change act s (match s.dup.bindMb with | none => _ | some n => _) = _
      rw [box]
      exact congrArg (act s) (if_pos ⟨syncing, taken⟩)
    obtain ⟨fcr, chan, dup⟩ := syncDone_frame s n
    obtain ⟨st, boxEnds, -, -⟩ := synced_dup s
    refine ⟨syncDone s n, run.trans (calm.act fcr chan), ?_, ?_, ?_, fun c lt role named => ?_⟩
    · rw [dup, st]
    · rw [dup, boxEnds]
    · rw [syncDone_eq, mbDone_mb_self]
    · rw [syncDone_eq, mbDone_ctx, mbProgress_ctx]
      exact syncHeld_run lt role named
  case takeover =>
    intro s n x t quiet takes backup heard up
    have same : t = s.setMb n x := takes.state
    have fcr : t.fcr = s.fcr := by rw [same]; rfl
    have chan : t.chan = s.chan := by rw [same]; rfl
    have mem : t.mem = s.mem := by rw [same]; rfl
    have port : t.port 4 = s.port 4 := by rw [same]; rfl
    have asks : duplexTakeover t n = queueCtl (relinquishAsked t n) 4 .relinquish :=
      duplexTakeover_asks n (by rw [same]; exact backup) (by rw [same]; exact heard)
    have upT : ((relinquishAsked t n).port 4).isUp = true := port ▸ up
    rw [queueCtl_up .relinquish upT] at asks
    refine ⟨duplexTakeover t n, takeUp_quiet s n 0x0702 x t (fun t _ => duplexTakeover t n) takes ?_, ?_⟩
    · rw [asks]
      exact quiet_of s _ quiet fcr chan
    · rw [asks]
      refine ⟨rfl, rfl, ?_, takes.box_running, mem⟩
      rw [State.port_setPort]
      exact congrArg (fun p : Port => p.ctl ++ [OutMsg.relinquish]) port
  case takeoverLost =>
    intro s n x t takes backup lost
    have same : t = s.setMb n x := takes.state
    have begins : duplexTakeover t n = startTakeover { t with dup := { t.dup with takeMb := some n.val } } :=
      duplexTakeover_lost n (by rw [same]; exact backup) (by rw [same]; exact lost)
    have partner : t.dup.partner = s.dup.partner := by rw [same]; rfl
    refine ⟨duplexTakeover t n, takeUp_of s n 0x0702 x t (fun t _ => duplexTakeover t n) takes, ?_⟩
    rw [begins, startTakeover_takeMb, startTakeover_modid]
    exact ⟨startTakeover_st _, rfl, partner⟩
end Sys2Proof.Proofs
end

section
/-! PROOFS. Flit windows: what a port sends, by what it holds. -/
namespace Sys2Proof.Machine

/-! ## The window of a port -/

/-- Nothing that a bind held back is to finish: a window of a port that is up runs at once. -/
theorem exec_flitWindow {s : State} {n : Fin 5} (settled : soloRelease s = s) (up : (s.port n).isUp = true) :
    exec (.flitWindow n) s = act s (window s n) := by
  change act s (if (s.port n).isUp then window (soloRelease s) n else s) = _
  rw [if_pos up, settled]

theorem window_replaying {s : State} {n : Nat} {e : ReplayEntry} {l : List ReplayEntry} (replaying : (s.port n).replaying = e :: l) :
    window s n = s.setPort n (sendFlit { s.port n with replaying := l } e) := by
  unfold window
  dsimp only
  rw [replaying]

theorem window_control {s : State} {n : Nat} {m : OutMsg} {l : List OutMsg} (replaying : (s.port n).replaying = [])
    (ctl : (s.port n).ctl = m :: l) (room : (s.port n).replay.length < replaySize n) :
    window s n = s.setPort n (newFlit { s.port n with ctl := l } 2 0 0 (some m)) := by
  unfold window
  dsimp only
  rw [replaying, ctl]
  exact if_pos room

theorem window_fabric {s : State} {n : Nat} (fabric : n < 4) (replaying : (s.port n).replaying = []) (ctl : (s.port n).ctl = []) :
    window s n = fabricWindow s n := by
  unfold window
  dsimp only
  rw [replaying, ctl]
  exact if_neg (by omega)

/-- Port M sends records while it has no zone to copy. -/
theorem window_mirror {s : State} (replaying : (s.port 4).replaying = []) (ctl : (s.port 4).ctl = []) (copied : copying s = false) :
    window s 4 = s.setPort 4 (mirrorFlit (s.port 4)) := by
  have still : copyStep s = s := by
    unfold copyStep
    rw [copied]
    rfl
  unfold window
  dsimp only
  rw [replaying, ctl]
  dsimp only
  rw [if_pos rfl, still]

/-! ## Answers -/

theorem flitsOf_pos (len : Nat) : flitsOf len ≠ 0 := by
  unfold flitsOf
  omega

/-- The next answer's first flit leaves, where the link lets it. -/
theorem answerFlit_first {x : Port} {n : Nat} {m : OutMsg} {l : List OutMsg} (rest : x.rest = 0) (out : x.out = m :: l)
    (credit : 0 < x.credits.getD m.shape.1.toNat 0) (room : x.replay.length < replaySize n) :
    ∃ cur, answerFlit x n = some { dataFlit { x with out := l, cur := some m, rest := flitsOf m.shape.2 } m.shape.1
      (segOf (flitsOf m.shape.2) (flitsOf m.shape.2)) with rest := flitsOf m.shape.2 - 1, cur := cur } := by
  have taken : takeMsg x = { x with out := l, cur := some m, rest := flitsOf m.shape.2 } := by
    unfold takeMsg
    rw [if_neg (not_not_intro rest), out]
  have may : Port.mayData { x with out := l, cur := some m, rest := flitsOf m.shape.2 } n m.shape.1 = true := by
    rw [Port.mayData, decide_eq_true credit, decide_eq_true room]
    rfl
  unfold answerFlit
  rw [taken]
  dsimp only
  rw [may, decide_eq_true (flitsOf_pos _)]
  exact ⟨_, if_pos rfl⟩

theorem answerFlit_none {x : Port} (n : Nat) (rest : x.rest = 0) (out : x.out = []) : answerFlit x n = none := by
  have taken : takeMsg x = { x with cur := none } := by
    unfold takeMsg
    rw [if_neg (not_not_intro rest), out]
  rw [answerFlit, taken]

/-! ## SENDs -/

theorem chosenSend_found {s : State} {n : Nat} {o : SendOp} (chosen : chosenSend s n = some o) : findSend s o.s o.seq = some o := by
  unfold chosenSend at chosen
  split at chosen
  · cases chosen
  · next sub seq _ =>
    split at chosen
    · cases chosen
    · next k found =>
      split at chosen
      · have same : o.s = sub ∧ o.seq = seq := by
          rw [← Option.some.inj chosen]
          simpa [findSend] using List.find?_some found
        rw [same.1, same.2, found]
        exact chosen
      · cases chosen

/-- The SEND that was chosen leaves when no answer does. -/
theorem fabricWindow_send {s : State} {n : Nat} {o : SendOp} (answers : answerFlit (s.port n) n = none) (en : s.chan.en = true)
    (chosen : chosenSend s n = some o) : fabricWindow s n = sendDataFlit s n o := by
  have stands : scheduled s n = s := by
    rw [scheduled, chosen]
    simp
  unfold fabricWindow
  rw [answers]
  dsimp only
  rw [stands, chosen]
  exact if_pos en

/-- SENDs that are replaced one by one, each under its own number, are found under it again. -/
theorem find?_map_number {f : SendOp → SendOp} (sub : Nat) (seq : BitVec 48)
    (keeps : ∀ k : SendOp, (decide ((f k).s = sub) && decide ((f k).seq = seq)) = (decide (k.s = sub) && decide (k.seq = seq)))
    (l : List SendOp) : (l.map f).find? (fun o => decide (o.s = sub) && decide (o.seq = seq)) =
      (l.find? fun o => decide (o.s = sub) && decide (o.seq = seq)).map f := by
  have same : (fun o : SendOp => decide (o.s = sub) && decide (o.seq = seq)) ∘ f =
      fun o => decide (o.s = sub) && decide (o.seq = seq) := funext keeps
  rw [List.find?_map, same]

/-- A SEND that is replaced is found under its number. -/
theorem findSend_setSend {s : State} {o p : SendOp} (sub : p.s = o.s) (seq : p.seq = o.seq)
    (found : (findSend s o.s o.seq).isSome = true) : findSend (setSend s p) o.s o.seq = some p := by
  obtain ⟨k, hit⟩ := Option.isSome_iff_exists.1 found
  have number : k.s = o.s ∧ k.seq = o.seq := by simpa [findSend] using List.find?_some hit
  have replaced := find?_map_number (f := fun k => if k.s = p.s ∧ k.seq = p.seq then p else k) o.s o.seq (fun k => by
    split
    · next same => rw [← sub, ← seq, same.1, same.2]
    · rfl) s.chan.sends
  change (s.chan.sends.map _).find? _ = _
  rw [replaced]
  change (findSend s o.s o.seq).map _ = _
  rw [hit]
  exact congrArg some (if_pos (by rw [sub, seq]; exact number))

theorem findSend_delayOthers (s : State) (n : Nat) (o : SendOp) (sub : Nat) (seq : BitVec 48) :
    (findSend (delayOthers s n o) sub seq).isSome = (findSend s sub seq).isSome := by
  have kept := find?_map_number (f := fun k =>
    if (k.s ≠ o.s ∨ k.seq ≠ o.seq) ∧ eligibleFlit s n k = true then { k with delayed := satAdd k.delayed (windowNs s n) } else k)
    sub seq (fun k => by split <;> rfl) s.chan.sends
  change ((s.chan.sends.map _).find? _).isSome = _
  rw [kept, Option.isSome_map]
  rfl

theorem sendDataFlit_fcr (s : State) (n : Nat) (o : SendOp) : (sendDataFlit s n o).fcr = s.fcr := rfl
theorem sendDataFlit_quiesce (s : State) (n : Nat) (o : SendOp) : (sendDataFlit s n o).chan.quiesce = s.chan.quiesce := rfl

theorem sendDataFlit_sends (s : State) (n : Nat) (o : SendOp) :
    (sendDataFlit s n o).chan.sends.isEmpty = s.chan.sends.isEmpty := by
  change ((s.chan.sends.map _).map _).isEmpty = _
  rw [List.isEmpty_map, List.isEmpty_map]

theorem sendDataFlit_port (s : State) (n : Nat) (o : SendOp) : (sendDataFlit s n o).port n =
    { dataFlit (s.port n) (linkClass s o) (segOf (flitsOf o.length) o.left) with chosen := none } := State.port_setPort ..

/-- Where no SEND waits or is on the wire, none can have the window. -/
theorem eligibleFlit_of_idle {s : State} {n : Nat} {o : SendOp} (queued : o.st ≠ .queued) (wire : o.st ≠ .onWire) :
    eligibleFlit s n o = false := by
  simp [eligibleFlit, sendReady, queued, wire]

theorem findSend_mem {s : State} {sub : Nat} {seq : BitVec 48} {o : SendOp} (found : findSend s sub seq = some o) : o ∈ s.chan.sends :=
  List.mem_of_find?_eq_some found

theorem chosenSend_idle {s : State} {n : Nat} (idle : ∀ o ∈ s.chan.sends, o.st ≠ .queued ∧ o.st ≠ .onWire) : chosenSend s n = none := by
  unfold chosenSend
  split
  · rfl
  · split
    · rfl
    · next o found =>
      obtain ⟨queued, wire⟩ := idle o (findSend_mem found)
      rw [eligibleFlit_of_idle queued wire]
      rfl

theorem schedule_idle {s : State} {n : Nat} (idle : ∀ o ∈ s.chan.sends, o.st ≠ .queued ∧ o.st ≠ .onWire) : schedule s n = s := by
  have ready : s.chan.sends.filter (fun o => eligibleFlit s n o && (s.port n).mayData n (linkClass s o)) = [] := by
    refine List.filter_eq_nil_iff.2 fun o mem => ?_
    obtain ⟨queued, wire⟩ := idle o mem
    rw [eligibleFlit_of_idle queued wire]
    exact Bool.false_ne_true
  have second : secondTier s [] = none := by
    simp [secondTier, pickSmallest]
  unfold schedule
  dsimp only
  rw [ready, second]
  rfl

/-- A window of port n sends IDLE: the port drops a choice at most that no longer stands. -/
structure SendsIdle (s : State) (n : Nat) (t : State) (x : Port) : Prop where
  fcr : t.fcr = s.fcr
  chan : t.chan = s.chan
  mem : t.mem = s.mem
  txSeq : x.txSeq = (s.port n).txSeq
  replay : x.replay = (s.port n).replay

/-- A fabric port with nothing to send sends IDLE. -/
theorem fabricWindow_idle {s : State} {n : Nat} (rest : (s.port n).rest = 0) (out : (s.port n).out = [])
    (idle : ∀ o ∈ s.chan.sends, o.st ≠ .queued ∧ o.st ≠ .onWire) :
    ∃ t x, fabricWindow s n = t.setPort n (idleFlit x) ∧ SendsIdle s n t x := by
  have noAnswer := answerFlit_none n rest out
  have sends {t : State} (chan : t.chan = s.chan) (stands : scheduled s n = t) :
      fabricWindow s n = t.setPort n (idleFlit (t.port n)) := by
    unfold fabricWindow
    rw [noAnswer]
    dsimp only
    rw [stands, chosenSend_idle (s := t) (by rw [chan]; exact idle)]
  by_cases choose : (s.chan.en && (chosenSend s n).isNone) = true
  · let t := s.setPort n { s.port n with chosen := none }
    have stands : scheduled s n = t := (if_pos choose).trans (schedule_idle idle)
    have port : t.port n = { s.port n with chosen := none } := State.port_setPort ..
    exact ⟨t, t.port n, sends rfl stands, rfl, rfl, rfl, by rw [port], by rw [port]⟩
  · exact ⟨s, s.port n, sends rfl (if_neg choose), rfl, rfl, rfl, rfl, rfl⟩

/-! ## Records on port M -/

theorem mirrorFlit_records {x : Port} {m : MirRec} {l : List MirRec} (mir : x.mir = m :: l) (may : x.mayData 4 m.cls = true) :
    mirrorFlit x = { dataFlit x m.cls 0 with
      mir := (packRecords m.cls 384 x.mirPart (m :: l)).1, mirPart := (packRecords m.cls 384 x.mirPart (m :: l)).2 } := by
  unfold mirrorFlit
  rw [mir]
  exact if_pos may

theorem mirrorFlit_idle {x : Port} (mir : x.mir = []) : mirrorFlit x = idleFlit x := by rw [mirrorFlit, mir]

end Sys2Proof.Machine

namespace Sys2Proof.Proofs
open Sys2Proof.Machine

/-- Settles O52: a window by what the port holds, from the replay to IDLE. -/
theorem flitWindows : Obligations.FlitWindows := by
  unfold Obligations.FlitWindows
  refine ⟨?replay, ?control, ?answer, ?send, ?records, ?idle⟩
  case replay =>
    intro s n e l calm settled up replaying
    have run := exec_flitWindow settled up
    rw [window_replaying replaying] at run
    refine ⟨s.setPort n (sendFlit { s.port n with replaying := l } e), ?_⟩
    rw [State.port_setPort]
    exact ⟨_, run.trans (calm.act rfl rfl), rfl, rfl, rfl, rfl, rfl, rfl, rfl, rfl, rfl⟩
  case control =>
    intro s n m l calm settled up replaying ctl room
    have run := exec_flitWindow settled up
    rw [window_control replaying ctl room] at run
    refine ⟨s.setPort n (newFlit { s.port n with ctl := l } 2 0 0 (some m)), ?_⟩
    rw [State.port_setPort]
    exact ⟨_, run.trans (calm.act rfl rfl), rfl, rfl, rfl, rfl, rfl, rfl, List.length_append, rfl, rfl⟩
  case answer =>
    intro s n m l k fabric calm settled up replaying ctl rest out flits credit room
    obtain ⟨cur, answers⟩ := answerFlit_first rest out credit room
    have run := exec_flitWindow settled up
    rw [window_fabric fabric replaying ctl, fabricWindow, answers] at run
    rw [← flits] at run
    refine ⟨s.setPort n { dataFlit { s.port n with out := l, cur := some m, rest := k } m.shape.1 (segOf k k) with
      rest := k - 1, cur := cur }, ?_⟩
    rw [State.port_setPort]
    exact ⟨_, run.trans (calm.act rfl rfl), rfl, rfl, rfl, rfl, rfl, rfl, rfl, rfl, rfl, rfl⟩
  case send =>
    intro s n o fabric calm settled up replaying ctl rest out en chosen
    have run := exec_flitWindow settled up
    rw [window_fabric fabric replaying ctl, fabricWindow_send (answerFlit_none n rest out) en chosen] at run
    have found : (findSend (delayOthers s n o) o.s o.seq).isSome = true := by
      rw [findSend_delayOthers, chosenSend_found chosen]
      rfl
    have sent : findSend (sendDataFlit s n o) o.s o.seq = some { o with left := o.left - 1 } :=
      findSend_setSend (p := { o with left := o.left - 1 }) rfl rfl found
    have quietSent : quiet (sendDataFlit s n o) = true := by
      have still := calm.quiet
      unfold quiet chanQuiesced at still ⊢
      rwa [sendDataFlit_fcr, sendDataFlit_quiesce, sendDataFlit_sends]
    refine ⟨sendDataFlit s n o, ?_⟩
    rw [sent, sendDataFlit_port]
    exact ⟨_, run.trans (act_quiet s _ calm.live quietSent), rfl, rfl, rfl, rfl, rfl, rfl, rfl, rfl, rfl⟩
  case records =>
    intro s m l calm settled up replaying ctl copied mir may
    have run := exec_flitWindow (n := 4) settled up
    rw [show ((4 : Fin 5) : Nat) = 4 from rfl, window_mirror replaying ctl copied, mirrorFlit_records mir may] at run
    refine ⟨s.setPort 4 { dataFlit (s.port 4) m.cls 0 with mir := (packRecords m.cls 384 (s.port 4).mirPart (m :: l)).1
                                                           mirPart := (packRecords m.cls 384 (s.port 4).mirPart (m :: l)).2 }, ?_⟩
    rw [State.port_setPort]
    exact ⟨_, run.trans (calm.act rfl rfl), rfl, rfl, rfl, rfl, rfl, rfl, rfl⟩
  case idle =>
    intro s n calm settled up replaying ctl fabric mirror
    have run := exec_flitWindow settled up
    by_cases last : n = 4
    · subst last
      obtain ⟨copied, mir⟩ := mirror rfl
      rw [show ((4 : Fin 5) : Nat) = 4 from rfl, window_mirror replaying ctl copied, mirrorFlit_idle mir] at run
      refine ⟨s.setPort 4 (idleFlit (s.port 4)), ?_⟩
      rw [show ((4 : Fin 5) : Nat) = 4 from rfl, State.port_setPort]
      exact ⟨_, run.trans (calm.act rfl rfl), rfl, rfl, rfl, rfl, rfl⟩
    · have inside : n.val < 4 := by omega
      obtain ⟨rest, out, idle⟩ := fabric inside
      obtain ⟨t, x, sends, frame⟩ := fabricWindow_idle rest out idle
      rw [window_fabric inside replaying ctl, sends] at run
      refine ⟨t.setPort n (idleFlit x), ?_⟩
      rw [State.port_setPort]
      exact ⟨_, run.trans (calm.act frame.fcr frame.chan), rfl, rfl, frame.txSeq, frame.replay, frame.mem⟩
end Sys2Proof.Proofs
end

section
/-! PROOFS. The engines' jobs: submissions, chunks and units, and how alarms erase the key store. -/
namespace Sys2Proof.Machine

/-! ## Submissions -/

theorem reqInst_lt (s : State) (r : Req) : reqInst s r < 256 := by
  cases r with
  | ctx c => exact BitVec.isLt _
  | mgmt => simp [reqInst]
  | jtag => simp [reqInst]

theorem newAcc_now {s : State} {r : Req} {issued : Option Issue} (h : IssuedNow s r issued) (write : Bool) (off w : Nat) (v : Word) :
    newAcc s r issued write off w v = newAcc s r none write off w v := by
  obtain rfl | rfl := h
  · rfl
  · cases r with
    | ctx c => simp [newAcc, Nat.mod_eq_of_lt (reqInst_lt s _)]
    | mgmt => rfl
    | jtag => rfl

/-- A submission or doorbell issued now is a control write as any other. -/
theorem workCmd_now {s : State} {r : Req} {issued : Option Issue} (h : IssuedNow s r issued) (off : Nat) (v : Word) :
    workCmd s r off v issued = ctlCmd s r off v := by
  rw [workCmd, newAcc_now h]
  rfl

/-- One that was in flight when its work was reset is dropped (R319). -/
theorem workCmd_stale {s : State} {c : Fin 32} {off : Nat} {k : Issue} {g : Reg} (calm : Calm s) (issues : Issues s (.ctx c) off)
    (reg : regAt off = some g) (work : g.takesWork = true) (old : k.innings ≠ s.inningsOf k.inst.toNat) (v : Word) :
    workCmd s (.ctx c) off v (some k) = .next s := by
  have stale : (newAcc s (.ctx c) (some k) true off 8 v).stale s = true := by
    simp [CtlAcc.stale, newAcc, reg, work, old]
  have now : accWaits s (.ctx c) off = false := by simp [accWaits, issues.credit, issues.noneWait]
  have dropped : sendAcc s (newAcc s (.ctx c) (some k) true off 8 v) = s := by
    unfold sendAcc
    rw [show accWaits s (newAcc s (.ctx c) (some k) true off 8 v).req (newAcc s (.ctx c) (some k) true off 8 v).off = false from now,
      if_neg Bool.false_ne_true, performAcc, if_pos stale, flushCtl_none s issues.noneWait]
  rw [workCmd, dropped, calm.act rfl rfl]

/-! ### Compression -/

theorem zipJoin_queue (s : State) (n i : Nat) : ((zipJoin s n i).zip n).queue = (s.zip n).queue := by
  unfold zipJoin
  split
  · rfl
  · dsimp only
    split
    · rfl
    · rw [State.zip_setZip]

/-- Joining changes an engine's virtual times alone. -/
theorem zipJoin_eq (s : State) (n i : Nat) : ∃ z, zipJoin s n i = { s with zips := z } := by
  unfold zipJoin
  split
  · exact ⟨s.zips, rfl⟩
  · dsimp only
    split
    · exact ⟨s.zips, rfl⟩
    · exact ⟨_, rfl⟩

/-- The state that an accepted job leaves. -/
def zipQueued (s : State) (n i desc : Nat) : State :=
  let t := zipJoin s.drawn n i
  t.setZip n { t.zip n with queue := (t.zip n).queue ++ [newZJob s desc i] }

theorem zipQueued_queue (s : State) (n i desc : Nat) :
    ((zipQueued s n i desc).zip n).queue = (s.zip n).queue ++ [newZJob s desc i] := by
  rw [zipQueued, State.zip_setZip]
  dsimp only
  rw [zipJoin_queue]
  rfl

theorem zipQueued_eq (s : State) (n i desc : Nat) : ∃ z, zipQueued s n i desc = { s.drawn with zips := z } := by
  obtain ⟨z, e⟩ := zipJoin_eq s.drawn n i
  rw [zipQueued, e]
  exact ⟨_, rfl⟩

theorem zipSubmit_queued {s : State} {r : Req} {n off : Nat} {v : Word} (form : v &&& 0xFFF000000000003F#64 = 0)
    (room : (zipJobs s n (reqInst s r)).length < 16) (takes : s.refusesWork (reqInst s r) = false) :
    zipSubmit s r n v off = zipQueued s n (reqInst s r) v.toNat := by
  unfold zipSubmit
  rw [if_neg (not_not_intro form)]
  dsimp only
  rw [if_neg]
  · rfl
  · rintro (full | refuses)
    · exact absurd (show 16 ≤ (zipJobs s n (reqInst s r)).length from full) (Nat.not_le.mpr room)
    · exact Bool.false_ne_true (takes.symm.trans refuses)

/-! ### Ciphers -/

theorem cipherJoin_eq (s : State) (k i : Nat) : ∃ t, cipherJoin s k i = { s with ciph := { s.ciph with vt := t } } := by
  unfold cipherJoin
  split
  · exact ⟨s.ciph.vt, rfl⟩
  · dsimp only
    split
    · exact ⟨s.ciph.vt, rfl⟩
    · exact ⟨_, rfl⟩

/-- The state that an accepted job leaves. -/
def cipherQueued (s : State) (k i desc : Nat) : State :=
  let t := cipherJoin s.drawn k i
  setCipherQueue t k (cipherQueue t k ++ [newCJob s desc i])

theorem cipherQueue_set (s : State) (k : Nat) (l : List CJob) : cipherQueue (setCipherQueue s k l) k = l := by
  rw [cipherQueue, setCipherQueue, Tab.get_set_self]

theorem cipherQueued_queue (s : State) (k i desc : Nat) :
    cipherQueue (cipherQueued s k i desc) k = cipherQueue s k ++ [newCJob s desc i] := by
  obtain ⟨t, e⟩ := cipherJoin_eq s.drawn k i
  rw [cipherQueued, cipherQueue_set, e]
  rfl

theorem cipherQueued_eq (s : State) (k i desc : Nat) : ∃ x, cipherQueued s k i desc = { s.drawn with ciph := x } := by
  obtain ⟨t, e⟩ := cipherJoin_eq s.drawn k i
  rw [cipherQueued, e]
  exact ⟨_, rfl⟩

theorem cipherSubmit_queued {s : State} {r : Req} {k off : Nat} {v : Word} (form : v &&& 0xFFF000000000003F#64 = 0)
    (room : (cipherJobs s k (reqInst s r)).length < 16) (takes : s.refusesWork (reqInst s r) = false)
    (armed : inAlarm s = false) : cipherSubmit s r k v off = cipherQueued s k (reqInst s r) v.toNat := by
  have accepted : ((decide (16 ≤ (cipherJobs s.drawn k (reqInst s r)).length) || s.drawn.refusesWork (reqInst s r)) ||
      inAlarm s.drawn) = false := by
    rw [show s.drawn.refusesWork (reqInst s r) = false from takes, show inAlarm s.drawn = false from armed, Bool.or_false,
      Bool.or_false]
    exact decide_eq_false (Nat.not_le.mpr room)
  unfold cipherSubmit
  rw [if_neg (not_not_intro form)]
  dsimp only
  rw [accepted]
  rfl

/-! ## Alarms -/

theorem asideJobs_alarm : AsideJobs (·.ciph.alarm) := ⟨fun _ _ _ _ _ _ _ _ _ => rfl, fun _ _ _ _ => rfl, fun _ _ _ _ => rfl⟩
theorem asideJobs_erasing : AsideJobs (·.ciph.erasing) := ⟨fun _ _ _ _ _ _ _ _ _ => rfl, fun _ _ _ _ => rfl, fun _ _ _ _ => rfl⟩

/-- What an alarm leaves: its bit latched, the key store empty, the erasure under way. -/
structure Alarmed (j : Nat) (u : State) : Prop where
  slots : u.ciph.slots = []
  bit : bitOf u.ciph.alarm j = true
  erasing : u.ciph.erasing = true

/-- An enabled source that is not latched fires. -/
theorem alarmIfEnabled_fires {s : State} {j : Nat} (source : j < 8) (enabled : bitOf s.ciph.alarmen j = true)
    (idle : bitOf s.ciph.alarm j = false) : Alarmed j (alarmIfEnabled s j) := by
  rw [alarmIfEnabled, if_pos enabled, alarm, idle, if_neg Bool.false_ne_true]
  refine ⟨?_, ?_, ?_⟩
  · rw [asideJobs_slots.cipherStopAll, asideJobs_slots.aside.measure]
  · rw [asideJobs_alarm.cipherStopAll, asideJobs_alarm.aside.measure, bitOf_setBit _ _ _ source, if_pos rfl]
  · rw [asideJobs_erasing.cipherStopAll, asideJobs_erasing.aside.measure]

theorem exec_tamperAlarm {s : State} {n : Nat} (j : Fin 4) (powered : s.crp.vstby = true) (held : 2 ≤ n) :
    exec (.tamperAlarm j true n) s =
      .next (settle (alarmIfEnabled { s with ciph := { s.ciph with active := setBit s.ciph.active j true } } j)) := by
  change execTamperAlarm j true n s = _
  unfold execTamperAlarm
  rw [powered, if_neg (by simp; omega)]
  rfl

theorem exec_sensorAlarm_idle {s : State} {a : AlarmKind} (h : quiet s = true) (inside : alarmFires a = false) :
    exec (.sensorAlarm a) s = .next s := by
  change execSensorAlarm a s = _
  unfold execSensorAlarm
  rw [inside, Bool.not_false, Bool.or_true, if_pos rfl, done_quiet s h]

theorem alarmFires_of_outside {v low high : Int} (outside : v < low ∨ high < v) : (decide (v < low) || decide (high < v)) = true := by
  rwa [Bool.or_eq_true, decide_eq_true_iff, decide_eq_true_iff]

/-- What a comparator that finds its value beyond the limits does, by its kind (R306, R371). -/
def alarmEffect (s : State) : AlarmKind → State
  | .voltage _ _ => alarmIfEnabled s 4
  | .temperature _ v => if 125000 < v.toInt then thermalTrip (alarmIfEnabled s 5) else alarmIfEnabled s 5
  | .glitch _ => alarmIfEnabled s 6

theorem exec_sensorAlarm_fires {s : State} {a : AlarmKind} (powered : s.crp.vstby = true) (fires : alarmFires a = true) :
    exec (.sensorAlarm a) s = .next (settle (alarmEffect s a)) := by
  change execSensorAlarm a s = _
  unfold execSensorAlarm
  rw [powered, fires, Bool.not_true, Bool.or_self, if_neg Bool.false_ne_true]
  cases a <;> rfl

/-- The thermal trip holds a module that runs in an M reset. -/
theorem thermalTrip_crp (s : State) : (thermalTrip s).crp.thermTrip = true ∧
    (s.live = true → (thermalTrip s).crp.boot = .mReset ∧ (thermalTrip s).crp.cause = 3) := by
  unfold thermalTrip
  dsimp only
  split
  · refine ⟨?_, fun _ => ⟨rfl, rfl⟩⟩
    change (closeCards (loseDirty _)).crp.thermTrip = true
    rw [closeCards_crp, loseDirty_crp]
  · rename_i stopped
    refine ⟨rfl, fun live => absurd (Or.inl ?_) stopped⟩
    exact of_decide_eq_true live

/-! ### Clearing -/

/-- The bits that a write clears. -/
def alarmBits (s : State) (v : Word) (l : List Nat) (a : BitVec 8) : BitVec 8 :=
  l.foldl (fun a j => if bitOf v j && !alarmActive s j then setBit a j false else a) a

theorem bitOf_alarmBits (s : State) (v : Word) {l : List Nat} (h : ∀ j ∈ l, j < 8) (a : BitVec 8) (i : Nat) :
    bitOf (alarmBits s v l a) i = (bitOf a i && !(decide (i ∈ l) && (bitOf v i && !alarmActive s i))) := by
  induction l generalizing a with
  | nil => simp [alarmBits]
  | cons j l ih =>
    have tail := ih (fun k m => h k (List.mem_cons_of_mem _ m))
    rw [alarmBits, List.foldl_cons, ← alarmBits, tail]
    by_cases e : i = j
    · subst e
      by_cases c : (bitOf v i && !alarmActive s i) = true
      · simp [c, bitOf_setBit _ _ _ (h i List.mem_cons_self)]
      · simp [c]
    · split
      · simp [bitOf_setBit _ _ _ (h j List.mem_cons_self), e]
      · simp [e]

theorem alarmClear_eq (s : State) (v : Word) :
    alarmClear s v = { s with ciph := { s.ciph with alarm := alarmBits s v (List.range 8) s.ciph.alarm } } := by
  unfold alarmClear
  generalize List.range 8 = l
  suffices ∀ a, l.foldl (fun t j => if bitOf v j && !alarmActive t j then
      { t with ciph := { t.ciph with alarm := setBit t.ciph.alarm j false } } else t)
      { s with ciph := { s.ciph with alarm := a } } = { s with ciph := { s.ciph with alarm := alarmBits s v l a } } from
    this s.ciph.alarm
  induction l with
  | nil => exact fun a => rfl
  | cons j l ih =>
    intro a
    rw [List.foldl_cons, show alarmBits s v (j :: l) a =
      alarmBits s v l (if bitOf v j && !alarmActive s j then setBit a j false else a) from rfl]
    rw [show alarmActive { s with ciph := { s.ciph with alarm := a } } j = alarmActive s j from rfl]
    split
    · exact ih _
    · exact ih a

/-! ## What jobs write -/

theorem agentStoreFor_mem_current {s : State} {i : BitVec 8} {k : BitVec 12} {a : Nat} {l : List Byte}
    (current : s.inningsOf i.toNat = k) (inside : s.inMemory a l.length = true) :
    (agentStoreFor s i k a l).mem = Memory.writes s.mem a l := by
  rw [agentStoreFor, if_pos current, agentStore, agentStoreIn_mem, if_pos inside]

/-- A word that current work writes is read back. -/
theorem word_agentStoreFor {s : State} {i : BitVec 8} {k : BitVec 12} {a : Nat} (v : Nat) (canonical : MemoryCanonical s)
    (current : s.inningsOf i.toNat = k) (inside : s.inMemory a 8 = true) :
    Memory.word (agentStoreFor s i k a (leBytes 8 v)).mem a = w64 v := by
  have bytes := Memory.bytes_writes (leBytes 8 v) s.mem a canonical
  rw [leBytes_length] at bytes
  rw [agentStoreFor_mem_current current (by rwa [leBytes_length]), Memory.word, bytes, leNat_leBytes]
  exact BitVec.eq_of_toNat_eq (by simp [w64])

/-- The words of a descriptor lie in memory where it does. -/
theorem inMemory_within {s : State} {a n : Nat} (inside : s.inMemory a n = true) {b m : Nat} (within : b + m ≤ a + n) :
    s.inMemory b m = true :=
  decide_eq_true (le_trans within (of_decide_eq_true inside))

/-- Word 6 of a descriptor that a job of current work ends, after any other writes and reports. -/
theorem Reports.word {s t : State} (h : Reports s t) {i : BitVec 8} {k : BitVec 12} {desc : Nat} (v : Nat)
    (canonical : MemoryCanonical s) (current : s.inningsOf i.toNat = k) (inside : s.inMemory desc 64 = true) :
    Memory.word (agentStoreFor t i k (desc + 48) (leBytes 8 v)).mem (desc + 48) = w64 v :=
  word_agentStoreFor v (h.canonical canonical) ((h.inningsOf _).trans current)
    ((h.inMemory _ _).trans (inMemory_within inside (by omega)))

theorem asideJobs_chan : AsideJobs State.chan := ⟨fun _ _ _ _ _ _ _ _ _ => rfl, fun _ _ _ _ => rfl, fun _ _ _ _ => rfl⟩

theorem aside_zips : Aside State.zips := fun _ _ _ _ _ _ _ _ _ => rfl

theorem aside_ciph : Aside State.ciph := fun _ _ _ _ _ _ _ _ _ => rfl

/-! ## Endings of compression jobs -/

/-- A job is the same submission as another: its descriptor and its owner agree. -/
def sameZJob (j m : ZJob) : Bool := decide (m.desc = j.desc) && decide (m.inst = j.inst)

theorem aside_zip (n : Nat) : Aside (State.zip · n) := fun _ _ _ _ _ _ _ _ _ => rfl

theorem zipWriteEnd_zip (s : State) (j : ZJob) (status : Nat) (openB : Bool) (unverified inC outP n : Nat) :
    (zipWriteEnd s j status openB unverified inC outP).zip n = s.zip n := by
  unfold zipWriteEnd
  dsimp only
  rw [(aside_zip n).agentStoreFor, (aside_zip n).agentStoreFor]

/-- A job that ends leaves its engine's queue, and counts. -/
theorem zipEnd_zip (s : State) (n : Nat) (j : ZJob) (status : Nat) (openB : Bool) (unverified inC outP : Nat) :
    ((zipEnd s n j status openB unverified inC outP).zip n).queue = dropFirst (sameZJob j) (s.zip n).queue ∧
    ((zipEnd s n j status openB unverified inC outP).zip n).ended = (s.zip n).ended + 1 := by
  have before : (if j.signal then raiseFor (zipWriteEnd s j status openB unverified inC outP) (268 + n) j.inst.toNat j.innings
      else zipWriteEnd s j status openB unverified inC outP).zip n = s.zip n := by
    split
    · rw [(aside_zip n).raiseFor, zipWriteEnd_zip]
    · exact zipWriteEnd_zip ..
  unfold zipEnd
  dsimp only
  rw [State.zip_setZip, before]
  exact ⟨rfl, rfl⟩

theorem zipEnd_word {s t : State} (h : Reports s t) {n : Nat} {j : ZJob} (status : Nat) (openB : Bool) (unverified inC outP : Nat)
    (canonical : MemoryCanonical s) (current : s.inningsOf j.inst.toNat = j.innings) (inside : s.inMemory j.desc 64 = true) :
    Memory.word (zipEnd t n j status openB unverified inC outP).mem (j.desc + 48) =
      w64 (status + b2n openB * 256 + unverified * 2 ^ 32) := by
  have mem : (zipEnd t n j status openB unverified inC outP).mem = (zipWriteEnd t j status openB unverified inC outP).mem := by
    unfold zipEnd
    dsimp only
    rw [State.setZip_mem]
    split
    · exact raiseFor_mem ..
    · rfl
  rw [mem, zipWriteEnd]
  exact (h.trans (writes_agentStoreFor ..).toReports).word _ canonical current inside

/-! ### A context is saved first -/

theorem reports_saveCtx (s : State) (j : ZJob) : Reports s (saveCtx s j) :=
  ((Reports.of_same rfl rfl rfl rfl rfl rfl rfl : Reports s s.drawn).trans (writes_agentStoreFor ..).toReports).trans
    (.of_same rfl rfl rfl rfl rfl rfl rfl)

theorem saveCtx_keeps {α : Type} {g : State → α} (aside : Aside g) (zctx : ∀ s z, g { s with zctx := z } = g s) (s : State)
    (j : ZJob) : g (saveCtx s j) = g s := by
  unfold saveCtx
  dsimp only
  rw [zctx, aside.agentStoreFor, aside.drawn]

/-- The state in which a DECOMPRESS job at the end of its input ends: with FLUSH = 0 its context is saved first. -/
def beforeDone (s : State) (j : ZJob) : State := if j.flush then s else saveCtx s j

theorem beforeDone_keeps {α : Type} {g : State → α} (aside : Aside g) (zctx : ∀ s z, g { s with zctx := z } = g s) (s : State)
    (j : ZJob) : g (beforeDone s j) = g s := by
  unfold beforeDone
  split
  · rfl
  · exact saveCtx_keeps aside zctx s j

theorem reports_beforeDone (s : State) (j : ZJob) : Reports s (beforeDone s j) := by
  unfold beforeDone
  split
  · exact .refl s
  · exact reports_saveCtx s j

theorem inputDone_eq (s : State) (n : Nat) {j : ZJob} (decompress : j.compress = false) :
    inputDone s n j = zipEnd (beforeDone s j) n j 1 (!j.flush) j.earlier j.inPos j.outPos := by
  unfold inputDone beforeDone
  cases e : j.flush with
  | true => rw [if_pos rfl, if_pos rfl, zipEndShut, decompress]; rfl
  | false =>
    rw [if_neg Bool.false_ne_true, if_neg Bool.false_ne_true, zipEndOpen, decide_eq_true rfl, Bool.or_true]
    rfl

/-! ## A chunk of an engine -/

/-- The engine runs a job: its owner is noted. -/
def zipRuns (s : State) (n : Nat) (j : ZJob) : State := s.setZip n { s.zip n with running := some j.inst }

/-- An engine serves a chunk of the started job that it chooses. -/
theorem exec_zipChunk {s : State} {n : Fin 4} {i : Nat} {j : ZJob} (enabled : (s.zip n).en = true)
    (choose : zipChoose s n = some i) (next : nextZJob s n i = some j) (started : j.started = true) :
    exec (.zipChunk n false) s = act s (zipStep (zipRuns s n j) n j) := by
  change act s (if (s.zip n).en then zipServe s n false else s) = _
  rw [if_pos enabled, zipServe, choose]
  dsimp only
  rw [next]
  dsimp only
  rw [if_pos started]
  rfl

theorem zipStep_ends {s : State} {n : Nat} {j : ZJob} (decompress : j.compress = false) (shut : j.stream.openBlock = false)
    (all : j.inPos = j.srcLen) : zipStep s n j = zipEnd (beforeDone s j) n j 1 (!j.flush) j.earlier j.inPos j.outPos := by
  rw [zipStep, decompress, if_neg Bool.false_ne_true, decompressStep, shut, if_neg Bool.false_ne_true, if_pos all,
    inputDone_eq s n decompress]

theorem mem_of_nextZJob {s : State} {n i : Nat} {j : ZJob} (h : nextZJob s n i = some j) : j ∈ (s.zip n).queue := by
  unfold nextZJob at h
  split at h
  · cases h
  · rename_i m rest listed
    have found : m ∈ zipJobs s n i := listed ▸ List.mem_cons_self
    have named : m = j := by
      split at h
      · exact Option.some.inj h
      · split at h
        · cases h
        · exact Option.some.inj h
    exact named ▸ List.mem_of_mem_filter found

theorem mem_swapFirst {α : Type} {p : α → Bool} {a b : α} {l : List α} (listed : a ∈ l) (fits : p a = true) : b ∈ swapFirst p b l := by
  induction l with
  | nil => cases listed
  | cons c l ih =>
    rw [swapFirst]
    split
    · exact List.mem_cons_self
    · rename_i other
      obtain rfl | rest := List.mem_cons.mp listed
      · exact absurd fits other
      · exact List.mem_cons_of_mem _ (ih rest)

theorem dropFirst_swapFirst {α : Type} {p : α → Bool} {b : α} (fits : p b = true) (l : List α) :
    dropFirst p (swapFirst p b l) = dropFirst p l := by
  induction l with
  | nil => rfl
  | cons a l ih =>
    by_cases h : p a = true
    · simp [swapFirst, dropFirst, h, fits]
    · simp [swapFirst, dropFirst, h, ih]

/-! ### COMPRESS -/

/-- The job after a chunk: what it consumed, what it wrote, its stream. -/
def advanced (j : ZJob) (z : ZStream) (o : ZOut) (used : Nat) : ZJob :=
  { j with inPos := j.inPos + used, outPos := j.outPos + o.bytes.length, stream := { z with bits := o.pend, padTo := o.done % 8 } }

theorem charge_eq (s : State) (i key n : Nat) : ∃ x, charge s i key n = { s with insts := x } := by
  unfold charge
  split
  · exact ⟨s.insts, rfl⟩
  · exact ⟨_, rfl⟩

theorem zipCharge_queue (s : State) (n i bytes : Nat) : ((zipCharge s n i bytes).zip n).queue = (s.zip n).queue := by
  obtain ⟨x, e⟩ := charge_eq s i (1 + n) bytes
  unfold zipCharge
  dsimp only
  rw [State.zip_setZip, e]
  rfl

theorem zipCharge_eq (s : State) (n i bytes : Nat) : ∃ x z, zipCharge s n i bytes = { s with insts := x, zips := z } := by
  obtain ⟨x, e⟩ := charge_eq s i (1 + n) bytes
  unfold zipCharge
  rw [e]
  exact ⟨x, _, rfl⟩

/-- The output of a chunk, written. -/
def zipWritten (s : State) (j : ZJob) (o : ZOut) : State := agentStoreFor s j.inst j.innings (j.dst + j.outPos) o.bytes

theorem zipAdvance_queue (s : State) (n : Nat) (j : ZJob) (z : ZStream) (o : ZOut) (used : Nat) :
    ((zipAdvance s n j z o used).1.zip n).queue = swapFirst (sameZJob j) (advanced j z o used) (s.zip n).queue := by
  refine (zipCharge_queue _ n _ used).trans ?_
  rw [setZJob, State.zip_setZip, (aside_zip n).agentStoreFor]
  rfl

theorem zipAdvance_eq (s : State) (n : Nat) (j : ZJob) (z : ZStream) (o : ZOut) (used : Nat) :
    ∃ x y, (zipAdvance s n j z o used).1 = { zipWritten s j o with insts := x, zips := y } := by
  obtain ⟨x, y, e⟩ := zipCharge_eq (setZJob (zipWritten s j o) n (advanced j z o used)) n j.inst.toNat used
  exact ⟨x, y, e⟩

/-- A chunk of whole records in an open block: k records, whose bits follow what the block holds, give the output o, and
everything that it reads and writes lies in good memory (R280, R281, R285). -/
structure ChunkFits (s : State) (j : ZJob) (t : FmtTable) (k : Nat) (o : ZOut) : Prop where
  block : j.stream.openBlock = true
  whole : tabRlen t.bytes ≤ j.stream.partLen + (j.srcLen - j.inPos)
  records : tabRlen t.bytes ≠ 0
  room : j.stream.inLen + tabRlen t.bytes ≤ 65536
  count : k = chunkCount (tabRlen t.bytes) j.stream.inLen ((j.stream.partLen + (j.srcLen - j.inPos)) / tabRlen t.bytes)
  output : o = j.stream.out.bits (chunkBits t.bytes (j.stream.back1 s (tabRlen t.bytes)) (j.stream.back2 s (tabRlen t.bytes))
    ((List.range k).map fun m => (inputRec s j (tabRlen t.bytes) m).2))
  input : badRead s (j.src + j.inPos) (k * tabRlen t.bytes - j.stream.partLen) = false
  part : badRead s j.stream.partAddr j.stream.partLen = false
  back : j.stream.badBack s (tabRlen t.bytes) = false
  space : j.outPos + o.bytes.length ≤ j.dstLen

theorem compressStep_fits {s : State} {n : Nat} {j : ZJob} {t : FmtTable} {k : Nat} {o : ZOut} (h : ChunkFits s j t k o)
    (table : zipTable s n j.table = some t) : ∃ z, compressStep s n j =
      (zipAdvance s n j z o (k * tabRlen t.bytes - j.stream.partLen)).1 ∧ z.inLen = j.stream.inLen + k * tabRlen t.bytes := by
  obtain ⟨block, whole, records, room, rfl, rfl, input, part, back, space⟩ := h
  have some : (j.stream.partLen + (j.srcLen - j.inPos)) / tabRlen t.bytes ≠ 0 :=
    Nat.ne_of_gt (Nat.div_pos whole (Nat.pos_of_ne_zero records))
  have open' : (j.stream.openBlock && decide (65536 < j.stream.inLen + tabRlen t.bytes)) = false := by
    rw [decide_eq_false (Nat.not_lt.mpr room), Bool.and_false]
  unfold compressStep
  rw [table]
  dsimp only
  rw [if_pos some]
  unfold compressChunk
  dsimp only
  rw [open', if_neg Bool.false_ne_true]
  unfold openFor
  dsimp only
  rw [block, if_pos rfl]
  dsimp only
  rw [List.map_map]
  rw [input, part, back, Bool.or_self, Bool.or_self, if_neg Bool.false_ne_true]
  exact ⟨_, if_neg (Nat.not_lt.mpr space), rfl⟩

/-! ## A unit of a cluster -/

/-- A job is the same submission as another: its descriptor and its owner agree. -/
def sameCJob (j m : CJob) : Bool := decide (m.desc = j.desc) && decide (m.inst = j.inst)

theorem poisoned_of_none {s : State} (clean : s.caches.poison = []) (a n : Nat) : poisoned s a n = false :=
  List.any_eq_false.mpr fun ln _ => by simp [clean]

/-- A unit moves its job on. -/
theorem unitOutput_after (j : CJob) (l : List Byte) : ∃ acc, (unitOutput j l).2 = { j with pos := j.pos + l.length, acc := acc } := by
  unfold unitOutput
  dsimp only
  split
  · exact ⟨j.acc, rfl⟩
  · split
    · exact ⟨_, rfl⟩
    · exact ⟨j.acc, rfl⟩

/-- The next unit's output and the job after it. -/
def nextUnit (s : State) (j : CJob) : List Byte × CJob := unitOutput j (Memory.bytes s.mem (j.src + j.pos) (unitLen j))

theorem nextUnit_after (s : State) (j : CJob) :
    ∃ acc, (nextUnit s j).2 = { j with pos := j.pos + unitLen j, acc := acc } := by
  obtain ⟨acc, e⟩ := unitOutput_after j (Memory.bytes s.mem (j.src + j.pos) (unitLen j))
  rw [Memory.bytes_length] at e
  exact ⟨acc, e⟩

/-- The output of a unit, written. -/
def unitWritten (s : State) (j : CJob) : State := agentStoreFor s j.inst j.innings (j.dst + j.pos) (nextUnit s j).1

/-- The state after a unit: its output, its charge, the job as it goes on. -/
def unitServed (s : State) (k : Nat) (j : CJob) : State :=
  let t := charge (unitWritten s j) j.inst.toNat (5 + k) (unitLen j)
  let v := t.ciph.vt.get (cipherVt k j.inst.toNat) 0 + vtStep (unitLen j) (weightOf t j.inst.toNat 2)
  setCJob { t with ciph := { t.ciph with vt := t.ciph.vt.set (cipherVt k j.inst.toNat) v } } k (nextUnit s j).2

theorem cipherStep_eq {s : State} (clean : s.caches.poison = []) (k : Nat) (j : CJob) : cipherStep s k j =
    if (nextUnit s j).2.srcLen ≤ (nextUnit s j).2.pos then cipherFinish (unitServed s k j) k (nextUnit s j).2
    else unitServed s k j := by
  unfold cipherStep
  dsimp only
  rw [poisoned_of_none clean, if_neg Bool.false_ne_true]
  rfl

theorem unitServed_queue (s : State) (k : Nat) (j : CJob) :
    cipherQueue (unitServed s k j) k = swapFirst (sameCJob j) (nextUnit s j).2 (cipherQueue s k) := by
  obtain ⟨acc, e⟩ := nextUnit_after s j
  obtain ⟨x, c⟩ := charge_eq (unitWritten s j) j.inst.toNat (5 + k) (unitLen j)
  unfold unitServed
  dsimp only
  rw [setCJob, cipherQueue_set, c, e]
  unfold cipherQueue unitWritten
  dsimp only
  rw [aside_ciph.agentStoreFor]
  rfl

theorem unitServed_eq (s : State) (k : Nat) (j : CJob) :
    ∃ x y, unitServed s k j = { unitWritten s j with insts := x, ciph := y } := by
  obtain ⟨x, c⟩ := charge_eq (unitWritten s j) j.inst.toNat (5 + k) (unitLen j)
  unfold unitServed
  rw [c]
  exact ⟨x, _, rfl⟩

theorem charge_innings (s : State) (i key n m : Nat) : (charge s i key n).inningsOf m = s.inningsOf m := by
  unfold charge
  split
  · rfl
  · unfold setTokens State.inningsOf
    by_cases e : m = i
    · rw [e, State.inst_setInst]
    · rw [State.inst_setInst_other _ _ _ _ e]

/-- A unit leaves what the end of its job asks for: canonical memory, the innings, the layout. -/
theorem unitServed_canonical {s : State} (h : MemoryCanonical s) (k : Nat) (j : CJob) : MemoryCanonical (unitServed s k j) := by
  obtain ⟨x, y, e⟩ := unitServed_eq s k j
  rw [e]
  exact (writes_agentStoreFor ..).canonical h

theorem unitServed_innings (s : State) (k : Nat) (j : CJob) (i : Nat) : (unitServed s k j).inningsOf i = s.inningsOf i :=
  (charge_innings (unitWritten s j) j.inst.toNat (5 + k) (unitLen j) i).trans ((writes_agentStoreFor ..).toReports.inningsOf i)

theorem unitServed_inMemory (s : State) (k : Nat) (j : CJob) (a n : Nat) : (unitServed s k j).inMemory a n = s.inMemory a n := by
  obtain ⟨x, y, e⟩ := unitServed_eq s k j
  rw [e]
  exact (writes_agentStoreFor ..).toReports.inMemory a n

/-- A cluster serves a unit of the started job that it chooses. -/
theorem exec_cipherUnit {s : State} {k : Fin 2} {i : Nat} {j : CJob} {js : List CJob} (enabled : bitOf s.ciph.en k = true)
    (seeded : drbgUp s = true) (lanes : lanesLeft s k = true) (choose : cipherChoose s k = some i)
    (jobs : cipherJobs s k i = j :: js) (started : j.started = true) :
    exec (.cipherUnit k none) s = act s (cipherStep s k j) := by
  change act s (if bitOf s.ciph.en k && drbgUp s then cipherServe s k none else s) = _
  rw [enabled, seeded, Bool.and_self, if_pos rfl, cipherServe, choose]
  dsimp only
  rw [jobs]
  dsimp only
  rw [if_pos started, runUnit, if_pos lanes]

/-- A job's descriptor and event when it ends DONE. -/
def cipherReported (s : State) (k : Nat) (j : CJob) : State :=
  let t := cipherWriteEnd s j 1 (cipherOut j)
  if j.signal then raiseFor t (272 + k) j.inst.toNat j.innings else t

theorem cipherReported_ciph (s : State) (k : Nat) (j : CJob) : (cipherReported s k j).ciph = s.ciph := by
  have written : (cipherWriteEnd s j 1 (cipherOut j)).ciph = s.ciph := by
    unfold cipherWriteEnd
    dsimp only
    rw [aside_ciph.agentStoreFor, aside_ciph.agentStoreFor]
  unfold cipherReported
  dsimp only
  split
  · rw [aside_ciph.raiseFor, written]
  · exact written

theorem cipherReported_mem (s : State) (k : Nat) (j : CJob) :
    (cipherReported s k j).mem = (cipherWriteEnd s j 1 (cipherOut j)).mem := by
  unfold cipherReported
  dsimp only
  split
  · exact raiseFor_mem ..
  · rfl

/-- A job that ends DONE overwrites nothing of its output. -/
theorem cipherEnd_done (s : State) (k : Nat) (j : CJob) : cipherEnd s k j 1 = { cipherReported s k j with
    ciph := { (cipherReported s k j).ciph with
      queue := (cipherReported s k j).ciph.queue.set k (dropFirst (sameCJob j) (cipherQueue (cipherReported s k j) k)) } } := by
  have kept : decide ((1 : Nat) ≠ 1) = false := rfl
  unfold cipherEnd
  dsimp only
  rw [kept, Bool.and_false, Bool.and_false, if_neg Bool.false_ne_true, Bool.false_and, if_neg Bool.false_ne_true,
    if_neg Bool.false_ne_true]
  rfl

theorem cipherEnd_done_queue (s : State) (k : Nat) (j : CJob) :
    cipherQueue (cipherEnd s k j 1) k = dropFirst (sameCJob j) (cipherQueue s k) := by
  rw [cipherEnd_done]
  change ((cipherReported s k j).ciph.queue.set k _).get k [] = _
  rw [Tab.get_set_self, cipherQueue, cipherReported_ciph]
  rfl

theorem cipherEnd_done_word {s : State} (k : Nat) {j : CJob} (canonical : MemoryCanonical s)
    (current : s.inningsOf j.inst.toNat = j.innings) (inside : s.inMemory j.desc 64 = true) :
    Memory.word (cipherEnd s k j 1).mem (j.desc + 48) = 1 := by
  have mem : (cipherEnd s k j 1).mem = (cipherWriteEnd s j 1 (cipherOut j)).mem := by
    rw [cipherEnd_done]
    exact cipherReported_mem s k j
  rw [mem, cipherWriteEnd]
  exact (writes_agentStoreFor ..).toReports.word _ canonical current inside

/-- The last unit of an XTS job ends it DONE (R301, R303). -/
theorem cipherStep_last {s : State} (clean : s.caches.poison = []) (k : Nat) {j : CJob} (mode : j.mode ≤ 2)
    (last : j.srcLen ≤ j.pos + unitLen j) : cipherStep s k j = cipherEnd (unitServed s k j) k (nextUnit s j).2 1 := by
  obtain ⟨acc, e⟩ := nextUnit_after s j
  rw [cipherStep_eq clean, if_pos (by rw [e]; exact last), cipherFinish, if_pos (by rw [e]; exact mode)]

/-- Any unit before the last leaves its job in the queue. -/
theorem cipherStep_more {s : State} (clean : s.caches.poison = []) (k : Nat) {j : CJob}
    (more : j.pos + unitLen j < j.srcLen) : cipherStep s k j = unitServed s k j := by
  obtain ⟨acc, e⟩ := nextUnit_after s j
  rw [cipherStep_eq clean, if_neg (by rw [e]; exact Nat.not_le.mpr more)]

end Sys2Proof.Machine

namespace Sys2Proof.Proofs
open Sys2Proof.Machine

/-- Settles O56: submissions join the queue, a chunk or a unit writes its output and moves its job on, the last one ends it,
and an alarm empties the key store. -/
theorem enginesAndKeys : Obligations.EnginesAndKeys := by
  unfold Obligations.EnginesAndKeys
  refine ⟨?zipSubmit, ?zipChunk, ?zipDone, ?zipStale, ?cipherStale, ?cipherSubmit, ?cipherUnit, ?cipherDone, ?tamper, ?voltage,
    ?cold, ?hot, ?glitch, ?idle, ?erased, ?clear⟩
  case zipSubmit =>
    intro s r n v issued h now form room takes
    obtain ⟨z, e⟩ := zipQueued_eq s n (reqInst s r) v.toNat
    have leaves : exec (.zipSubmit r n v issued) s = .next (zipQueued s n (reqInst s r) v.toNat) :=
      (workCmd_now now _ v).trans (ctlCmd_leaves h (zipSubmit_queued form room takes) (by rw [e]; rfl) (by rw [e]; rfl)
        (by rw [e]; rfl) rfl rfl)
    exact ⟨_, newZJob s v.toNat (reqInst s r), leaves, zipQueued_queue .., rfl, rfl, rfl, rfl, by rw [e]; rfl⟩
  case zipChunk =>
    intro s n i j t k o recs calm canonical enabled choose next started compress table block whole records room count chosen
      output input part back space inside current
    subst chosen
    have fits : ChunkFits (zipRuns s n j) j t k o := ⟨block, whole, records, room, count, output, input, part, back, space⟩
    have same : zipTable (zipRuns s n j) n j.table = some t := by
      rw [zipTable, zipRuns, State.zip_setZip]
      exact table
    obtain ⟨z, step, length⟩ := compressStep_fits fits same
    obtain ⟨x, y, e⟩ := zipAdvance_eq (zipRuns s n j) n j z o (k * tabRlen t.bytes - j.stream.partLen)
    have written : (zipWritten (zipRuns s n j) j o).mem = Memory.writes s.mem (j.dst + j.outPos) o.bytes :=
      agentStoreFor_mem_current current inside
    have fcr : (zipWritten (zipRuns s n j) j o).fcr = s.fcr := asideJobs_fcr.aside.agentStoreFor ..
    have chan : (zipWritten (zipRuns s n j) j o).chan = s.chan := asideJobs_chan.aside.agentStoreFor ..
    refine ⟨(zipAdvance (zipRuns s n j) n j z o (k * tabRlen t.bytes - j.stream.partLen)).1, advanced j z o _, ?_, ?_, rfl, rfl,
      rfl, length, ?_, fun a out => ?_⟩
    · rw [exec_zipChunk enabled choose next started, zipStep, compress, if_pos rfl, step,
        calm.act (by rw [e]; exact fcr) (by rw [e]; exact chan)]
    · rw [zipAdvance_queue, zipRuns, State.zip_setZip]
      exact mem_swapFirst (mem_of_nextZJob next) (by simp [sameZJob])
    · rw [e, written]
      exact Memory.bytes_writes _ _ _ canonical
    · rw [e, written]
      exact Memory.read_writes_other _ _ _ _ out
  case zipDone =>
    intro s n i j calm canonical enabled choose next started decompress shut all inside current
    have reports : Reports s (beforeDone (zipRuns s n j) j) :=
      (Reports.of_same rfl rfl rfl rfl rfl rfl rfl : Reports s (zipRuns s n j)).trans (reports_beforeDone ..)
    have zip : ((beforeDone (zipRuns s n j) j).zip n) = { s.zip n with running := some j.inst } := by
      rw [beforeDone_keeps (aside_zip n) fun _ _ => rfl, zipRuns, State.zip_setZip]
    obtain ⟨queue, ended⟩ := zipEnd_zip (beforeDone (zipRuns s n j) j) n j 1 (!j.flush) j.earlier j.inPos j.outPos
    rw [zip] at queue ended
    refine ⟨_, ?_, queue, ended, ?_⟩
    · rw [exec_zipChunk enabled choose next started, zipStep_ends decompress shut all, calm.act]
      · rw [asideJobs_fcr.zipEnd, beforeDone_keeps asideJobs_fcr.aside fun _ _ => rfl]
        rfl
      · rw [asideJobs_chan.zipEnd, beforeDone_keeps asideJobs_chan.aside fun _ _ => rfl]
        rfl
    · exact zipEnd_word reports 1 _ _ _ _ canonical current inside
  case zipStale =>
    intro s c n v k calm issues old
    exact workCmd_stale (g := .zipSubmit n) calm issues (by fin_cases n <;> rfl) rfl old v
  case cipherStale =>
    intro s c n v k calm issues old
    exact workCmd_stale (g := .ciphSubmit n) calm issues (by fin_cases n <;> rfl) rfl old v
  case cipherSubmit =>
    intro s r k v issued h now form room takes armed
    obtain ⟨x, e⟩ := cipherQueued_eq s k (reqInst s r) v.toNat
    have leaves : exec (.ciphSubmit r k v issued) s = .next (cipherQueued s k (reqInst s r) v.toNat) :=
      (workCmd_now now _ v).trans (ctlCmd_leaves h (cipherSubmit_queued form room takes armed) (by rw [e]; rfl) (by rw [e]; rfl)
        (by rw [e]; rfl) rfl rfl)
    exact ⟨_, newCJob s v.toNat (reqInst s r), leaves, cipherQueued_queue .., rfl, rfl, rfl, by rw [e]; rfl⟩
  case cipherUnit =>
    intro s k i j js calm canonical enabled seeded lanes choose jobs started mode clean more current length inside
    obtain ⟨x, y, e⟩ := unitServed_eq s k j
    obtain ⟨acc, after⟩ := nextUnit_after s j
    have written : (unitWritten s j).mem = Memory.writes s.mem (j.dst + j.pos) (nextUnit s j).1 :=
      agentStoreFor_mem_current current (by rwa [nextUnit, length])
    have listed : j ∈ cipherQueue s k := List.mem_of_mem_filter (jobs ▸ List.mem_cons_self : j ∈ cipherJobs s k i)
    refine ⟨unitServed s k j, (nextUnit s j).2, ?_, ?_, by rw [after], by rw [after], ?_, fun a out => ?_⟩
    · rw [exec_cipherUnit enabled seeded lanes choose jobs started, cipherStep_more clean k more, e]
      exact calm.act (asideJobs_fcr.aside.agentStoreFor ..) (asideJobs_chan.aside.agentStoreFor ..)
    · rw [unitServed_queue]
      exact mem_swapFirst listed (by simp [sameCJob])
    · rw [e, written]
      have bytes := Memory.bytes_writes (nextUnit s j).1 s.mem (j.dst + j.pos) canonical
      rwa [nextUnit, length] at bytes
    · rw [e, written]
      exact Memory.read_writes_other _ _ _ _ (by rwa [nextUnit, length])
  case cipherDone =>
    intro s k i j js calm canonical enabled seeded lanes choose jobs started mode clean last current inside
    obtain ⟨acc, after⟩ := nextUnit_after s j
    refine ⟨cipherEnd (unitServed s k j) k (nextUnit s j).2 1, ?_, ?_, ?_⟩
    · obtain ⟨x, y, e⟩ := unitServed_eq s k j
      rw [exec_cipherUnit enabled seeded lanes choose jobs started, cipherStep_last clean k mode last, calm.act]
      · rw [asideJobs_fcr.cipherEnd, e]
        exact asideJobs_fcr.aside.agentStoreFor ..
      · rw [asideJobs_chan.cipherEnd, e]
        exact asideJobs_chan.aside.agentStoreFor ..
    · rw [cipherEnd_done_queue, unitServed_queue, after]
      exact dropFirst_swapFirst (by simp [sameCJob]) _
    · have word := cipherEnd_done_word k (j := (nextUnit s j).2) (unitServed_canonical canonical k j)
        (by rw [after, unitServed_innings]; exact current) (by rw [after, unitServed_inMemory]; exact inside)
      rwa [after] at word ⊢
  case tamper =>
    intro s j n powered held enabled idle
    obtain ⟨slots, bit, erasing⟩ := alarmIfEnabled_fires
      (s := { s with ciph := { s.ciph with active := setBit s.ciph.active j true } }) (j := j) (by omega) enabled idle
    exact ⟨_, exec_tamperAlarm j powered held, slots, bit, erasing⟩
  case voltage =>
    intro s k v powered outside enabled idle
    obtain ⟨slots, bit, erasing⟩ := alarmIfEnabled_fires (by decide) enabled idle
    exact ⟨_, exec_sensorAlarm_fires powered (alarmFires_of_outside outside), slots, bit⟩
  case cold =>
    intro s k v powered outside enabled idle
    obtain ⟨slots, bit, erasing⟩ := alarmIfEnabled_fires (by decide) enabled idle
    have mild : alarmEffect s (.temperature k v) = alarmIfEnabled s 5 := if_neg (by omega)
    exact ⟨_, mild ▸ exec_sensorAlarm_fires powered (by simp [alarmFires, outside]), slots, bit⟩
  case hot =>
    intro s k v powered outside
    have trips : alarmEffect s (.temperature k v) = thermalTrip (alarmIfEnabled s 5) := if_pos outside
    obtain ⟨trip, resets⟩ := thermalTrip_crp (alarmIfEnabled s 5)
    refine ⟨_, trips ▸ exec_sensorAlarm_fires powered (by simp [alarmFires, outside]), trip, fun live => resets ?_⟩
    rw [State.live, alarmIfEnabled_crp]
    exact live
  case glitch =>
    intro s v powered outside enabled idle
    obtain ⟨slots, bit, erasing⟩ := alarmIfEnabled_fires (by decide) enabled idle
    exact ⟨_, exec_sensorAlarm_fires powered (alarmFires_of_outside outside), slots, bit⟩
  case idle => exact fun s a h inside => exec_sensorAlarm_idle h inside
  case erased =>
    intro s calm erasing
    change act s (if s.ciph.erasing then raise { s with ciph := { s.ciph with erasing := false } } 274 else s) = _
    rw [if_pos erasing]
    exact calm.act (raise_fcr ..) (raise_chan ..)
  case clear =>
    intro s r v h
    refine ⟨_, ctlCmd_leaves h (alarmClear_eq s v) rfl rfl rfl rfl rfl, fun j small => ?_⟩
    rw [bitOf_alarmBits s v (fun k m => List.mem_range.mp m), decide_eq_true (List.mem_range.mpr small), Bool.true_and]

end Sys2Proof.Proofs
end

section
/-! PROOFS. The records of the duplex pair: how a backup applies them, what waits for the applied count, checkpoints. -/
namespace Sys2Proof.Machine

/-! ## Records at the backup -/

/-- Applying a record's bytes writes memory, and beside it touches the caches alone. -/
theorem applyBytes_eq (s : State) (a : Nat) (l : List Byte) :
    ∃ k n, applyBytes s a l = { s with mem := Memory.writes s.mem a l, caches := k, free := n } := by
  obtain ⟨k, n, drained⟩ := cachesOnly_drainLines s a l.length
  have inserts (t : State) (ln : Nat) : CachesOnly t (l3Insert (dropOthers t 99 ln) ln 0 true) :=
    (cachesOnly_setCaches t _).trans (cachesOnly_l3Insert _ ln 0 true)
  obtain ⟨k', n', rest⟩ := (cachesOnly_unpoison { drainLines s a l.length with mem := Memory.writes s.mem a l } a l.length).trans
    (.foldl inserts (linesOf a l.length) _)
  refine ⟨k', n', rest.trans ?_⟩
  rw [drained]

theorem applyBytes_mem (s : State) (a : Nat) (l : List Byte) : (applyBytes s a l).mem = Memory.writes s.mem a l := by
  obtain ⟨k, n, e⟩ := applyBytes_eq s a l
  rw [e]

/-- The sectors whose bit is clear change nothing. -/
theorem applySectors_filter (mask : BitVec 8) (line : Nat) (l : List Nat) (data : List Byte) (s : State) :
    applySectors mask line l data s = applySectors mask line (l.filter (bitOf mask)) data s := by
  induction l generalizing data s with
  | nil => rfl
  | cons j l ih =>
    cases set : bitOf mask j with
    | false =>
      rw [applySectors, set, if_neg Bool.false_ne_true, List.filter_cons_of_neg (by rw [set]; exact Bool.false_ne_true)]
      exact ih data s
    | true =>
      rw [applySectors, List.filter_cons_of_pos set, applySectors, set, if_pos rfl, if_pos rfl]
      exact ih _ _

theorem sector_alone (j : Fin 8) : (List.range 8).filter (bitOf (BitVec.ofNat 8 (2 ^ j.val))) = [j.val] := by
  revert j
  decide

theorem applySectors_one (j : Fin 8) (line : Nat) (data : List Byte) (s : State) :
    applySectors (BitVec.ofNat 8 (2 ^ j.val)) line (List.range 8) data s = applyBytes s (line * 128 + 16 * j.val) (data.take 16) := by
  have set : bitOf (BitVec.ofNat 8 (2 ^ j.val)) j.val = true := by
    have listed : j.val ∈ (List.range 8).filter (bitOf (BitVec.ofNat 8 (2 ^ j.val))) := sector_alone j ▸ List.mem_singleton_self _
    exact (List.mem_filter.mp listed).2
  rw [applySectors_filter, sector_alone, applySectors, set, if_pos rfl]
  rfl

/-- Counting a record may send the count, and changes nothing else. -/
theorem countApplied_eq (s : State) :
    ∃ p, countApplied s = { s with ports := p, dup := { s.dup with appliedHere := s.dup.appliedHere + 1 } } := by
  unfold countApplied
  dsimp only
  split
  · obtain ⟨p, e⟩ := queueCtl_eq { s with dup := { s.dup with appliedHere := s.dup.appliedHere + 1 } } 4
      (.applied (s.dup.appliedHere + 1))
    exact ⟨p, e⟩
  · exact ⟨s.ports, rfl⟩

theorem uncommit_eq (s : State) (line : Nat) : ∃ l, uncommit s line = { s with dup := { s.dup with commits := l } } := by
  unfold uncommit
  dsimp only
  split
  · exact ⟨s.dup.commits, rfl⟩
  · exact ⟨_, rfl⟩

theorem sectors_all : sectors 0xFF#8 = 8 := by decide

theorem sectors_one (j : Fin 8) : sectors (BitVec.ofNat 8 (2 ^ j.val)) = 1 := by rw [sectors, sector_alone]; rfl

/-- A WRITE record of the right length is applied, or dropped where its line lies in no memory. -/
theorem exec_mirrorWrite {s : State} {line : Line} {mask : BitVec 8} {data : List Byte} (backup : applies s = true)
    (size : data.length = 16 * sectors mask) : exec (.mirrorWrite line mask data 1) s = act s (applyWrite s line mask data) := by
  change execMirrorWrite line mask data s 1 = _
  unfold execMirrorWrite
  rw [if_neg (by decide), if_neg (by decide), if_pos size, if_pos backup]

theorem applyWrite_whole {s : State} {line : Nat} (inside : s.inMemory (line * 128) 128 = true) (data : List Byte) :
    applyWrite s line 0xFF#8 data = countApplied (applyBytes (uncommit s line) (line * 128) data) := by
  rw [applyWrite, if_pos inside]
  rfl

theorem applyWrite_sector {s : State} {line : Nat} (inside : s.inMemory (line * 128) 128 = true) (j : Fin 8) {data : List Byte}
    (size : data.length = 16) : applyWrite s line (BitVec.ofNat 8 (2 ^ j.val)) data =
      countApplied (applyBytes (uncommit s line) (line * 128 + 16 * j.val) data) := by
  have part : BitVec.ofNat 8 (2 ^ j.val) ≠ 0xFF#8 := by
    revert j
    decide
  rw [applyWrite, if_pos inside]
  dsimp only
  rw [if_neg part, applySectors_one, List.take_of_length_le (le_of_eq size)]

/-- A record that only notes something counts, and leaves the rest to what it notes. -/
theorem counted_act {s t : State} (calm : Calm s) (fcr : t.fcr = s.fcr) (chan : t.chan = s.chan) :
    act s (countApplied t) = .next (countApplied t) := by
  obtain ⟨p, e⟩ := countApplied_eq t
  rw [e]
  exact calm.act fcr chan

/-- A record that is applied writes its bytes and no other, and counts. -/
theorem applied_act {s : State} (calm : Calm s) (canonical : MemoryCanonical s) (line a : Nat) (data : List Byte) :
    ∃ u, act s (countApplied (applyBytes (uncommit s line) a data)) = .next u ∧ Memory.bytes u.mem a data.length = data ∧
      (∀ x, (x < a ∨ a + data.length ≤ x) → Memory.read u.mem x = Memory.read s.mem x) ∧
      u.dup.appliedHere = s.dup.appliedHere + 1 := by
  obtain ⟨l, before⟩ := uncommit_eq s line
  obtain ⟨k, n, wrote⟩ := applyBytes_eq (uncommit s line) a data
  obtain ⟨p, counted⟩ := countApplied_eq (applyBytes (uncommit s line) a data)
  have mem : (countApplied (applyBytes (uncommit s line) a data)).mem = Memory.writes s.mem a data := by
    rw [countApplied_mem, applyBytes_mem, uncommit_mem]
  refine ⟨countApplied (applyBytes (uncommit s line) a data), ?_, ?_, fun x out => ?_, ?_⟩
  · exact counted_act calm (by rw [wrote, before]) (by rw [wrote, before])
  · rw [mem]
    exact Memory.bytes_writes data s.mem a canonical
  · rw [mem]
    exact Memory.read_writes_other data s.mem a x out
  · rw [counted, wrote, before]

theorem exec_mirrorWrite_reserved {s : State} {k : BitVec 4} (line : Line) (mask : BitVec 8) (data : List Byte)
    (backup : applies s = true) (one : k ≠ 1) (two : k ≠ 2) (three : k ≠ 3) :
    exec (.mirrorWrite line mask data k) s = act s (dropRecord s) := by
  change execMirrorWrite line mask data s k = _
  unfold execMirrorWrite
  rw [if_neg (not_or.mpr ⟨two, three⟩), if_pos one, if_pos backup]

/-- A commit record is noted once. -/
def committed (s : State) (e : Commit) : State :=
  { s with dup := { s.dup with commits := e :: s.dup.commits.filter fun k => decide (k ≠ e) } }

/-! ## The applied count -/

/-- Reads whose records are applied are answered; those that go on waiting ask for more. -/
theorem syncServe_dup (s : State) : (syncServe s).dup.partnerApplied = s.dup.partnerApplied ∧
    ∀ w ∈ (syncServe s).dup.syncWaiters, s.dup.partnerApplied < w.2 := by
  unfold syncServe
  dsimp only
  split
  · rename_i none
    refine ⟨rfl, fun w listed => Nat.lt_of_not_le fun due => ?_⟩
    exact List.not_mem_nil (none ▸ List.mem_filter.mpr ⟨listed, decide_eq_true due⟩)
  · exact ⟨rfl, fun w listed => of_decide_eq_true (List.mem_filter.mp listed).2⟩

/-- The JTAG port does not reach DUPX_SYNC. -/
theorem dupxSync_ne_jtag {s : State} {r : Req} {write : Bool} {off : Nat} (h : ctlCheck s r write off 8 = .ok .dupxSync) :
    r ≠ .jtag := by
  rintro rfl
  obtain ⟨-, allowed⟩ := ctlCheck_passes h
  simp [permitted, Reg.isAud, Reg.isDbg] at allowed

theorem exec_dupxSyncRead {s : State} {r : Req} (issues : Issues s r 0x8000010) :
    exec (.dupxSyncRead r) s = act s (flushCtl (readNow s r 0x8000010 8)) := by
  change act s (access s r false 0x8000010 8 0) = _
  rw [access_read s r _ _ issues]

/-- A read of DUPX_SYNC waits while the partner has not applied every record sent. -/
theorem readWaits_dupxSync (s : State) (r : Req) : readWaits s r .dupxSync =
    (mirroring s && !partnerGone s && decide (s.dup.partnerApplied < s.dup.sent)) := Bool.false_or _

theorem readNow_dupxSync {s : State} {r : Req} (passes : ctlCheck s r false 0x8000010 8 = .ok .dupxSync)
    (applied : mirroring s = false ∨ s.dup.sent ≤ s.dup.partnerApplied) (there : partnerGone s = false) :
    readNow s r 0x8000010 8 = { s with bus := { s.bus with cpl := .data (appliedCount s) } } := by
  have due : readWaits s r .dupxSync = false := by
    rw [readWaits_dupxSync]
    obtain idle | all := applied
    · rw [idle, Bool.false_and, Bool.false_and]
    · rw [decide_eq_false (Nat.not_lt.mpr all), Bool.and_false]
  have value : regVal s r .dupxSync = appliedCount s := by
    change (if partnerGone s then _ else _) = _
    rw [there, if_neg Bool.false_ne_true]
  have read : ctlRead s r 0x8000010 8 = some (s, appliedCount s) := by
    unfold ctlRead
    rw [passes]
    dsimp only
    rw [due, if_neg Bool.false_ne_true]
    change some (s, bytesOfReg (regVal s r .dupxSync) 0 8) = _
    rw [value, bytesOfReg_whole]
  rw [readNow, read]
  exact readDone_of_ne_jtag s _ (dupxSync_ne_jtag passes)

theorem readNow_dupxSync_waits {s : State} {r : Req} (passes : ctlCheck s r false 0x8000010 8 = .ok .dupxSync)
    (mirrors : mirroring s = true) (there : partnerGone s = false) (behind : s.dup.partnerApplied < s.dup.sent) :
    readNow s r 0x8000010 8 =
      askCount { s with dup := { s.dup with syncWaiters := s.dup.syncWaiters ++ [(r, s.dup.sent)] } } := by
  have waits : readWaits s r .dupxSync = true := by
    rw [readWaits_dupxSync, mirrors, there, decide_eq_true behind]
    rfl
  have read : ctlRead s r 0x8000010 8 = none := by
    unfold ctlRead
    rw [passes]
    dsimp only
    rw [waits, if_pos rfl]
  rw [readNow, read]
  rfl

theorem askCount_eq (s : State) : ∃ p, askCount s = { s with ports := p } := by
  unfold askCount
  dsimp only
  split
  · exact ⟨s.ports, rfl⟩
  · exact queueCtl_eq s 4 _

/-! ## Checkpoints -/

theorem wordsBytes_length (l : List Word) : (wordsBytes l).length = 8 * l.length := by
  induction l with
  | nil => rfl
  | cons w l ih =>
    rw [wordsBytes, List.flatMap_cons, List.length_append, leBytes_length, ← wordsBytes, ih, List.length_cons]
    omega

/-- Records of a module that mirrors are queued and counted. -/
theorem sendRecords_mirrors {s : State} (mirrors : mirroring s = true) {l : List MirRec} (some : l ≠ []) :
    ∃ p, sendRecords s l = { s with ports := p, dup := { s.dup with sent := s.dup.sent + l.length } } := by
  have sends : (mirroring s && !l.isEmpty) = true := by
    rw [mirrors, List.isEmpty_eq_false_iff.mpr some]
    rfl
  rw [sendRecords, if_pos sends]
  exact ⟨_, rfl⟩

/-- The sequence number of a context's next checkpoint, and the slot that it writes. -/
def nextSeq (s : State) (c : Nat) : Nat := s.dup.ckptSeq.get c 0 + 1
def nextSlot (s : State) (c : Nat) : Bool := decide (nextSeq s c % 2 = 1)

theorem ckptWords_length (s : State) (c seq : Nat) : (ckptWords s c seq).length = 32 := rfl

theorem slotAddr_inside {s : State} {c : Nat} (inside : s.inMemory (slotAddr s c false) 512 = true) (b : Bool) :
    s.inMemory (slotAddr s c b) 256 = true :=
  inMemory_within inside (by cases b <;> simp [slotAddr, b2n])

theorem exec_checkpoint {s : State} {c : Fin 32} {b : Bool} (primary : s.dup.st = .primary) (masked : bitOf s.dup.ckptMask c = true)
    (period : s.dup.ckptMs ≠ 0) : exec (.checkpoint c b) s =
      act s (if !ckptReady s c b then { s with dup := { s.dup with skipped := satInc s.dup.skipped } } else checkpointWrite s c) := by
  change execCheckpoint c b s = _
  unfold execCheckpoint
  rw [if_neg]
  · split <;> rfl
  · rintro (other | unmasked | stopped)
    · exact other primary
    · exact Bool.false_ne_true (unmasked.symm.trans masked)
    · exact period stopped

/-- A checkpoint of a primary: its slot is written, four records go out. -/
theorem checkpointWrite_eq {s : State} {c : Nat} (primary : s.dup.st = .primary)
    (inside : s.inMemory (slotAddr s c (nextSlot s c)) 256 = true) : ∃ k n p, checkpointWrite s c = { s with
      mem := Memory.writes s.mem (slotAddr s c (nextSlot s c)) (wordsBytes (ckptWords s c (nextSeq s c)))
      caches := k, free := n, ports := p
      dup := { s.dup with sent := s.dup.sent + 4, ckptSeq := s.dup.ckptSeq.set c (nextSeq s c) } } := by
  obtain ⟨k, n, wrote⟩ := applyBytes_eq s (slotAddr s c (nextSlot s c)) (wordsBytes (ckptWords s c (nextSeq s c)))
  have mirrors (m : List Host.Cell) : mirroring { s with mem := m, caches := k, free := n } = true := by
    simp [mirroring, primary]
  unfold nextSlot nextSeq at inside wrote ⊢
  unfold checkpointWrite
  dsimp only
  rw [if_pos inside, wrote]
  generalize wordsBytes (ckptWords s c (s.dup.ckptSeq.get c 0 + 1)) = l
  generalize slotAddr s c (decide ((s.dup.ckptSeq.get c 0 + 1) % 2 = 1)) = a
  generalize s.dup.ckptSeq.get c 0 + 1 = seq
  obtain ⟨p, sent⟩ := sendRecords_mirrors (mirrors _) (List.cons_ne_nil _ _)
  rw [sent]
  exact ⟨k, n, p, rfl⟩

end Sys2Proof.Machine

namespace Sys2Proof.Proofs
open Sys2Proof.Machine

/-- Settles O54: each record by what it writes or notes, the reads of the count by whether they wait, a checkpoint by its
slot and its four records. -/
theorem duplexRecords : Obligations.DuplexRecords := by
  unfold Obligations.DuplexRecords
  refine ⟨?line, ?sector, ?nowhere, ?reserved, ?head, ?commit, ?count, ?read, ?wait, ?checkpoint, ?skip⟩
  case line =>
    intro s line data calm canonical backup inside size
    obtain ⟨u, step, bytes, rest, counts⟩ := applied_act calm canonical line (line * 128) data
    rw [size] at bytes rest
    refine ⟨u, ?_, bytes, rest, counts⟩
    rw [exec_mirrorWrite backup (by rw [size, sectors_all]), applyWrite_whole inside, step]
  case sector =>
    intro s line j data calm canonical backup inside size
    obtain ⟨u, step, bytes, rest, -⟩ := applied_act calm canonical line (line * 128 + 16 * j.val) data
    rw [size] at bytes rest
    refine ⟨u, ?_, bytes, rest⟩
    rw [exec_mirrorWrite backup (by rw [size, sectors_one]), applyWrite_sector inside j size, step]
  case nowhere =>
    intro s line mask data live backup outside size
    rw [exec_mirrorWrite backup size, applyWrite, outside, if_neg Bool.false_ne_true, act_live s _ live]
    rfl
  case reserved =>
    intro s k line mask data live backup one two three
    rw [exec_mirrorWrite_reserved line mask data backup one two three, act_live s _ live]
    rfl
  case head =>
    intro s i head calm backup
    obtain ⟨p, e⟩ := countApplied_eq { s with dup := { s.dup with jheads := s.dup.jheads.set i.toNat head } }
    refine ⟨countApplied { s with dup := { s.dup with jheads := s.dup.jheads.set i.toNat head } }, ?_, by rw [e], by rw [e], by rw [e]⟩
    change act s (if applies s then _ else s) = _
    rw [if_pos backup]
    exact counted_act calm rfl rfl
  case commit =>
    intro s b c calm backup
    obtain ⟨p, e⟩ := countApplied_eq (committed s { ctx := c, buf := b })
    refine ⟨countApplied (committed s { ctx := c, buf := b }), ?_, ?_, by rw [e]; rfl, by rw [e]; rfl⟩
    · change act s (if applies s then _ else s) = _
      rw [if_pos backup]
      exact counted_act calm rfl rfl
    · rw [e]
      exact List.mem_cons_self
  case count =>
    intro s n live mirrors
    obtain ⟨applied, later⟩ := syncServe_dup { s with dup := { s.dup with
      partnerApplied := max s.dup.partnerApplied (min s.dup.sent (s.dup.sentBase + n.toNat)) } }
    refine ⟨syncServe { s with dup := { s.dup with
      partnerApplied := max s.dup.partnerApplied (min s.dup.sent (s.dup.sentBase + n.toNat)) } }, ?_, applied, ?_⟩
    · change act s (if mirroring s then _ else s) = _
      rw [if_pos mirrors]
      exact act_live s _ live
    · rw [applied]
      exact later
  case read =>
    intro s r calm issues passes applied there
    rw [exec_dupxSyncRead issues, readNow_dupxSync passes applied there, flushCtl_none]
    · exact calm.act rfl rfl
    · exact issues.noneWait
  case wait =>
    intro s r calm issues passes mirrors there behind
    obtain ⟨p, e⟩ := askCount_eq { s with dup := { s.dup with syncWaiters := s.dup.syncWaiters ++ [(r, s.dup.sent)] } }
    rw [exec_dupxSyncRead issues, readNow_dupxSync_waits passes mirrors there behind, e, flushCtl_none]
    · exact calm.act rfl rfl
    · exact issues.noneWait
  case checkpoint =>
    intro s c calm canonical primary masked period ready inside
    obtain ⟨k, n, p, e⟩ := checkpointWrite_eq primary (slotAddr_inside inside (nextSlot s c))
    have length : (wordsBytes (ckptWords s c (nextSeq s c))).length = 256 := by rw [wordsBytes_length, ckptWords_length]
    have bytes := Memory.bytes_writes (wordsBytes (ckptWords s c (nextSeq s c))) s.mem (slotAddr s c (nextSlot s c)) canonical
    have rest (a : Nat) := Memory.read_writes_other (wordsBytes (ckptWords s c (nextSeq s c))) s.mem (slotAddr s c (nextSlot s c)) a
    have mem : (checkpointWrite s c).mem = Memory.writes s.mem (slotAddr s c (nextSlot s c)) (wordsBytes (ckptWords s c (nextSeq s c))) := by
      rw [e]
    rw [length] at bytes
    rw [length] at rest
    refine ⟨checkpointWrite s c, nextSlot s c, ?_, rfl, ?_, by rw [e], by rw [e], fun a out => ?_⟩
    · rw [exec_checkpoint primary masked period, ready, Bool.not_true, if_neg Bool.false_ne_true, e]
      exact calm.act rfl rfl
    · rw [mem]
      exact bytes
    · rw [mem]
      exact rest a out
  case skip =>
    intro s c b calm primary masked period unready
    rw [exec_checkpoint primary masked period, unready, Bool.not_false, if_pos rfl]
    exact calm.act rfl rfl

end Sys2Proof.Proofs
end

section
/-! PROOFS. The channel's registers: binding, the journal's tail, doorbells, the choice for a flit window. -/
namespace Sys2Proof.Machine

/-! ## Offsets -/

theorem elem_beyond {o base stride count : Nat} (h : base + stride * count ≤ o) : elem o base stride count = none :=
  if_neg fun inside => Nat.not_lt.mpr h inside.2.1

theorem elem_at {base stride count n : Nat} (step : 0 < stride) (h : n < count) :
    elem (base + stride * n) base stride count = some n := by
  rw [elem, Nat.add_sub_cancel_left, if_pos, Nat.mul_div_cancel_left _ step]
  exact ⟨Nat.le_add_right .., Nat.add_lt_add_left (Nat.mul_lt_mul_of_pos_left h step) _, Nat.mul_mod_right ..⟩

theorem regAt_chanDb {n : Nat} (h : n < 65536) : regAt (0x4100000 + 8 * n) = some (.chanDb n) := by
  have block : (0x4100000 + 8 * n) / 0x1000000 = 4 := by omega
  have inside : (0x4100000 + 8 * n) % 0x1000000 = 0x100000 + 8 * n := by omega
  have reg : chanReg (0x100000 + 8 * n) = some (.chanDb n) := by
    rw [chanReg, if_neg (by omega), elem_beyond (by omega), elem_beyond (by omega), elem_beyond (by omega), elem_beyond (by omega),
      elem_beyond (by omega), elem_beyond (by omega), elem_at (by decide) h]
    rfl
  unfold regAt
  rw [block, inside]
  exact reg

/-! ## Commands that write a register of the channel -/

/-- Such a write answers the state that it leaves, settled. -/
theorem ctlCmd_settles {s t : State} {r : Req} {off : Nat} {v : Word} {g : Reg} (h : Reaches s r off g)
    (write : regWrite s r off v g = t) (waits : t.bus.waitCtl = s.bus.waitCtl) (aud : g.isAud = false) (dbg : g.isDbg = false) :
    ctlCmd s r off v = .next (settle t) := by
  rw [ctlCmd_reaches s r off v g h (by rw [write, waits, h.issues.noneWait]), writeDone_of h aud dbg, write]

/-- And as it stands, where the operations and the fault lines are left alone. -/
theorem ctlCmd_answers {s t : State} {r : Req} {off : Nat} {v : Word} {g : Reg} (h : Reaches s r off g)
    (write : regWrite s r off v g = t) (waits : t.bus.waitCtl = s.bus.waitCtl) (fcr : t.fcr = s.fcr)
    (quiesce : t.chan.quiesce = s.chan.quiesce) (sends : t.chan.sends = s.chan.sends) (aud : g.isAud = false)
    (dbg : g.isDbg = false) : ctlCmd s r off v = .next t := by
  rw [ctlCmd_settles h write waits aud dbg, settle_quiet t (quiet_of' s t h.calm.quiet fcr quiesce (by rw [sends]))]

/-! ## What the channel writes beside memory -/

theorem agentStoreIn_bus (s : State) (k : BitVec 2) (i : BitVec 8) (a : Nat) (l : List Byte) :
    (agentStoreIn s k i a l).bus = s.bus :=
  agentStoreIn_keeps (·.bus) (fun _ _ _ => rfl) (fun _ _ => rfl) (fun t l => by unfold sendRecords; split <;> rfl) s k i a l

theorem agentStoreFor_bus (s : State) (i : BitVec 8) (k : BitVec 12) (a : Nat) (l : List Byte) :
    (agentStoreFor s i k a l).bus = s.bus := by
  unfold agentStoreFor
  split
  · exact agentStoreIn_bus ..
  · rfl

theorem setSd_fcr (s : State) (sub i : Nat) (v : Word) : (setSd s sub i v).fcr = s.fcr := agentStoreIn_fcr ..
theorem setSd_bus (s : State) (sub i : Nat) (v : Word) : (setSd s sub i v).bus = s.bus := agentStoreIn_bus ..

theorem setSd_portSt (s : State) (sub i : Nat) (v : Word) (n : Nat) : ((setSd s sub i v).port n).st = (s.port n).st := by
  refine agentStoreIn_keeps (fun t => (t.port n).st) (fun _ _ _ => rfl) (fun _ _ => rfl) (fun t l => ?_) ..
  unfold sendRecords
  split
  · change ((t.setPort 4 { t.port 4 with mir := (t.port 4).mir ++ l }).port n).st = _
    by_cases m : n = 4
    · rw [m, State.port_setPort]
    · rw [State.port_setPort_other _ _ _ _ m]
  · rfl

/-- A word of a descriptor that is written leaves the descriptor in memory, and memory in its form. -/
theorem SdInside.setSd {s : State} {sub : Nat} (h : SdInside s sub) (i : Nat) (v : Word) : SdInside (setSd s sub i v) sub :=
  h.reports (writes_setSd s sub i v).toReports

theorem setSd_canonical {s : State} (h : MemoryCanonical s) (sub i : Nat) (v : Word) : MemoryCanonical (setSd s sub i v) :=
  (writes_setSd s sub i v).canonical h

/-! ## Binding -/

/-- The value that CHAN_BIND takes: a subchannel, FRESH in bit 16, UNBIND in bit 17 (R273). -/
def bindWord (n : BitVec 16) (fresh un : Bool) : Word := w64 (n.toNat + b2n fresh * 0x10000 + b2n un * 0x20000)

theorem toNat_w64_of_lt {n : Nat} (h : n < 2 ^ 64) : (w64 n).toNat = n := by
  rw [w64, BitVec.toNat_ofNat, Nat.mod_eq_of_lt h]

theorem b2n_le (b : Bool) : b2n b ≤ 1 := by cases b <;> decide

theorem decide_b2n (b : Bool) : decide (b2n b = 1) = b := by cases b <;> rfl

theorem bindWord_toNat (n : BitVec 16) (fresh un : Bool) :
    (bindWord n fresh un).toNat = n.toNat + b2n fresh * 0x10000 + b2n un * 0x20000 := by
  have low : n.toNat < 2 ^ 16 := n.isLt
  have := b2n_le fresh
  have := b2n_le un
  exact toNat_w64_of_lt (by omega)

theorem exec_chanBindFresh (s : State) (r : Req) (n : BitVec 16) :
    exec (.chanBindFresh r n) s = ctlCmd s r 0x4000030 (bindWord n true false) := by
  have word : w64 (n.toNat + 0x10000) = bindWord n true false := by simp [bindWord, b2n]
  rw [← word]
  rfl

theorem exec_chanBindSync (s : State) (r : Req) (n : BitVec 16) :
    exec (.chanBindSync r n) s = ctlCmd s r 0x4000030 (bindWord n false false) := by
  have word : w64 n.toNat = bindWord n false false := by simp [bindWord, b2n]
  rw [← word]
  rfl

theorem exec_chanUnbind (s : State) (r : Req) (n : BitVec 16) :
    exec (.chanUnbind r n) s = ctlCmd s r 0x4000030 (bindWord n false true) := by
  have word : w64 (n.toNat + 0x20000) = bindWord n false true := by simp [bindWord, b2n]
  rw [← word]
  rfl

theorem fld_bindWord (n : BitVec 16) (fresh un : Bool) : fld (bindWord n fresh un) 15 0 = n.toNat := by
  have low : n.toNat < 2 ^ 16 := n.isLt
  rw [fld, bindWord_toNat, Nat.shiftRight_zero]
  omega

theorem bindWord_fresh (n : BitVec 16) (fresh un : Bool) : bitOf (bindWord n fresh un) 16 = fresh := by
  have low : n.toNat < 2 ^ 16 := n.isLt
  have := b2n_le fresh
  have digit : (n.toNat + b2n fresh * 0x10000 + b2n un * 0x20000) / 2 ^ 16 % 2 = b2n fresh := by omega
  rw [bitOf, BitVec.getLsbD, bindWord_toNat, Nat.testBit_eq_decide_div_mod_eq, digit, decide_b2n]

theorem bindWord_unbind (n : BitVec 16) (fresh un : Bool) : bitOf (bindWord n fresh un) 17 = un := by
  have low : n.toNat < 2 ^ 16 := n.isLt
  have := b2n_le fresh
  have := b2n_le un
  have digit : (n.toNat + b2n fresh * 0x10000 + b2n un * 0x20000) / 2 ^ 17 % 2 = b2n un := by omega
  rw [bitOf, BitVec.getLsbD, bindWord_toNat, Nat.testBit_eq_decide_div_mod_eq, digit, decide_b2n]

theorem chanBindWrite_bindWord {s : State} {n : BitVec 16} (reach : subReach s n.toNat = true) {fresh un : Bool} :
    chanBindWrite s (bindWord n fresh un) =
      if un then unbind s n.toNat else if fresh then bindFresh s n.toNat else bindSync s n.toNat := by
  unfold chanBindWrite
  dsimp only
  rw [fld_bindWord, reach, bindWord_unbind, bindWord_fresh, Bool.not_true, drawIf, if_neg Bool.false_ne_true]

theorem chanBindWrite_fresh {s : State} {n : BitVec 16} (reach : subReach s n.toNat = true) :
    chanBindWrite s (bindWord n true false) = bindFresh s n.toNat := by
  rw [chanBindWrite_bindWord reach, if_neg Bool.false_ne_true, if_pos rfl]

theorem chanBindWrite_sync {s : State} {n : BitVec 16} (reach : subReach s n.toNat = true) :
    chanBindWrite s (bindWord n false false) = bindSync s n.toNat := by
  rw [chanBindWrite_bindWord reach, if_neg Bool.false_ne_true, if_neg Bool.false_ne_true]

theorem chanBindWrite_unbind {s : State} {n : BitVec 16} (reach : subReach s n.toNat = true) :
    chanBindWrite s (bindWord n false true) = unbind s n.toNat := by
  rw [chanBindWrite_bindWord reach, if_pos rfl]

theorem regWrite_chanBind (s : State) (r : Req) (off : Nat) (v : Word) : regWrite s r off v .chanBind = chanBindWrite s v := rfl

/-- A bind with FRESH = 1 starts every number of a subchannel afresh, in the order of its words. -/
def freshStart (s : State) (sub : Nat) : State := setSd (setSd (setSd (bindStart (dropHeld s sub) sub) sub 2 1) sub 3 1) sub 4 0

def freshBound (s : State) (sub : Nat) : State := setSd (freshStart s sub) sub 6 (w64 (1 + (sub % 8) * 256))

theorem bindFresh_unbound {s : State} {sub : Nat} (unbound : sdState s sub = 0) : bindFresh s sub = freshBound s sub := by
  rw [bindFresh, if_neg (not_not_intro unbound)]
  rfl

theorem bindFresh_other {s : State} {sub : Nat} (other : sdState s sub ≠ 0) : bindFresh s sub = s := if_pos other

/-- What a fresh bind leaves in the descriptor (R249, R250). -/
theorem freshBound_words {s : State} {sub : Nat} (canonical : MemoryCanonical s) (inside : SdInside s sub) :
    sdWord (freshBound s sub) sub 2 = 1 ∧ sdWord (freshBound s sub) sub 3 = 1 ∧ sdWord (freshBound s sub) sub 4 = 0 ∧
      sdWord (freshBound s sub) sub 6 = w64 (1 + (sub % 8) * 256) := by
  have canonical0 : MemoryCanonical (bindStart (dropHeld s sub) sub) := canonical
  have inside0 : SdInside (bindStart (dropHeld s sub) sub) sub := inside
  have inside2 := inside0.setSd 2 1
  have inside3 := inside2.setSd 3 1
  have inside4 := inside3.setSd 4 0
  have canonical2 := setSd_canonical canonical0 sub 2 1
  have canonical3 := setSd_canonical canonical2 sub 3 1
  have canonical4 := setSd_canonical canonical3 sub 4 0
  unfold freshBound freshStart
  refine ⟨?_, ?_, ?_, sdWord_setSd_self _ canonical4 inside4 (by decide)⟩
  · rw [sdWord_setSd_other _ inside4 (by decide) (by decide), sdWord_setSd_other _ inside3 (by decide) (by decide),
      sdWord_setSd_other _ inside2 (by decide) (by decide), sdWord_setSd_self _ canonical0 inside0 (by decide)]
  · rw [sdWord_setSd_other _ inside4 (by decide) (by decide), sdWord_setSd_other _ inside3 (by decide) (by decide),
      sdWord_setSd_self _ canonical2 inside2 (by decide)]
  · rw [sdWord_setSd_other _ inside4 (by decide) (by decide), sdWord_setSd_self _ canonical3 inside3 (by decide)]

theorem freshBound_chan (s : State) (sub : Nat) : (freshBound s sub).chan = (bindStart (dropHeld s sub) sub).chan := by
  rw [freshBound, freshStart, setSd_chan, setSd_chan, setSd_chan, setSd_chan]

theorem freshBound_fcr (s : State) (sub : Nat) : (freshBound s sub).fcr = s.fcr := by
  rw [freshBound, freshStart, setSd_fcr, setSd_fcr, setSd_fcr, setSd_fcr]
  rfl

theorem freshBound_bus (s : State) (sub : Nat) : (freshBound s sub).bus = s.bus := by
  rw [freshBound, freshStart, setSd_bus, setSd_bus, setSd_bus, setSd_bus]
  rfl

/-! ### Synchronisation -/

/-- A bind with FRESH = 0, before its SYNC_REQ goes out. -/
def syncStart (s : State) (sub : Nat) : State := setSd (bindStart s sub) sub 6 (w64 (3 + (sub % 8) * 256))

theorem bindSync_starts {s : State} {sub : Nat} (state : sdState s sub = 0 ∨ sdState s sub = 2) :
    bindSync s sub = sendSync (syncStart s sub) sub (.syncReq sub) := by
  rw [bindSync, if_neg (by omega)]
  rfl

theorem fld_syncWord (sub : Nat) : fld (w64 (3 + (sub % 8) * 256)) 2 0 = 3 := by
  rw [fld, toNat_w64_of_lt (by omega), Nat.shiftRight_zero]
  omega

theorem syncStart_state {s : State} {sub : Nat} (canonical : MemoryCanonical s) (inside : SdInside s sub) :
    sdState (syncStart s sub) sub = 3 := by
  have canonical0 : MemoryCanonical (bindStart s sub) := canonical
  have inside0 : SdInside (bindStart s sub) sub := inside
  rw [sdState, syncStart, sdWord_setSd_self _ canonical0 inside0 (by decide), fld_syncWord]

/-- The descriptor's ports and their states are as they were. -/
theorem syncStart_firstPort {s : State} {sub : Nat} (inside : SdInside s sub) :
    firstPort (syncStart s sub) sub = firstPort s sub := by
  have inside0 : SdInside (bindStart s sub) sub := inside
  have word : sdWord (syncStart s sub) sub 0 = sdWord s sub 0 := sdWord_setSd_other _ inside0 (by decide) (by decide)
  have ports : upPorts (syncStart s sub) sub = upPorts s sub := by
    unfold upPorts sdPorts
    rw [word]
    refine List.filter_congr fun n _ => ?_
    rw [syncStart, setSd_portSt]
    rfl
  unfold firstPort
  rw [ports]

theorem sendSync_none {s : State} {sub : Nat} (m : OutMsg) (h : firstPort s sub = none) :
    sendSync s sub m = { s with chan := { s.chan with unsent := s.chan.unsent ++ [m] } } := by
  generalize body : sendSync = f
  delta sendSync at body
  subst body
  dsimp -zeta -zetaHave only
  rw [h]

theorem sendSync_some {s : State} {sub n : Nat} (m : OutMsg) (h : firstPort s sub = some n) :
    sendSync s sub m = queueOut s n m := by
  generalize body : sendSync = f
  delta sendSync at body
  subst body
  dsimp -zeta -zetaHave only
  rw [h]

/-- A subchannel's state rests on memory, its layout and the base of the descriptors. -/
theorem sdState_congr {s t : State} (mem : t.mem = s.mem) (memc : t.memc = s.memc) (free : t.free = s.free)
    (sdtbase : t.chan.sdtbase = s.chan.sdtbase) (sub : Nat) : sdState t sub = sdState s sub := by
  unfold sdState sdWord sdAddr readWord readBytes State.inMemory State.usable
  rw [mem, memc, free, sdtbase]

theorem syncStart_fcr (s : State) (sub : Nat) : (syncStart s sub).fcr = s.fcr := setSd_fcr ..

theorem syncStart_bus (s : State) (sub : Nat) : (syncStart s sub).bus = s.bus := setSd_bus ..

theorem syncStart_chan (s : State) (sub : Nat) : (syncStart s sub).chan = (bindStart s sub).chan := by rw [syncStart, setSd_chan]

theorem syncStart_out (s : State) (sub n : Nat) : ((syncStart s sub).port n).out = (s.port n).out :=
  (writes_setSd (bindStart s sub) sub 6 _).out n

/-- A SYNC_REQ that goes out, or waits, leaves what a command must follow up. -/
theorem sendSync_keeps (s : State) (sub : Nat) (m : OutMsg) : (sendSync s sub m).fcr = s.fcr ∧ (sendSync s sub m).bus = s.bus ∧
    (sendSync s sub m).chan.quiesce = s.chan.quiesce ∧ (sendSync s sub m).chan.sends = s.chan.sends ∧
    (sendSync s sub m).chan.bindSub = s.chan.bindSub ∧ sdState (sendSync s sub m) sub = sdState s sub :=
  sendSync_cases (P := fun t => t.fcr = s.fcr ∧ t.bus = s.bus ∧ t.chan.quiesce = s.chan.quiesce ∧ t.chan.sends = s.chan.sends ∧
    t.chan.bindSub = s.chan.bindSub ∧ sdState t sub = sdState s sub) sub m
    ⟨rfl, rfl, rfl, rfl, rfl, sdState_congr rfl rfl rfl rfl sub⟩
    fun _ => ⟨rfl, rfl, rfl, rfl, rfl, sdState_congr rfl rfl rfl rfl sub⟩

/-! ### Unbinding -/

/-- A record changes the completion counts of the channel, and sends no access. -/
structure RecordsOnly (s t : State) : Prop where
  chan : ∃ c, t.chan = { s.chan with cgcnt := c }
  waits : t.bus.waitCtl = s.bus.waitCtl

theorem RecordsOnly.refl (s : State) : RecordsOnly s s := ⟨⟨s.chan.cgcnt, rfl⟩, rfl⟩

theorem RecordsOnly.trans {s t u : State} (first : RecordsOnly s t) (second : RecordsOnly t u) : RecordsOnly s u := by
  obtain ⟨⟨c, one⟩, waits⟩ := first
  obtain ⟨⟨d, two⟩, more⟩ := second
  exact ⟨⟨d, by rw [two, one]⟩, more.trans waits⟩

theorem records_writeRec (s : State) (sub : Nat) (r : Rec) : RecordsOnly s (writeRec s sub r) := by
  have chan (w x : List Byte) : (agentStoreFor (agentStoreFor s r.inst r.innings (r.opb + 72) w) r.inst r.innings (r.opb + 64) x).chan =
      s.chan := by rw [asideJobs_chan.aside.agentStoreFor, asideJobs_chan.aside.agentStoreFor]
  have bus (w x : List Byte) : (agentStoreFor (agentStoreFor s r.inst r.innings (r.opb + 72) w) r.inst r.innings (r.opb + 64) x).bus =
      s.bus := by rw [agentStoreFor_bus, agentStoreFor_bus]
  unfold writeRec
  dsimp only
  split
  · exact ⟨⟨_, by rw [raise_chan]; dsimp only; rw [chan]⟩, by rw [raise_waitCtl]; dsimp only; rw [bus]⟩
  · exact ⟨⟨s.chan.cgcnt, by rw [chan]⟩, by rw [bus]⟩

/-- The RECEIVEs that a test picks are posted no more; their records are written. -/
theorem records_cancelRecvs (s : State) (pick : RecvOp → Bool) :
    RecordsOnly { s with chan := { s.chan with recvs := s.chan.recvs.filter fun o => !pick o } } (cancelRecvs s pick) := by
  have step (t : State) (sub : Nat) (r : Rec) : RecordsOnly t (writeRec t.drawn.drawn.drawn sub r) := by
    obtain ⟨chan, waits⟩ := records_writeRec t.drawn.drawn.drawn sub r
    exact ⟨chan, waits⟩
  unfold cancelRecvs
  exact List.foldlRecOn _ _ (motive := RecordsOnly _) (.refl _) fun t h o _ => h.trans (step t _ _)

theorem unbind_starts {s : State} {sub : Nat} (state : sdState s sub = 1 ∨ sdState s sub = 2) (once : sub ∉ s.chan.unbinding) :
    unbind s sub = cancelRecvs
      { s with chan := { s.chan with bindSub := BitVec.ofNat 16 sub, unbinding := sub :: s.chan.unbinding } }
      fun o => decide (o.s = sub) := by
  rw [unbind, if_neg]
  rintro (⟨one, two⟩ | twice)
  · exact state.elim one two
  · exact once twice

/-- A subchannel that unbinds and has no SEND left, before it is UNBOUND. -/
def unbindingEnds (s : State) (sub : Nat) : State :=
  let t := dropHeld s sub
  { t with chan := { t.chan with unbinding := t.chan.unbinding.filter fun k => decide (k ≠ sub) } }

theorem unbindDone_ends {s : State} {sub : Nat} (unbinding : sub ∈ s.chan.unbinding) (done : ∀ o ∈ s.chan.sends, o.s ≠ sub) :
    unbindDone s sub = setSdState (unbindingEnds s sub) sub 0 := by
  have none : (s.chan.sends.any fun o => decide (o.s = sub)) = false :=
    List.any_eq_false.mpr fun o listed => by simp [done o listed]
  rw [unbindDone, if_pos ⟨unbinding, by rw [none]; rfl⟩]
  rfl

/-! ## The journal's tail (R258) -/

/-- The entries that a write of the tail would pass. -/
def passedEntries (s : State) (i t : Nat) : List Nat :=
  if (s.jour i).tail.toNat = t then [] else (ringEntries s i).takeWhile fun k => decide (k ≠ t)

/-- A ring lies in memory, where it is configured. -/
def ringReach (s : State) (i : Nat) : Bool :=
  match ringBits s i with
  | none => true
  | some k => s.inMemory (ringBase s i) (128 * 2 ^ k)

theorem ringReach_of {s : State} {i : Nat} (h : ∀ k, ringBits s i = some k → s.inMemory (ringBase s i) (128 * 2 ^ k) = true) :
    ringReach s i = true := by
  unfold ringReach
  split
  · rfl
  · rename_i k bits
    exact h k bits

theorem jtailWrite_eq {s : State} {i : Nat} (reach : ringReach s i = true) (r : Req) (v : Word) (off : Nat) :
    jtailWrite s r i v off =
      if (passedEntries s i (fld v 23 0)).any fun k => decide (fld (entryWord0 s i k) 52 50 = 0) then accessCard s r 0x0E off
      else ringSettle (s.setJour i { s.jour i with tail := BitVec.ofNat 24 (fld v 23 0) }) i := by
  change drawIf (!ringReach s i) _ = _
  rw [reach, Bool.not_true, drawIf, if_neg Bool.false_ne_true]
  rfl

theorem ringSettle_jour (s : State) (i : Nat) : ((ringSettle s i).jour i).tail = (s.jour i).tail ∧
    ((ringSettle s i).jour i).head = (s.jour i).head := by
  rw [ringSettle, State.jour_setJour]
  exact ⟨rfl, rfl⟩

/-! ## Doorbells (R253) -/

theorem card_waitCtl (s : State) (a b c d e : Nat) : (card s a b c d e).bus.waitCtl = s.bus.waitCtl := by
  unfold card sendCard
  split <;> rfl

theorem sendRecords_bus (s : State) (l : List MirRec) : (sendRecords s l).bus = s.bus := by
  unfold sendRecords
  split <;> rfl

/-- A journal entry changes the rings of the channel, and sends no access. -/
structure JournalsOnly (s t : State) : Prop where
  chan : ∃ j, t.chan = { s.chan with jour := j }
  waits : t.bus.waitCtl = s.bus.waitCtl

theorem JournalsOnly.trans {s t u : State} (first : JournalsOnly s t) (second : JournalsOnly t u) : JournalsOnly s u := by
  obtain ⟨⟨c, one⟩, waits⟩ := first
  obtain ⟨⟨d, two⟩, more⟩ := second
  exact ⟨⟨d, by rw [two, one]⟩, more.trans waits⟩

theorem JournalsOnly.of_same {s t : State} (chan : t.chan = s.chan) (waits : t.bus.waitCtl = s.bus.waitCtl) : JournalsOnly s t :=
  ⟨⟨s.chan.jour, chan⟩, waits⟩

theorem JournalsOnly.ite {s t u : State} {p : Prop} [Decidable p] (yes : JournalsOnly s t) (no : JournalsOnly s u) :
    JournalsOnly s (if p then t else u) := by
  split
  · exact yes
  · exact no

theorem journals_setJour (s : State) (i : Nat) (x : Journal) : JournalsOnly s (s.setJour i x) := ⟨⟨_, rfl⟩, rfl⟩

theorem journals_ringReports (s : State) (i sub before : Nat) : JournalsOnly s (ringReports s i sub before) := by
  unfold ringReports
  split
  · exact .of_same rfl rfl
  · have passed {p : Prop} [Decidable p] : JournalsOnly s (if p then raise s 314 else s) :=
      .ite (.of_same (raise_chan ..) (raise_waitCtl ..)) (.of_same rfl rfl)
    exact .ite (passed.trans ((journals_setJour ..).trans (.of_same (card_chan ..) (card_waitCtl ..)))) passed

theorem journals_journal (s : State) (e : JEntry) : JournalsOnly s (journal s e).1 := by
  unfold journal
  split
  · exact .of_same rfl rfl
  · have stored (a : Nat) (l : List Byte) : JournalsOnly s (journalStore s e.inst a l) :=
      .of_same (agentStoreIn_chan ..) (by rw [journalStore, agentStoreIn_bus])
    exact (stored _ _).trans ((journals_setJour ..).trans
      ((JournalsOnly.of_same (sendRecords_chan ..) (by rw [sendRecords_bus])).trans (journals_ringReports ..)))

/-- The words of an operation block, as the channel reads them. -/
def opbWords (s : State) (opb : Nat) : List Word := (List.range 8).map fun k => readWord s (opb + 8 * k)

theorem opbReach_block {s : State} {v : Word} (reach : opbReach s v = true) : s.inMemory v.toNat 128 = true := by
  simp only [opbReach, Bool.and_eq_true] at reach
  obtain ⟨block, -⟩ := reach
  exact block

theorem readWord_within {s : State} {a : Nat} (inside : s.inMemory a 128 = true) {k : Nat} (small : k < 8) :
    readWord s (a + 8 * k) = Memory.word s.mem (a + 8 * k) := by
  rw [readWord_inside (inMemory_within inside (by omega)), Memory.word]

theorem opbWords_inside {s : State} {a : Nat} (inside : s.inMemory a 128 = true) :
    opbWords s a = (List.range 8).map fun k => Memory.word s.mem (a + 8 * k) :=
  List.map_congr_left fun _ small => readWord_within inside (List.mem_range.mp small)

theorem doorbellWrite_taken {s : State} {r : Req} {sub : Nat} {v : Word} (form : v &&& 0xFFF000000000007F#64 = 0)
    (own : reqInst s r = sdInst s sub) (en : s.chan.en = true) (stays : s.dup.relinquishing = false)
    (reach : subReach s sub = true) (block : opbReach s v = true) (off : Nat) :
    doorbellWrite s r sub v off = doorbell s r sub v.toNat := by
  rw [doorbellWrite, if_neg (not_not_intro form), if_neg (not_not_intro own), en, stays, reach, block, Bool.not_true, Bool.or_self,
    if_neg Bool.false_ne_true, Bool.and_self, Bool.not_true, drawIf, if_neg Bool.false_ne_true]

/-- A subchannel takes a doorbell: it is BOUND, its queue and its ring have room, its owner takes work (R253). -/
structure TakesWork (s : State) (r : Req) (sub : Nat) : Prop where
  running : s.chan.quiesce = false
  bound : sdState s sub = 1
  steady : sub ∉ s.chan.unbinding
  room : queued s sub < sdDepth s sub
  takes : s.refusesWork (reqInst s r) = false
  ring : ringFull s (sdInst s sub) = false

theorem doorbell_taken {s : State} {r : Req} {sub opb : Nat} (h : TakesWork s r sub) (good : badOpb (opbWords s opb) = false) :
    doorbell s r sub opb = if fld ((opbWords s opb).getD 0 0) 3 0 = 1 then acceptSend s r sub opb (opbWords s opb)
      else acceptRecv s r sub opb (opbWords s opb) := by
  obtain ⟨running, bound, steady, room, takes, ring⟩ := h
  unfold doorbell
  dsimp only
  rw [running, bound, if_neg Bool.false_ne_true, if_neg (by simp [steady]), if_neg (by decide),
    if_neg (by simp [room, takes]), ring, if_neg Bool.false_ne_true]
  change (if badOpb (opbWords s opb) then _ else _) = _
  rw [good, if_neg Bool.false_ne_true]
  rfl

/-! ### A RECEIVE is posted -/

/-- The RECEIVE that a doorbell posts. -/
def newRecv (s : State) (r : Req) (sub opb : Nat) (w : List Word) : RecvOp :=
  { s := sub, opb := opb, opid := w.getD 1 0, buffer := fld (w.getD 3 0) 51 0, capacity := (w.getD 4 0).toNat
    inst := BitVec.ofNat 8 (reqInst s r), innings := s.inningsOf (reqInst s r), signal := bitOf (w.getD 0 0) 7 }

theorem acceptRecv_posts {s : State} (r : Req) (sub opb : Nat) (w : List Word) (none : s.chan.early = []) :
    acceptRecv s r sub opb w = { s with chan := { s.chan with recvs := s.chan.recvs ++ [newRecv s r sub opb w] } } :=
  deliverReady_none 64 none

/-! ### A SEND is accepted -/

/-- The SEND that a doorbell accepts, with its place in the journal. -/
def newSend (s : State) (r : Req) (sub opb : Nat) (w : List Word) (idx : Nat) : SendOp :=
  let e := sendEntry s sub opb w (txSeq s sub) 0 0
  { s := sub, opb := opb, opid := e.opid, cls := e.cls, seq := BitVec.ofNat 48 (txSeq s sub), buffer := fld (w.getD 3 0) 51 0
    length := e.length, crc := e.crc, jindex := idx, inst := BitVec.ofNat 8 (reqInst s r), innings := s.inningsOf (reqInst s r)
    signal := bitOf (w.getD 0 0) 7, tod := e.tod, dl := e.dl, attempts := 0, counted := 0, rnr := 0, port := none, delayed := 0
    demoted := false, stay := false, fin := 0, st := .queued, mirrorAt := 0, left := 0, rebuilt := false }

/-- A SEND that no takeover has resolved or rebuilt, within its deadline. -/
structure FreshSend (s : State) (sub : Nat) (w : List Word) : Prop where
  unresolved : ∀ u ∈ s.chan.unjournalled, u.s = sub → u.opid ≠ w.getD 1 0
  alone : rebuiltSend s sub (w.getD 1 0) = none
  deadline : s.time.dlbits &&& w.getD 2 0 = 0
  number : txSeq s sub < 2 ^ 48

/-- The journal entry and the next number are written before a SEND is accepted. -/
def sendNoted (s : State) (r : Req) (sub opb : Nat) (w : List Word) : State :=
  let e := sendEntry s sub opb w (txSeq s sub) 0 0
  chanJoin (journal (setSd s sub 2 (w64 (txSeq s sub + 1))) e).1 (BitVec.ofNat 8 (reqInst s r)).toNat e.cls.toNat

/-- A SEND joins the accepted ones. -/
def withSend (s : State) (o : SendOp) : State := { s with chan := { s.chan with sends := s.chan.sends ++ [o] } }

theorem acceptSend_accepts {s : State} (r : Req) {sub : Nat} (opb : Nat) {w : List Word} (h : FreshSend s sub w) :
    ∃ idx, acceptSend s r sub opb w = withSend (sendNoted s r sub opb w) (newSend s r sub opb w idx) := by
  obtain ⟨unresolved, alone, deadline, number⟩ := h
  fun_cases acceptSend s r sub opb w
  case case1 u found =>
    have key := List.find?_some found
    simp only [Bool.and_eq_true, decide_eq_true_eq] at key
    obtain ⟨here, same⟩ := key
    exact absurd same (unresolved u (List.mem_of_find?_eq_some found) here)
  case case2 found => exact absurd (alone.symm.trans found) (Option.some_ne_none _).symm
  case case3 late _ _ _ => exact absurd deadline late
  case case4 spent => exact absurd number (Nat.not_lt.mpr spent)
  case case5 i inn worked sig _ _ _ _ seq e numbered before idx journalled joined =>
    obtain ⟨rfl, rfl⟩ := Prod.mk.inj worked
    have noted : joined = sendNoted s r sub opb w := by
      change chanJoin before _ _ = chanJoin (journal numbered e).1 _ _
      rw [journalled]
    exact ⟨idx, congrArg (fun t => withSend t (newSend s r sub opb w idx)) noted⟩

/-- The operations and the waiting accesses are as they were. -/
structure KeepsOps (s t : State) : Prop where
  sends : t.chan.sends = s.chan.sends
  recvs : t.chan.recvs = s.chan.recvs
  waits : t.bus.waitCtl = s.bus.waitCtl

theorem keepsOps_chanJoin (s : State) (i k : Nat) : KeepsOps s (chanJoin s i k) := by
  obtain ⟨vt, join⟩ := chanJoin_eq s i k
  rw [join]
  exact ⟨rfl, rfl, rfl⟩

theorem keepsOps_journal (s : State) (sub : Nat) (v : Word) (e : JEntry) : KeepsOps s (journal (setSd s sub 2 v) e).1 := by
  obtain ⟨⟨j, chan⟩, waits⟩ := journals_journal (setSd s sub 2 v) e
  exact ⟨by rw [chan, setSd_chan], by rw [chan, setSd_chan], by rw [waits, setSd_bus]⟩

theorem keepsOps_noted (s : State) (sub : Nat) (v : Word) (e : JEntry) (i k : Nat) :
    KeepsOps s (chanJoin (journal (setSd s sub 2 v) e).1 i k) := by
  obtain ⟨sends, recvs, waits⟩ := keepsOps_journal s sub v e
  obtain ⟨sends', recvs', waits'⟩ := keepsOps_chanJoin (journal (setSd s sub 2 v) e).1 i k
  exact ⟨sends'.trans sends, recvs'.trans recvs, waits'.trans waits⟩

theorem keepsOps_sendNoted (s : State) (r : Req) (sub opb : Nat) (w : List Word) : KeepsOps s (sendNoted s r sub opb w) :=
  keepsOps_noted s sub _ _ _ _

/-! ### The command -/

theorem regWrite_chanDb (s : State) (r : Req) (off n : Nat) (v : Word) :
    regWrite s r off v (.chanDb n) = doorbellWrite s r n v off := rfl

theorem exec_chanDoorbell {s : State} {r : Req} {issued : Option Issue} (now : IssuedNow s r issued) (n : BitVec 16) (v : Word) :
    exec (.chanDoorbell r n v issued) s = ctlCmd s r (0x4100000 + 8 * n.toNat) v :=
  workCmd_now now _ v

/-- What a SEND takes from its operation block and from the state it is accepted in (R251, R253). -/
structure SentAs (s : State) (r : Req) (sub opb : Nat) (w : List Word) (o : SendOp) : Prop where
  subchannel : o.s = sub
  block : o.opb = opb
  opid : o.opid = w.getD 1 0
  seq : o.seq = BitVec.ofNat 48 (txSeq s sub)
  queued : o.st = .queued
  length : o.length = (w.getD 4 0).toNat
  innings : o.innings = s.inningsOf (reqInst s r)
  tod : o.tod = s.tod

theorem newSend_sent (s : State) (r : Req) (sub opb : Nat) (w : List Word) (idx : Nat) :
    SentAs s r sub opb w (newSend s r sub opb w idx) := by
  unfold newSend
  generalize seq : txSeq s sub = n
  exact ⟨rfl, rfl, rfl, by rw [seq], rfl, rfl, rfl, rfl⟩

/-- A fresh SEND joins the accepted ones, once its number and its journal entry are written. -/
theorem acceptSend_joins {s : State} (r : Req) {sub : Nat} (opb : Nat) {w : List Word} (fresh : FreshSend s sub w) :
    ∃ t o, acceptSend s r sub opb w = withSend t o ∧ KeepsOps s t ∧ SentAs s r sub opb w o := by
  obtain ⟨idx, accepts⟩ := acceptSend_accepts r opb fresh
  exact ⟨_, _, accepts, keepsOps_sendNoted .., newSend_sent ..⟩

theorem withSend_sends {s t : State} (o : SendOp) (same : t.chan.sends = s.chan.sends) :
    (withSend t o).chan.sends = s.chan.sends ++ [o] := by
  rw [withSend, same]

theorem ctlCmd_withSend {s t : State} {r : Req} {off sub : Nat} {v : Word} {o : SendOp} (h : Reaches s r off (.chanDb sub))
    (taken : doorbellWrite s r sub v off = withSend t o) (waits : t.bus.waitCtl = s.bus.waitCtl) :
    ctlCmd s r off v = .next (settle (withSend t o)) :=
  ctlCmd_settles h ((regWrite_chanDb ..).trans taken) waits rfl rfl

theorem ctlCmd_send {s : State} {r : Req} {off sub : Nat} {v : Word} {w : List Word} (h : Reaches s r off (.chanDb sub))
    (taken : doorbellWrite s r sub v off = acceptSend s r sub v.toNat w) (fresh : FreshSend s sub w) :
    ∃ u o, ctlCmd s r off v = .next (settle u) ∧ u.chan.sends = s.chan.sends ++ [o] ∧ SentAs s r sub v.toNat w o ∧
      u.chan.recvs = s.chan.recvs := by
  obtain ⟨t, o, accepts, kept, sent⟩ := acceptSend_joins r v.toNat fresh
  exact ⟨withSend t o, o, ctlCmd_withSend h (taken.trans accepts) kept.waits, withSend_sends o kept.sends, sent, kept.recvs⟩

theorem ctlCmd_recv {s : State} {r : Req} {off sub : Nat} {v : Word} (h : Reaches s r off (.chanDb sub))
    (taken : doorbellWrite s r sub v off = acceptRecv s r sub v.toNat (opbWords s v.toNat))
    (early : s.chan.early = []) : ctlCmd s r off v = .next { s with chan := { s.chan with
      recvs := s.chan.recvs ++ [newRecv s r sub v.toNat (opbWords s v.toNat)] } } := by
  have posts := acceptRecv_posts r sub v.toNat (opbWords s v.toNat) early
  generalize newRecv s r sub v.toNat (opbWords s v.toNat) = o at posts ⊢
  exact ctlCmd_answers h ((regWrite_chanDb ..).trans (taken.trans posts)) rfl rfl rfl rfl rfl rfl

/-! ## The choice for a flit window (R268, R315) -/

theorem exec_sendSchedule {s : State} {n : Fin 4} (en : s.chan.en = true) (up : (s.port n).isUp = true)
    (none : chosenSend s n = .none) : exec (.sendSchedule n) s =
      act s (schedule (s.setPort n { s.port n with chosen := .none }) n) := by
  change act s (if (s.port n).isUp then scheduled s n else s) = _
  rw [if_pos up, scheduled, en, none]
  rfl

theorem schedule_first {s : State} {n : Nat} {o : SendOp}
    (first : (s.chan.sends.filter fun o => eligibleFlit s n o && (s.port n).mayData n (linkClass s o)).find? (firstTier s) = some o) :
    schedule s n = choose s n o := by
  unfold schedule
  dsimp only
  rw [first]

theorem schedule_second {s : State} {n : Nat} {o : SendOp} {l : List SendOp}
    (ready : l = s.chan.sends.filter fun o => eligibleFlit s n o && (s.port n).mayData n (linkClass s o))
    (none : l.find? (firstTier s) = .none) (second : secondTier s l = some o) :
    schedule s n = choose (demote (chargeTier s o) o).1 n (demote (chargeTier s o) o).2 := by
  subst ready
  unfold schedule
  dsimp only
  rw [none]
  dsimp only
  rw [second]

/-- A C0 SEND of the second tier counts as demoted from then on. -/
theorem demote_send (s : State) (o : SendOp) : (demote s o).2 = { o with demoted := o.demoted || decide (o.cls = 0) } := by
  unfold demote
  split
  · rename_i c0
    obtain ⟨cls, -⟩ := c0
    rw [decide_eq_true cls, Bool.or_true]
  · rename_i other
    have same : (o.demoted || decide (o.cls = 0)) = o.demoted := by
      cases e : o.demoted with
      | true => rfl
      | false => exact decide_eq_false fun cls => other ⟨cls, e⟩
    rw [same]

theorem demote_eq (s : State) (o : SendOp) : ∃ x, (demote s o).1 = { s with insts := x } := by
  unfold demote
  split
  · exact ⟨_, rfl⟩
  · exact ⟨s.insts, rfl⟩

/-- A SEND that starts an attempt on a port. -/
def started (n : Nat) (o : SendOp) : SendOp :=
  { o with st := .onWire, attempts := o.attempts + 1, port := some n, stay := false, left := flitsOf o.length }

/-- What a choice leaves: the SEND's name in the port; the operations are those before, with its attempt started where it was
queued; nothing else that a command has to follow up. -/
structure Chosen (s : State) (n : Nat) (o : SendOp) (u : State) : Prop where
  name : (u.port n).chosen = some (o.s, o.seq)
  sends : u.chan.sends = if o.st = .queued then (setSend s (started n o)).chan.sends else s.chan.sends
  quiesce : u.chan.quiesce = s.chan.quiesce
  fcr : u.fcr = s.fcr
  mem : u.mem = s.mem

theorem startAttempt_eq (s : State) (n : Nat) (o : SendOp) :
    ∃ x, startAttempt s n o = { setSend s (started n o) with insts := x } := by
  unfold startAttempt
  dsimp only
  split
  · obtain ⟨x, e⟩ := charge_eq s o.inst.toNat 0 (32 + o.length)
    rw [e]
    exact ⟨x, rfl⟩
  · exact ⟨s.insts, rfl⟩

theorem chosen_choose (s : State) (n : Nat) (o : SendOp) : Chosen s n o (choose s n o) := by
  unfold choose
  dsimp only
  split
  · rename_i queued
    obtain ⟨x, e⟩ := startAttempt_eq s n o
    rw [e]
    exact ⟨by rw [State.port_setPort], (if_pos queued).symm, rfl, rfl, rfl⟩
  · rename_i other
    exact ⟨by rw [State.port_setPort], (if_neg other).symm, rfl, rfl, rfl⟩

/-- A choice answers as it stands. -/
theorem Chosen.act {s t : State} {n : Nat} {o : SendOp} {u : State} (h : Chosen t n o u) (calm : Calm s) (fcr : t.fcr = s.fcr)
    (quiesce : t.chan.quiesce = s.chan.quiesce) (sends : t.chan.sends = s.chan.sends) : Machine.act s u = .next u := by
  refine act_quiet s u calm.live (quiet_of' s u calm.quiet (h.fcr.trans fcr) (h.quiesce.trans quiesce) ?_)
  rw [h.sends, ← sends]
  split
  · exact List.isEmpty_map
  · rfl

theorem findSend_congr {s t : State} (h : t.chan.sends = s.chan.sends) (sub : Nat) (seq : BitVec 48) :
    findSend t sub seq = findSend s sub seq := by
  rw [findSend, findSend, h]

/-- A queued SEND that is chosen is found with its attempt started. -/
theorem Chosen.queued {s : State} {n : Nat} {o : SendOp} {u : State} (h : Chosen s n o u) (queued : o.st = .queued)
    (found : (findSend s o.s o.seq).isSome = true) : findSend u o.s o.seq = some (started n o) := by
  have sends : u.chan.sends = (setSend s (started n o)).chan.sends := h.sends.trans (if_pos queued)
  rw [findSend_congr sends]
  exact findSend_setSend rfl rfl found

theorem Chosen.later {s : State} {n : Nat} {o : SendOp} {u : State} (h : Chosen s n o u) (later : o.st ≠ .queued)
    (sub : Nat) (seq : BitVec 48) : findSend u sub seq = findSend s sub seq :=
  findSend_congr (h.sends.trans (if_neg later)) sub seq

/-- An eligible SEND that is not queued is on the wire. -/
theorem onWire_of_eligible {s : State} {n : Nat} {o : SendOp} (eligible : eligibleFlit s n o = true) (later : o.st ≠ .queued) :
    o.st = .onWire := by
  have unready : sendReady s n o = false := by
    rw [sendReady, decide_eq_false later, Bool.false_and, Bool.false_and, Bool.false_and]
  rw [eligibleFlit, unready, Bool.false_or] at eligible
  simp only [Bool.and_eq_true, decide_eq_true_eq] at eligible
  obtain ⟨⟨⟨wire, -⟩, -⟩, -⟩ := eligible
  exact wire

end Sys2Proof.Machine

namespace Sys2Proof.Proofs
open Sys2Proof.Machine

/-- Settles O50: each bind by the words that it writes, the tail by the entries that it would pass, a doorbell by the
operation that it accepts, a choice by the attempt that it starts. -/
theorem channelRegisters : Obligations.ChannelRegisters := by
  unfold Obligations.ChannelRegisters
  refine ⟨?fresh, ?freshOther, ?sync, ?unbind, ?unbound, ?tail, ?doorbell, ?stale, ?first, ?second⟩
  case fresh =>
    intro s r n h canonical reach unbound
    have inside := SdInside.of_subReach reach
    have write := (regWrite_chanBind s r 0x4000030 _).trans ((chanBindWrite_fresh reach).trans
      (bindFresh_unbound unbound))
    obtain ⟨tx, rx, map, state⟩ := freshBound_words canonical inside
    refine ⟨freshBound s n.toNat, ?_, tx, rx, map, state, ?_, by rw [freshBound_chan]; rfl, by rw [freshBound_chan]; rfl⟩
    · rw [exec_chanBindFresh]
      exact ctlCmd_answers h write (by rw [freshBound_bus]) (freshBound_fcr ..) (by rw [freshBound_chan]; rfl)
        (by rw [freshBound_chan]; rfl) rfl rfl
    · rw [freshBound_chan]
      exact BitVec.ofNat_toNat ..
  case freshOther =>
    intro s r n h reach other
    have write := (regWrite_chanBind s r 0x4000030 _).trans ((chanBindWrite_fresh reach).trans
      (bindFresh_other other))
    rw [exec_chanBindFresh]
    exact ctlCmd_answers h write rfl rfl rfl rfl rfl rfl
  case sync =>
    intro s r n h canonical reach state
    have inside := SdInside.of_subReach reach
    have write := (regWrite_chanBind s r 0x4000030 _).trans ((chanBindWrite_sync reach).trans
      (bindSync_starts state))
    obtain ⟨fcr, bus, quiesce, sends, bindSub, kept⟩ := sendSync_keeps (syncStart s n.toNat) n.toNat (.syncReq n.toNat)
    rw [syncStart_fcr] at fcr
    rw [syncStart_bus] at bus
    rw [syncStart_chan] at quiesce sends bindSub
    refine ⟨sendSync (syncStart s n.toNat) n.toNat (.syncReq n.toNat), ?_, kept.trans (syncStart_state canonical inside),
      bindSub.trans (BitVec.ofNat_toNat ..), sends, fun p port => ?_, fun none => ?_⟩
    · rw [exec_chanBindSync]
      exact ctlCmd_answers h write (by rw [bus]) fcr quiesce sends rfl rfl
    · rw [sendSync_some _ ((syncStart_firstPort inside).trans port), queueOut_out, syncStart_out]
    · rw [sendSync_none _ ((syncStart_firstPort inside).trans none)]
      dsimp only
      rw [syncStart_chan]
      rfl
  case unbind =>
    intro s r n h reach state once
    have write := (regWrite_chanBind s r 0x4000030 _).trans ((chanBindWrite_unbind reach).trans
      (unbind_starts state once))
    obtain ⟨⟨c, chan⟩, waits⟩ := records_cancelRecvs
      { s with chan := { s.chan with bindSub := BitVec.ofNat 16 n.toNat, unbinding := n.toNat :: s.chan.unbinding } }
      fun o => decide (o.s = n.toNat)
    refine ⟨_, ?_, by rw [chan], ?_, by rw [chan]⟩
    · rw [exec_chanUnbind]
      exact ctlCmd_settles h write waits rfl rfl
    · rw [chan]
      exact List.filter_congr fun o _ => (decide_not ..).symm
  case unbound =>
    intro s n calm canonical reach unbinding done
    have canonical' : MemoryCanonical (unbindingEnds s n.toNat) := canonical
    have inside : SdInside (unbindingEnds s n.toNat) n.toNat := SdInside.of_subReach reach
    have chan : (setSdState (unbindingEnds s n.toNat) n.toNat 0).chan = (unbindingEnds s n.toNat).chan := setSd_chan ..
    refine ⟨setSdState (unbindingEnds s n.toNat) n.toNat 0, ?_, sdState_setSdState canonical' inside (by decide), ?_, ?_, ?_⟩
    · change actSub s n.toNat (unbindDone s n.toNat) = _
      rw [actSub_reach reach, unbindDone_ends unbinding done]
      exact act_quiet s _ calm.live (quiet_of' s _ calm.quiet (setSd_fcr ..) (by rw [chan]; rfl) (by rw [chan]; rfl))
    · rw [chan]
      intro listed
      exact of_decide_eq_true (List.mem_filter.mp listed).2 rfl
    · rw [chan]
      rfl
    · rw [chan]
      rfl
  case tail =>
    intro s r i v h reach
    have write := jtailWrite_eq (ringReach_of reach) r v (0x4001018 + 0x20 * i.val)
    refine ⟨fun closed => ?_, fun moves passes => ?_⟩
    · have none : ((passedEntries s i (fld v 23 0)).any fun k => decide (fld (entryWord0 s i k) 52 50 = 0)) = false := by
        unfold passedEntries
        split
        · rfl
        · exact List.any_eq_false.mpr fun k listed => by simp [closed k listed]
      rw [none, if_neg Bool.false_ne_true] at write
      obtain ⟨tail, head⟩ := ringSettle_jour (s.setJour i { s.jour i with tail := BitVec.ofNat 24 (fld v 23 0) }) i
      rw [State.jour_setJour] at tail head
      exact ⟨_, ctlCmd_answers h write rfl rfl rfl rfl rfl rfl, tail, head, rfl⟩
    · have some : ((passedEntries s i (fld v 23 0)).any fun k => decide (fld (entryWord0 s i k) 52 50 = 0)) = true := by
        obtain ⟨k, listed, opened⟩ := passes
        rw [passedEntries, if_neg moves]
        exact List.any_eq_true.mpr ⟨k, listed, decide_eq_true opened⟩
      rw [some, if_pos rfl] at write
      exact ctlCmd_settles h write (accessCard_waitCtl ..) rfl rfl
  case doorbell =>
    intro s r n v issued w h now reach block form own en stays quiesce bound steady room takes ring words good
    rw [← opbWords_inside (opbReach_block block)] at words
    subst words
    have taken : TakesWork s r n.toNat := ⟨quiesce, bound, steady, room, takes, ring⟩
    have write := (doorbellWrite_taken form own en stays reach block (0x4100000 + 8 * n.toNat)).trans (doorbell_taken taken good)
    refine ⟨fun send deadline number unresolved alone => ?_, fun receive early => ?_⟩
    · rw [if_pos send] at write
      obtain ⟨u, o, answers, sends, sent, recvs⟩ := ctlCmd_send h write ⟨unresolved, alone, deadline, number⟩
      exact ⟨u, o, (exec_chanDoorbell now n v).trans answers, sends, sent.subchannel, sent.block, sent.opid, sent.seq, sent.queued,
        sent.length, sent.innings, sent.tod, recvs⟩
    · rw [if_neg (by rw [receive]; decide)] at write
      exact ⟨_, (exec_chanDoorbell now n v).trans (ctlCmd_recv h write early), rfl, rfl, rfl, rfl⟩
  case stale =>
    intro s c n v k calm issues old
    exact workCmd_stale calm issues (regAt_chanDb n.isLt) rfl old v
  case first =>
    intro s n p o calm en up none cleared found listed
    have eligible : eligibleFlit p n o = true :=
      (Bool.and_eq_true_iff.mp (List.mem_filter.mp (List.mem_of_find?_eq_some found)).2).1
    have choice := chosen_choose p n o
    have there : findSend p o.s o.seq = some o := by rw [cleared]; exact listed
    refine ⟨choose p n o, ?_, choice.name, ?_, choice.mem.trans (by rw [cleared]; rfl)⟩
    · rw [exec_sendSchedule en up none, ← cleared, schedule_first found]
      exact choice.act calm (by rw [cleared]; rfl) (by rw [cleared]; rfl) (by rw [cleared]; rfl)
    · by_cases queued : o.st = .queued
      · rw [choice.queued queued (by rw [there]; rfl)]
        rfl
      · rw [choice.later queued, there]
        exact congrArg some (onWire_of_eligible eligible queued)
  case second =>
    intro s n p l o calm en up none cleared ready noFirst chosen queued listed
    obtain ⟨x, charged⟩ := demote_eq (chargeTier p o) o
    have send := demote_send (chargeTier p o) o
    have choice := chosen_choose (demote (chargeTier p o) o).1 n (demote (chargeTier p o) o).2
    have answers := exec_sendSchedule en up none
    rw [← cleared, schedule_second ready noFirst chosen] at answers
    rw [charged, send] at choice answers
    have there : findSend p o.s o.seq = some o := by rw [cleared]; exact listed
    have found := choice.queued queued ((congrArg Option.isSome there).trans rfl)
    refine ⟨_, answers.trans (choice.act calm ?_ ?_ ?_), choice.name, ?_, ?_, choice.mem.trans ?_⟩
    · rw [cleared]; rfl
    · rw [cleared]; rfl
    · rw [cleared]; rfl
    · rw [found]; rfl
    · rw [found]; rfl
    · rw [cleared]; rfl

end Sys2Proof.Proofs
end
